-- ==== Sys2Proof/Word.lean ====
section
/-! DEFINITION. The numbers and indices the whole model speaks in. -/

namespace Sys2Proof

/-- One byte of buffer memory or of the host data bus. -/
abbrev Byte := BitVec 8

/-- A host address, HA16-HA0 (spec/00_scope.md, "Signal summary"). -/
abbrev Addr := BitVec 17

/-- One of the four coax branches. -/
abbrev Branch := Fin 4

/-- A station number 0-63 of a branch; 0 is the line master, 63 all stations. -/
abbrev StationNo := Fin 64

/-- One of the three printers and its port. -/
abbrev Port := Fin 3

/-- One of the 32 job records. -/
abbrev JobNo := Fin 32

/-- One of the 256 pool buffers. -/
abbrev BufNo := Fin 256

/-- A six-byte new-side address, most significant byte first (R191). -/
abbrev NodeAddr := Vector Byte 6

/-- A saturating counter advances by one and holds at its maximum
(spec/00_scope.md, "Counters"). -/
def satInc (max n : Nat) : Nat := if n < max then n + 1 else max

/-- A 16-bit wrapping counter returns to 0 after 65535. -/
def wrapInc (n : Nat) : Nat := (n + 1) % 65536

/-- Replace entry `i` of a table. -/
def put {α : Type} {n : Nat} (t : Vector α n) (i : Fin n) (x : α) : Vector α n :=
  t.set i.val x i.isLt

end Sys2Proof
end

