-- ==== Sys2Proof/Config.lean ====
section
/-! DEFINITION. What is fixed for the part: the memory map of 10.3, ring sizes and capacities. -/

namespace Sys2Proof.Config

/-- What a byte of buffer memory that nothing has written reads as. The spec gives RAM no power-on
content: DESIGN CHOICE, unsafe, log 3. -/
def unlistedByte : Byte := 0

/-- A free value: the garble count of a record that stood at 15, the top of its range, and advances by 1
(R28, R35 state no result). Nothing constrains it; the argument counts the draws (log 34). -/
opaque freeGarble : Nat → BitVec 4

/-! Bases of the memory map (10.3). -/
def setupBase : Nat := 0x00100
def unitBase : Nat := 0x00300
def nodeBase : Nat := 0x00700
def grantBase : Nat := 0x00900
def captureBase : Nat := 0x00980
def jobBase : Nat := 0x00A00
def probeBase : Nat := 0x00E00
def stationBase : Nat := 0x01000
def fromTrunkBase : Nat := 0x02000
def toTrunkBase : Nat := 0x02800
def submitBase : Nat := 0x02C00
def hostAreaBase : Nat := 0x03000
def poolBase : Nat := 0x10000

/-- Bytes of the setup block image (10.3). -/
def setupBytes : Nat := 512

/-- A transmit queue holds at most 32 entries (R22). -/
def txCapacity : Nat := 32

/-- A printer queue holds at most 16 jobs (R86). -/
def queueCapacity : Nat := 16

/-- Bytes of a pool buffer (3.1). -/
def bufferBytes : Nat := 256

/-- Memory cycles of start-up initialisation: R187 writes 10,848 bytes; after SOFT_RESET R188 reads
1,536 bytes and writes 10,240. -/
def initCycles (soft : Bool) : Nat := if soft then 11776 else 10848

end Sys2Proof.Config
end

