-- ==== Sys2Proof/Syntax.lean ====
section
/-! DEFINITION. The commands: one constructor per row of spec/opcode_table.json, in the table's order,
with the operands the row's rules give it. -/

namespace Sys2Proof

/-- A character as the receiver takes it: the data byte, the mark bit and whether the stop bit was 1
(R1, R2). -/
structure LineChar where
  data : Byte
  mark : Bool
  stop : Bool
  deriving DecidableEq, Repr

/-- The live words of two or three bytes that R164 gives a captured copy, but for SUMMARY, whose
first-byte read is a row of its own. -/
inductive LiveWord
  | lastRefusal
  | lastBlocked
  | freeCount
  | score (b : Branch)
  | branchState (b : Branch)
  deriving DecidableEq, Repr

/-- The three conditions a port filters (R100): select low, paper-out high, fault low. -/
inductive PrinterCondition
  | deselected
  | paperOut
  | fault
  deriving DecidableEq, Repr

/-- Which echo comparators rise at a tick (R155). -/
inductive EchoRise
  | positive
  | negative
  | both
  deriving DecidableEq, Repr

/-- The commands of the block: the rows of spec/opcode_table.json. A host write carries the written
byte `v`. -/
inductive Instr
  | powerOnReset
  | pinResetAssert
  | pinResetRelease
  | softReset (v : Byte)
  | initialisationComplete
  | commit (v : Byte)
  | commitReadComplete
  | commitApplication
  | postToTrunk (v : Byte)
  | toTrunkRetry
  | postSubmit (v : Byte)
  | submissionRetry
  | copyEngineServe
  | toTrunkCopyComplete
  | submissionCopyComplete
  | returnBuffer (v : Byte)
  | jobRelease (v : Byte)
  | jobAbort (v : Byte)
  | jobMoveJob (v : Byte)
  | jobMovePrinter (v : Byte)
  | loadGrant (v : Byte)
  | branchSel (v : Byte)
  | isolate
  | restore
  | probe
  | captureRelease (v : Byte)
  | clearCounters (v : Byte)
  | snapKind (v : Byte)
  | snapIndex (v : Byte)
  | senseNow (v : Byte)
  | summaryLoRead
  | liveWordFirstByteRead (w : LiveWord)
  | senseMissedRead
  | snapshotWindowLastByteRead
  | hostWrite (a : Addr) (v : Byte)
  | stationEdit (b : Branch) (n : StationNo) (v : Byte)
  | bar (b : Branch) (n : StationNo) (present : Bool)
  | unbar (b : Branch) (n : StationNo) (present : Bool)
  | clearConflict (b : Branch) (n : StationNo) (present : Bool)
  | unitMapEdit (u : Fin 256) (v : Byte)
  | nodeListEdit (n : Fin 64) (v : Byte)
  | memoryPortGrant
  | imageWriteBegin
  | imageWriteComplete
  | transmissionEnd (b : Branch)
  | receiveCharacter (b : Branch) (c : LineChar)
  | replyWindowClose (b : Branch)
  | gapTimeout (b : Branch)
  | quietWaitEnd (b : Branch)
  | strayRunEnd (b : Branch)
  | turnaroundEnd (b : Branch)
  | listenSlotEnd (b : Branch)
  | paddingEnd (b : Branch)
  | payloadShiftComplete (b : Branch)
  | decayTimerExpiry (b : Branch)
  | sensePeriodExpiry
  | sensePassStart
  | senseConversionComplete (code : Byte)
  | relaySettle (b : Branch)
  | relayFault (b : Branch) (low : Bool)
  | restoreTimerExpiry (b : Branch)
  | buttonPress
  | indicatorFlashToggle (b : Branch)
  | probeStart
  | probePulse
  | probePulseEnd
  | echoCrossing (tick : BitVec 12) (rise : EchoRise)
  | captureWindowEnd
  | printerConditionChange (p : Port) (c : PrinterCondition) (asserted : Bool)
  | bytePresent (p : Port)
  | abandonedByteTimeout (p : Port)
  | acknowledge (p : Port)
  | stallTimerExpiry (p : Port)
  | stallEndBusyLow (p : Port)
  | redirectTimerExpiry (p : Port)
  | receiveLineLevelChange (b : Branch) (level : Bool)
  | falseStartBit (b : Branch)
  | attentionButtonRelease
  | printerStrobeEnd (p : Port)
  deriving DecidableEq, Repr

end Sys2Proof
end

