-- ==== Sys2Proof/WellFormed.lean ====
section
/-! DEFINITION. Which commands are well formed. The operands' types already keep every branch, port,
station number, entry and tick in range; what is left is the row HOST_WRITE, "a host write with no row
of its own". -/

namespace Sys2Proof

/-- The written byte is one of the three action codes of BRANCH_ACTION (10.4). -/
def isActionCode (v : Byte) : Bool := v == 1 || v == 2 || v == 3

/-- The address is a command word whose write with this byte is a row of the table (10.4). -/
def isCommandRow (a : Nat) (v : Byte) : Bool :=
  decide (0x01 ≤ a) && decide (a ≤ 0x11) && (a != 0x0C || isActionCode v)

/-- The address is byte 6 of a station image (R44, R167). -/
def isStationTrigger (a : Nat) : Bool :=
  decide (0x01000 ≤ a) && decide (a < 0x02000) && a % 16 == 6

/-- The address is the fourth byte of a unit map entry (R48, R167). -/
def isUnitTrigger (a : Nat) : Bool :=
  decide (0x00300 ≤ a) && decide (a < 0x00700) && a % 4 == 3

/-- The address is the eighth byte of a node list entry (R49, R167). -/
def isNodeTrigger (a : Nat) : Bool :=
  decide (0x00700 ≤ a) && decide (a < 0x00900) && a % 8 == 7

/-- A command is well formed when a HOST_WRITE names no write that has a row of its own. -/
def Instr.wellFormed : Instr → Bool
  | .hostWrite a v =>
    !isCommandRow a.toNat v && !isStationTrigger a.toNat && !isUnitTrigger a.toNat
      && !isNodeTrigger a.toNat
  | _ => true

end Sys2Proof
end

