-- ==== Sys2Proof/Decode.lean ====
section
/-! DEFINITION. Decoding. The table gives no row any bits, so a table word spells no command. What the
part does decode is a host write, by its address (R160, R162, R167, 10.4): `ofHostWrite` gives the row
of a write and `busWrite` the write of a row. -/

namespace Sys2Proof

/-- No row of spec/opcode_table.json has bits ("n_rows_with_fixed": 0), so no word spells one. -/
def decodeTableWord (_nbits _w : Nat) : Option Instr := none

/-- The control byte of a station image (10.6): bit 0 present, bit 1 bar, bit 2 clear-conflict. -/
def controlByte (present bar clear : Bool) : Byte :=
  (if present then 1 else 0) ||| (if bar then 2 else 0) ||| (if clear then 4 else 0)

/-- The address of byte 6 of the image of station b/n (R31). -/
def stationTriggerAddr (b : Branch) (n : StationNo) : Addr :=
  BitVec.ofNat 17 (0x01000 + (64 * b.val + n.val) * 16 + 6)

/-- The address of the fourth byte of unit map entry u (R48). -/
def unitTriggerAddr (u : Fin 256) : Addr := BitVec.ofNat 17 (0x00300 + 4 * u.val + 3)

/-- The address of the eighth byte of node list entry n (R49). -/
def nodeTriggerAddr (n : Fin 64) : Addr := BitVec.ofNat 17 (0x00700 + 8 * n.val + 7)

/-- The command word at an address of the control page, with the byte written (10.4). -/
def ofCommandWord (a : Addr) (v : Byte) : Instr :=
  match a.toNat with
  | 0x01 => .commit v
  | 0x02 => .softReset v
  | 0x03 => .postToTrunk v
  | 0x04 => .postSubmit v
  | 0x05 => .returnBuffer v
  | 0x06 => .jobRelease v
  | 0x07 => .jobAbort v
  | 0x08 => .jobMoveJob v
  | 0x09 => .jobMovePrinter v
  | 0x0A => .loadGrant v
  | 0x0B => .branchSel v
  | 0x0C => if v = 1 then .isolate else if v = 2 then .restore else if v = 3 then .probe else .hostWrite a v
  | 0x0D => .captureRelease v
  | 0x0E => .clearCounters v
  | 0x0F => .snapKind v
  | 0x10 => .snapIndex v
  | 0x11 => .senseNow v
  | _ => .hostWrite a v

/-- The row of a host write of byte `v` at address `a`. -/
def ofHostWrite (a : Addr) (v : Byte) : Instr :=
  if isStationTrigger a.toNat then
    .stationEdit (Fin.ofNat 4 ((a.toNat - 0x01000) / 1024)) (Fin.ofNat 64 ((a.toNat - 0x01000) / 16)) v
  else if isUnitTrigger a.toNat then .unitMapEdit (Fin.ofNat 256 ((a.toNat - 0x00300) / 4)) v
  else if isNodeTrigger a.toNat then .nodeListEdit (Fin.ofNat 64 ((a.toNat - 0x00700) / 8)) v
  else ofCommandWord a v

/-- The address and byte that the host drives for a command that is a host write; none for the rest. -/
def busWrite : Instr → Option (Addr × Byte)
  | .commit v => some (0x01, v)
  | .softReset v => some (0x02, v)
  | .postToTrunk v => some (0x03, v)
  | .postSubmit v => some (0x04, v)
  | .returnBuffer v => some (0x05, v)
  | .jobRelease v => some (0x06, v)
  | .jobAbort v => some (0x07, v)
  | .jobMoveJob v => some (0x08, v)
  | .jobMovePrinter v => some (0x09, v)
  | .loadGrant v => some (0x0A, v)
  | .branchSel v => some (0x0B, v)
  | .isolate => some (0x0C, 1)
  | .restore => some (0x0C, 2)
  | .probe => some (0x0C, 3)
  | .captureRelease v => some (0x0D, v)
  | .clearCounters v => some (0x0E, v)
  | .snapKind v => some (0x0F, v)
  | .snapIndex v => some (0x10, v)
  | .senseNow v => some (0x11, v)
  | .hostWrite a v => some (a, v)
  | .stationEdit b n v => some (stationTriggerAddr b n, v)
  | .bar b n p => some (stationTriggerAddr b n, controlByte p true false)
  | .unbar b n p => some (stationTriggerAddr b n, controlByte p false false)
  | .clearConflict b n p => some (stationTriggerAddr b n, controlByte p false true)
  | .unitMapEdit u v => some (unitTriggerAddr u, v)
  | .nodeListEdit n v => some (nodeTriggerAddr n, v)
  | .powerOnReset | .pinResetAssert | .pinResetRelease | .initialisationComplete
  | .commitReadComplete | .commitApplication | .toTrunkRetry | .submissionRetry
  | .copyEngineServe | .toTrunkCopyComplete | .submissionCopyComplete | .summaryLoRead
  | .liveWordFirstByteRead _ | .senseMissedRead | .snapshotWindowLastByteRead
  | .memoryPortGrant | .imageWriteBegin | .imageWriteComplete | .transmissionEnd _
  | .receiveCharacter _ _ | .replyWindowClose _ | .gapTimeout _ | .quietWaitEnd _
  | .strayRunEnd _ | .turnaroundEnd _ | .listenSlotEnd _ | .paddingEnd _
  | .payloadShiftComplete _ | .decayTimerExpiry _ | .sensePeriodExpiry | .sensePassStart
  | .senseConversionComplete _ | .relaySettle _ | .relayFault _ _ | .restoreTimerExpiry _
  | .buttonPress | .indicatorFlashToggle _ | .probeStart | .probePulse | .probePulseEnd
  | .echoCrossing _ _ | .captureWindowEnd | .printerConditionChange _ _ _ | .bytePresent _
  | .abandonedByteTimeout _ | .acknowledge _ | .stallTimerExpiry _ | .stallEndBusyLow _
  | .redirectTimerExpiry _ | .receiveLineLevelChange _ _ | .falseStartBit _
  | .attentionButtonRelease | .printerStrobeEnd _ => none

end Sys2Proof
end

