-- ==== Sys2Proof/Machine/Bits.lean ====
section
/-! DEFINITION. Bit fields and byte order: numbers of more than one byte lie low byte first (R191). -/

namespace Sys2Proof.Machine

/-- Byte `i` of a number, byte 0 the low one (R191). -/
def byteOf (n i : Nat) : Byte := BitVec.ofNat 8 (n >>> (8 * i))

/-- A two-byte number, low byte first (R191). -/
def le16 (n : Nat) : List Byte := [byteOf n 0, byteOf n 1]

/-- A three-byte number, low byte first (R191). -/
def le24 (n : Nat) : List Byte := [byteOf n 0, byteOf n 1, byteOf n 2]

/-- Byte `i` of a record, 0 past its end. -/
def byteAt (l : List Byte) (i : Nat) : Byte := l.getD i 0

/-- The number at byte `i` of a record, `k` bytes, low byte first (R191). -/
def numAt (l : List Byte) (i : Nat) : Nat → Nat
  | 0 => 0
  | k + 1 => (byteAt l i).toNat + 256 * numAt l (i + 1) k

/-- Bit `i` of a byte. -/
def bitAt (v : Byte) (i : Nat) : Bool := v.getLsbD i

/-- A flag placed at bit `i` of a number. -/
def flagBit (f : Bool) (i : Nat) : Nat := if f then 2 ^ i else 0

/-- Bring a number into the range `lo` to `hi` (R178). -/
def clamp (lo hi n : Nat) : Nat := if n < lo then lo else if hi < n then hi else n

/-- The six bytes of a record from byte `i`, as an address (R191). -/
def addrAt (l : List Byte) (i : Nat) : NodeAddr := Vector.ofFn fun k => byteAt l (i + k.val)

/-- `n` zero bytes. -/
def zeros (n : Nat) : List Byte := List.replicate n 0

end Sys2Proof.Machine
end

