-- ==== Sys2Proof/Machine/State.lean ====
section
/-! DEFINITION. The state of the SK4130 as plain data: one structure per block, named as the spec names
it, and the state after reset. The part (`Part`), the buffer memory and the queue of waiting commands
are kept apart, so what does not touch the memory says so by its type. -/

namespace Sys2Proof.Machine

/-! ## Setup values (R178) -/

/-- The setup fields of one branch (R178, 10.5). -/
structure BranchSetup where
  replyWindow : Nat
  gapLimit : Nat
  missLimit : Nat
  conflictLimit : Nat
  sweepInterval : Nat
  holdLimit : Nat
  listenMs : Nat
  noiseLimit : Nat
  deglitch : Nat
  immediateMask : BitVec 8
  captureMask : BitVec 8
  autoProbe : Bool
  weights : Vector Nat 8
  ti : Nat
  tw : Nat
  tc : Nat
  d : Nat
  decayPeriod : Nat
  c : Nat
  settleMs : Nat
  restoreDelay : Nat
  restoreLimit : Nat
  trialRounds : Nat
  probeCount : Nat
  blankTicks : Nat
  zeroOffset : Nat
  k : Nat
  expectedLength : Nat
  tolerance : Nat
  deriving DecidableEq, Repr

/-- The setup fields of one printer (R109, R178). -/
structure PrinterSetup where
  enable : Bool
  stallS : Nat
  redirectS : Nat
  alternate : Nat
  deriving DecidableEq, Repr

/-- All the setup values (R178). -/
structure Setup where
  branchEnable : BitVec 4
  derivedPrefix : Vector Byte 4
  reserve : Nat
  jobBufferLimit : Nat
  stationJobLimit : Nat
  sensePeriod : Nat
  shortLimit : Nat
  openLimit : Nat
  noticeEnable : BitVec 16
  branch : Vector BranchSetup 4
  printer : Vector PrinterSetup 3
  deriving DecidableEq, Repr

/-- The defaults of R178 for a branch. -/
def BranchSetup.default : BranchSetup where
  replyWindow := 8
  gapLimit := 2
  missLimit := 3
  conflictLimit := 4
  sweepInterval := 16
  holdLimit := 20
  listenMs := 2
  noiseLimit := 4
  deglitch := 1
  immediateMask := 0xC0
  captureMask := 0xFF
  autoProbe := true
  weights := #v[16, 24, 24, 32, 48, 64, 0, 0]
  ti := 640
  tw := 256
  tc := 128
  d := 8
  decayPeriod := 100
  c := 1
  settleMs := 20
  restoreDelay := 60
  restoreLimit := 3
  trialRounds := 50
  probeCount := 4
  blankTicks := 20
  zeroOffset := 3
  k := 791
  expectedLength := 300
  tolerance := 10

/-- The defaults of R178 for a printer. -/
def PrinterSetup.default : PrinterSetup where
  enable := false
  stallS := 30
  redirectS := 0
  alternate := 3

/-- Every default of R178. -/
def Setup.default : Setup where
  branchEnable := 0
  derivedPrefix := #v[0x02, 0x53, 0x4B, 0x00]
  reserve := 32
  jobBufferLimit := 64
  stationJobLimit := 2
  sensePeriod := 10
  shortLimit := 40
  openLimit := 200
  noticeEnable := 0
  branch := Vector.replicate 4 BranchSetup.default
  printer := Vector.replicate 3 PrinterSetup.default

/-! ## Notices and the setup loader -/

/-- The sixteen notices (9.3). -/
inductive Notice
  | relayFault | isolated | restored | capture | warn | probeDone | station | printer
  | jobDone | fromTrunk | toTrunkDone | submitDone | poolLow | refused | button | readyDone
  deriving DecidableEq, Repr

/-- The reasons of a refusal (R185). -/
inductive Reason
  | busy | badState | badArgument | notOwned | dupAddress | queueFull | blockedWrite | init
  deriving DecidableEq, Repr

/-- The notice unit: latches and LAST_REFUSAL (R182, R185). -/
structure NoticeUnit where
  latches : BitVec 16
  reason : Option Reason
  code : Byte
  deriving DecidableEq, Repr

/-- The start-up state (R186). -/
inductive StartState
  | init | ready | running
  deriving DecidableEq, Repr

/-- What the setup loader is moving through its requester: start-up initialisation (R187, R188), the
reading (R177) or the write-back (R179) of a commit. -/
inductive LoaderTask
  | idle
  | initialise (soft : Bool) (pos : Nat) (entry : List Byte)
  | reading (bytes : List Byte)
  | writing (next : Setup) (pos : Nat)
  deriving DecidableEq, Repr

/-- The setup loader but for the values in force (R176, R186). -/
structure Loader where
  startState : StartState
  task : LoaderTask
  deriving DecidableEq, Repr

/-! ## Pool (R51, R52, R56) -/

/-- The free list, head first, and the host-held set. -/
structure Pool where
  free : List BufNo
  hostHeld : List BufNo
  deriving DecidableEq, Repr

/-! ## Station directory -/

/-- The state of a station record (R28). -/
inductive StationState
  | absent | present | conflict | barred
  deriving DecidableEq, Repr

/-- A station record (R28). -/
structure Station where
  state : StationState
  assigned : Option NodeAddr
  miss : Nat
  garble : Nat
  txSeq : Bool
  rxLast : Bool
  rxValid : Bool
  openJobs : Nat
  queued : Nat
  lastHeard : Nat
  framesIn : Nat
  framesOut : Nat
  deriving DecidableEq, Repr

/-- What a unit leads to (R47). -/
inductive UnitKind
  | unassigned
  | node (i : Fin 64)
  | printer (p : Port)
  | station (b : Branch) (n : StationNo)
  | localUnit
  deriving DecidableEq, Repr

/-- A unit map entry (R47). -/
structure UnitEntry where
  kind : UnitKind
  mask : BitVec 4
  deriving DecidableEq, Repr

/-- A node list entry (R49). -/
structure NodeEntry where
  addr : NodeAddr
  valid : Bool
  deriving DecidableEq, Repr

/-! ## Trunk engines -/

/-- The state of a trunk engine (R8). -/
inductive EngineState
  | stopped | initialSweep | rounds | stopping
  deriving DecidableEq, Repr

/-- The completion codes of a transmit queue entry (R23). -/
inductive TxCode
  | delivered | broadcastSent | refused | noStation | barred | conflict | isolated
  deriving DecidableEq, Repr

/-- Where a transmit queue entry came from (R22); a slot entry keeps the copy of its slot (R193). -/
inductive TxOrigin
  | slot (i : Fin 32) (copy : List Byte)
  | relay (b : Branch) (n : StationNo)
  deriving DecidableEq, Repr

/-- A transmit queue entry (R22). -/
structure TxEntry where
  target : StationNo
  buf : BufNo
  origin : TxOrigin
  hold : Nat
  first : Bool
  last : Bool
  deriving DecidableEq, Repr

/-- Where an engine stands (R5, R7, R10, R14). `none` is STOPPED or between exchanges. -/
inductive Phase
  | none | transmit | window | reply | quiet | verdict | owed | turnaround | listen | padding
  deriving DecidableEq, Repr

/-- The kinds of exchange: a visit POLL (R15), a sweep POLL (R19), a SEND (R17), a broadcast (R18). -/
inductive ExchKind
  | poll | sweep | send | broadcast
  deriving DecidableEq, Repr

/-- What the next character of a reply is (R2, R3). -/
inductive RxStage
  | first | code | unit | ctl | len | payload | checkHi | checkLo
  deriving DecidableEq, Repr

/-- The reply received so far (R6, R16). -/
structure Reply where
  stage : RxStage
  chars : List (Byte × Bool)
  unit : Byte
  ctl : Byte
  len : Nat
  got : Nat
  crc : BitVec 16
  checkHi : Byte
  deriving DecidableEq, Repr

/-- An exchange in progress (R5): with the values kept for the whole exchange, the void mark (R38), the
buffer of the entry in flight and the code with which it completes at the end (R24). -/
structure Exchange where
  kind : ExchKind
  station : StationNo
  entry : Option BufNo
  replyWindow : Nat
  gapLimit : Nat
  deglitch : Nat
  void : Bool
  endCode : Option TxCode
  seq : Bool
  reply : Reply
  deriving DecidableEq, Repr

/-- The frame being read from its buffer for a SEND or a broadcast (R17): the bytes read so far are
unit, len and payload. -/
structure TxRead where
  buf : BufNo
  ctl : Byte
  got : List Byte
  deriving DecidableEq, Repr

/-- A station of the round's visit order; once it has left the poll list, `next` is the station that
followed it there (R11). -/
structure VisitItem where
  station : StationNo
  left : Bool
  next : Option StationNo
  deriving DecidableEq, Repr

/-- The part of a round an exchange belongs to (R10). -/
inductive RoundPart
  | broadcast | visits | sweep
  deriving DecidableEq, Repr

/-- Where a character now arriving began (R1, R125): in the listen slot in progress, in a listen slot that has ended,
or outside any. -/
inductive ArriveIn
  | slot | past | elsewhere
  deriving DecidableEq, Repr

/-- A trunk engine (1.4); `listen` is the listen_ms taken at the start of the listen slot in progress (R14,
R27). -/
structure Engine where
  state : EngineState
  pollList : List StationNo
  cursor : Option StationNo
  sweepCursor : Nat
  round : Nat
  reservation : Option BufNo
  queue : List TxEntry
  pollSkipped : Nat
  relayDropped : Nat
  phase : Phase
  exch : Option Exchange
  roundPart : RoundPart
  order : List VisitItem
  visiting : Option VisitItem
  spoke : Bool
  initNext : Nat
  sent : List (Byte × Bool)
  txRead : Option TxRead
  strayRun : Option (List (Byte × Bool))
  arriving : Option ArriveIn
  rxLevel : Bool
  listen : Option Nat
  deriving DecidableEq, Repr

/-- A byte that a stopped shift or copy has read and that is still to be written (R76, R81): to offset `off` of
buffer `buf`. -/
structure LastByte where
  buf : BufNo
  off : Nat
  value : Byte
  deriving DecidableEq, Repr

/-- One piece of work of a receive path (R168): a received byte to write, the shift of a print frame's payload with
the byte just read, or the byte in progress of a shift that has stopped (R81). -/
inductive PathOp
  | write (buf : BufNo) (off : Nat) (v : Byte)
  | shift (buf : BufNo) (len : Nat) (i : Nat) (byte : Option Byte)
  | last (x : LastByte)
  deriving DecidableEq, Repr

/-- A good frame as it is offered (R58): the sender, the buffer and the received unit, ctl and len, as the
buffer holds them (log 26). -/
structure Offer where
  branch : Branch
  station : StationNo
  buf : BufNo
  unit : Byte
  ctl : Byte
  len : Nat
  deriving DecidableEq, Repr

/-- The router's own state (R60, R62), with the offers that wait for a read of the producer slot's mark (R168), one
read each, in the order in which they came. -/
structure Router where
  producer : Fin 64
  unroutable : Vector Nat 4
  offers : List Offer
  deriving DecidableEq, Repr

/-! ## Walks and copy engine -/

/-- The state of a walk (R68, R88). -/
inductive WalkState
  | idle | working | waiting | copying
  deriving DecidableEq, Repr

/-- The to-trunk walk (R68); `asking` for the copy engine (R75), `retryDue` once an event of R70 has
occurred since its last reading of the slot, `slot` its copy of the slot (R193). -/
structure ToTrunkWalk where
  state : WalkState
  index : Fin 32
  pending : Bool
  asking : Bool
  retryDue : Bool
  slot : List Byte
  deriving DecidableEq, Repr

/-- What the submission walk waits for (R89, R90, R91). -/
inductive SubmitWait
  | record | buffer | room
  deriving DecidableEq, Repr

/-- The submission walk (R88): `job` is the job it works on, `pos` how much of the slot is in the
chain. -/
structure SubmitWalk where
  state : WalkState
  index : Fin 16
  pending : Bool
  asking : Bool
  retryDue : Bool
  wait : SubmitWait
  slot : List Byte
  job : Option JobNo
  pos : Nat
  deriving DecidableEq, Repr

/-- The two walks the copy engine serves (R75). -/
inductive Walk
  | toTrunk | submit
  deriving DecidableEq, Repr

/-- The current copy (3.4): bytes to write before any read (`head`), then `left` bytes from `src`, each
read into `byte` and then written at `off`. `total` is the number of bytes it moves. -/
structure Copy where
  walk : Walk
  buf : BufNo
  head : List Byte
  src : Nat
  left : Nat
  off : Nat
  byte : Option Byte
  total : Nat
  deriving DecidableEq, Repr

/-- The copy engine (R75). `stopped` is the byte that a stopped copy had in progress and that is still to be
written (R76, log 50). -/
structure CopyEngine where
  current : Option Copy
  last : Option Walk
  stopped : Option LastByte
  deriving DecidableEq, Repr

/-! ## Job manager -/

/-- The state of a job (R77). -/
inductive JobState
  | free | assembling | waiting | printing | held | done | aborted
  deriving DecidableEq, Repr

/-- The origin of a job (R77). -/
inductive JobOrigin
  | none | trunk (b : Branch) (n : StationNo) | submitted (tag : Nat)
  deriving DecidableEq, Repr

/-- Why a job is HELD (R77). -/
inductive HoldReason
  | stalled | paperOut | offline | fault
  deriving DecidableEq, Repr

/-- How a job ended (R77). -/
inductive JobResult
  | complete | incomplete | sourceLost | tooLarge | barred | abortedByRequest | printerGone
  deriving DecidableEq, Repr

/-- A chain entry (R80, R81). -/
structure ChainEntry where
  buf : BufNo
  fill : Nat
  shifted : Bool
  deriving DecidableEq, Repr

/-- A job record (R77), with the abort-pending mark (R94) and the sum of the fills of the chain entries
already freed, from which the position is found (R102). -/
structure Job where
  state : JobState
  printer : Port
  origin : JobOrigin
  stamp : Nat
  chain : List ChainEntry
  queuedBytes : Nat
  printed : Nat
  moved : Bool
  hold : Option HoldReason
  result : Option JobResult
  abortPending : Bool
  freed : Nat
  deriving DecidableEq, Repr

/-! ## Printer ports -/

/-- The state of a port (R99). -/
inductive PortState
  | disabled | idle | busy | stalled | paperOut | offline | fault
  deriving DecidableEq, Repr

/-- A printer port (R99). A timer is `none` when stopped and otherwise holds its period in seconds. `overdue` says
that 1 ms has passed since the byte of the abandoned-byte mark was given up (R102 step 4, log 38). `table` is the grant
table in force, `none` an empty phase (R110). -/
structure PrinterPort where
  state : PortState
  job : Option JobNo
  handshake : Option Byte
  abandoned : Bool
  overdue : Bool
  stall : Option Nat
  redirect : Option Nat
  redirected : Bool
  table : Vector (Option (Fin 5)) 32
  pointer : Fin 32
  loadPending : Bool
  stalled : Bool
  fetched : Option Byte
  loading : Option (List Byte)
  data : Byte
  strobe : Bool
  deselected : Bool
  paperOut : Bool
  fault : Bool
  deriving DecidableEq, Repr

/-! ## Line supervisors and the sense sequencer -/

/-- The eight kinds of error (R118). -/
inductive ErrorKind
  | miss | check | framing | wrongStation | stray | noise | loopChange | relayFault
  deriving DecidableEq, Repr

/-- A first-error capture record (R122). -/
structure Capture where
  valid : Bool
  kind : ErrorKind
  station : StationNo
  stamp : Nat
  chars : List (Byte × Bool)
  detail : Nat
  further : Nat
  deriving DecidableEq, Repr

/-- A noise gate (R125). -/
structure Gate where
  isOpen : Bool
  edges : Nat
  chars : List (Byte × Bool)
  complete : Nat
  deriving DecidableEq, Repr

/-- A line supervisor (R120, R122, R125, R127); `decay` is the period the decay timer is running, in
units of 10 ms. -/
structure Supervisor where
  kinds : Vector Nat 8
  capture : Capture
  gate : Gate
  score : Nat
  warn : Bool
  clean : Bool
  decay : Nat
  deriving DecidableEq, Repr

/-- The state of the sense sequencer (R134). -/
inductive SenseState
  | idle | pending | busy
  deriving DecidableEq, Repr

/-- The class of a loop (R134). -/
inductive LoopClass
  | terminated | shorted | open
  deriving DecidableEq, Repr

/-- The sense sequencer (R134), with the branch being converted and those already converted in the pass
in progress (R136, R137). -/
structure Sense where
  state : SenseState
  codes : Vector Byte 4
  classes : Vector LoopClass 4
  checks : Vector Bool 4
  missed : Nat
  firstRun : Vector Bool 4
  period : Option Nat
  current : Option Branch
  converted : Vector Bool 4
  deriving DecidableEq, Repr

/-! ## Branch switches and the probe unit -/

/-- The state of a branch switch (R140). -/
inductive SwitchState
  | disabled | closing | inService | onTrial | draining | opening | isolated | probing | lockedOut
  deriving DecidableEq, Repr

/-- The destination of a sequence (R140). -/
inductive Destination
  | isolated | lockedOut | disabled
  deriving DecidableEq, Repr

/-- The positions a relay rests at (7.1). -/
inductive RelayRest
  | open | line | probe
  deriving DecidableEq, Repr

/-- The relay position (R141); a movement knows its target and its settle_ms. -/
inductive RelayPos
  | at (r : RelayRest)
  | moving (target : RelayRest) (ms : Nat)
  deriving DecidableEq, Repr

/-- The reason of the last isolation (R140). -/
inductive IsoReason
  | score | immediate | trialFailed | host | button | relayFault
  deriving DecidableEq, Repr

/-- The probe verdict since the isolation (R140, R149). -/
inductive Verdict
  | none | clear | echo
  deriving DecidableEq, Repr

/-- What a CLOSING serves (R143, R150). -/
inductive ClosingFor
  | enable | restore
  deriving DecidableEq, Repr

/-- The return state of a probe (R140). -/
inductive ReturnState
  | isolated | lockedOut
  deriving DecidableEq, Repr

/-- A branch switch (R140) with its outputs (R141, R142) and the level of its fault input. -/
structure Switch where
  state : SwitchState
  dest : Option Destination
  relay : RelayPos
  isolations : Nat
  reason : Option IsoReason
  restore : Option Nat
  check : Bool
  verdict : Verdict
  trial : Nat
  back : Option ReturnState
  enablePending : Bool
  closingFor : ClosingFor
  byHost : Bool
  rline : Bool
  rprobe : Bool
  lamp : Bool
  rflt : Bool
  deriving DecidableEq, Repr

/-- The state of the probe unit (R154). -/
inductive ProbeState
  | idle | arming | pulsing | releasing
  deriving DecidableEq, Repr

/-- The values taken for a probe (R154); lengths in metres. -/
structure ProbeValues where
  count : Nat
  blank : Nat
  zero : Nat
  k : Nat
  expected : Nat
  tolerance : Nat
  deriving DecidableEq, Repr

/-- An echo: its polarity and its tick (R155). -/
structure Echo where
  positive : Bool
  tick : Nat
  deriving DecidableEq, Repr

/-- The probe unit (R154): the branch served is the head of the queue; `window` is the list of the open
capture window. -/
structure ProbeUnit where
  state : ProbeState
  queue : List Branch
  values : ProbeValues
  lists : List (List Echo)
  window : Option (List Echo)
  lastTick : Option Nat
  overflow : Bool
  pulses : Nat
  ppulse : Bool
  deriving DecidableEq, Repr

/-- The classification of a probe result (R158). -/
inductive ProbeClass
  | noEcho | shortAt | openAt | endUnterminated | long
  deriving DecidableEq, Repr

/-- A probe result record (R158); each echo with its averaged tick and its distance. -/
structure ProbeRecord where
  valid : Bool
  cls : ProbeClass
  distance : Nat
  stable : Bool
  overflow : Bool
  byHost : Bool
  count : Nat
  round : Nat
  echoes : List (Echo × Nat)
  deriving DecidableEq, Repr

/-! ## Memory path -/

/-- The records the image writer writes (R170). -/
inductive ImgRecord
  | station (b : Branch) (n : StationNo)
  | job (j : JobNo)
  | capture (b : Branch)
  | probe (b : Branch)
  | fromTrunk (i : Fin 64)
  | toTrunk (i : Fin 32)
  | submit (i : Fin 16)
  | unit (u : Fin 256)
  | node (n : Fin 64)
  deriving DecidableEq, Repr

/-- A record write (R170): for a station whether it covers bytes 0-6 and bytes 7-15; for a ring slot or
a write-back the content of the latest request; the notices that follow it. -/
structure ImgWrite where
  record : ImgRecord
  low : Bool
  high : Bool
  content : List Byte
  notices : BitVec 16
  deriving DecidableEq, Repr

/-- A user of the ring and descriptor requester (R168): the router's reads of a ring mark, a walk's of a mark
and slot fields, the directory's of a watched entry. -/
inductive RingUser
  | router | toTrunk | submit
  | entry (r : ImgRecord)
  deriving DecidableEq, Repr

/-- Reads a user has asked of the ring and descriptor requester (R168): the next address, the bytes left and the
bytes read. A user makes its reads one after the other, in the order in which it asked for them. -/
structure RingRead where
  user : RingUser
  addr : Nat
  left : Nat
  got : List Byte
  deriving DecidableEq, Repr

/-- A write in progress: its next address and the bytes left. -/
structure ImgActive where
  write : ImgWrite
  addr : Nat
  left : List Byte
  deriving DecidableEq, Repr

/-- The image writer (R170). -/
structure ImageWriter where
  queue : List ImgWrite
  active : Option ImgActive
  deriving DecidableEq, Repr

/-- A host access that waits on /WAIT (R161, R171). -/
inductive HostAccess
  | read (a : Addr)
  | write (a : Addr) (v : Byte)
  deriving DecidableEq, Repr

/-- The kinds of snapshot (R172). -/
inductive SnapKind
  | station | job | branch
  deriving DecidableEq, Repr

/-- The snapshot window (R172): byte 30 of the content is its index, byte 31 its kind (10.9). -/
structure SnapWindow where
  held : Bool
  kind : SnapKind
  content : Vector Byte 32
  deriving DecidableEq, Repr

/-- The captured copies of the live words of two or three bytes (R164). -/
structure LiveCopies where
  summary : BitVec 16
  refusal : BitVec 16
  blocked : BitVec 24
  free : BitVec 16
  score : Vector (BitVec 16) 4
  branch : Vector (BitVec 16) 4
  deriving DecidableEq, Repr

/-! ## The whole machine -/

/-- The part: everything the SK4130 holds inside. `draws` is the model's own field: how many free values
(`Config.freeGarble`) have been drawn (log 34). -/
structure Part where
  held : Bool
  setup : Setup
  loader : Loader
  notices : NoticeUnit
  pool : Pool
  stations : Vector Station 256
  units : Vector UnitEntry 256
  nodes : Vector NodeEntry 64
  engines : Vector Engine 4
  paths : Vector (List PathOp) 4
  router : Router
  toTrunk : ToTrunkWalk
  submit : SubmitWalk
  copy : CopyEngine
  jobs : Vector Job 32
  queues : Vector (List JobNo) 3
  stamp : Nat
  moveJob : JobNo
  ports : Vector PrinterPort 3
  sups : Vector Supervisor 4
  sense : Sense
  switches : Vector Switch 4
  branchSel : Branch
  button : Bool
  probe : ProbeUnit
  records : Vector ProbeRecord 4
  writer : ImageWriter
  ring : List RingRead
  arbiter : Fin 11
  hostWait : Option HostAccess
  hostData : Byte
  live : LiveCopies
  lastBlocked : Addr
  snap : SnapWindow
  draws : Nat
  deriving DecidableEq, Repr

/-- The machine: the part, the buffer memory as (address, byte) pairs in canonical form, and the queue
of the commands that are waiting, first in, first out. -/
structure State where
  part : Part
  mem : List Host.Cell
  pending : List Instr
  deriving DecidableEq, Repr

/-- A step never stops with a fault: the spec gives the part no event on which it stops (a refusal or a
blocked write is reported through a notice, R165, R185, and the part goes on). The type has no
constructor, so nothing raises one; safe. -/
inductive Fault
  deriving DecidableEq, Repr

/-- Why a command has no meaning. -/
inductive Refusal
  /-- Raised by exec alone, for a command of the table that has no meaning yet, by its mnemonic; safe
  (the machine stops where the hardware goes on). No arm raises it: every command has its meaning. -/
  | notModelled (mnemonic : String)
  deriving DecidableEq, Repr

/-! ## Reset state (R190 and the rules it names) -/

/-- The reset content of a station record (R30). -/
def Station.blank : Station :=
  { state := .absent, assigned := none, miss := 0, garble := 0, txSeq := false, rxLast := false,
    rxValid := false, openJobs := 0, queued := 0, lastHeard := 0, framesIn := 0, framesOut := 0 }

/-- The reset content of a unit map entry (R47). -/
def UnitEntry.blank : UnitEntry := { kind := .unassigned, mask := 0xF }

/-- The reset content of a node list entry (R49). -/
def NodeEntry.blank : NodeEntry := { addr := Vector.replicate 6 0, valid := false }

/-- A reply of which nothing has been received; the check register starts at 0xFFFF (R4). -/
def Reply.blank : Reply :=
  { stage := .first, chars := [], unit := 0, ctl := 0, len := 0, got := 0, crc := 0xFFFF, checkHi := 0 }

/-- The reset state of an engine (R8), with its receive line at the given level. -/
def Engine.blank (level : Bool) : Engine :=
  { state := .stopped, pollList := [], cursor := none, sweepCursor := 0, round := 0,
    reservation := none, queue := [], pollSkipped := 0, relayDropped := 0, phase := .none,
    exch := none, roundPart := .visits, order := [], visiting := none, spoke := false, initNext := 0,
    sent := [], txRead := none, strayRun := none, arriving := none, rxLevel := level, listen := none }

/-- A FREE job record (R77). -/
def Job.blank : Job :=
  { state := .free, printer := 0, origin := .none, stamp := 0, chain := [], queuedBytes := 0,
    printed := 0, moved := false, hold := none, result := none, abortPending := false, freed := 0 }

/-- The default grant table: phase i holds the class i mod 5 (R111). -/
def defaultTable : Vector (Option (Fin 5)) 32 := Vector.ofFn fun i => some (Fin.ofNat 5 i.val)

/-- The reset state of a port (R99), with its filtered conditions as given. -/
def PrinterPort.blank (deselected paperOut fault : Bool) : PrinterPort :=
  { state := .disabled, job := none, handshake := none, abandoned := false, overdue := false, stall := none,
    redirect := none, redirected := false, table := defaultTable, pointer := 0, loadPending := false,
    stalled := false, fetched := none, loading := none, data := 0, strobe := false,
    deselected := deselected, paperOut := paperOut, fault := fault }

/-- An empty capture record (R124). -/
def Capture.blank : Capture :=
  { valid := false, kind := .miss, station := 0, stamp := 0, chars := [], detail := 0, further := 0 }

/-- A closed noise gate (R125). The counts and the list are set when it opens; R125 gives them no reset value, and 0, 0
and no character are the model's (DESIGN CHOICE, log 52). -/
def Gate.blank : Gate := { isOpen := false, edges := 0, chars := [], complete := 0 }

/-- The reset state of a supervisor (R120, R124, R125, R127). -/
def Supervisor.blank : Supervisor :=
  { kinds := Vector.replicate 8 0, capture := Capture.blank, gate := Gate.blank, score := 0,
    warn := false, clean := true, decay := 100 }

/-- The reset state of the sense sequencer (R134). -/
def Sense.blank : Sense :=
  { state := .idle, codes := Vector.replicate 4 0, classes := Vector.replicate 4 .terminated,
    checks := Vector.replicate 4 false, missed := 0, firstRun := Vector.replicate 4 false,
    period := none, current := none, converted := Vector.replicate 4 false }

/-- The reset state of a switch (R140, R142), with its fault input at the given level. -/
def Switch.blank (rflt : Bool) : Switch :=
  { state := .disabled, dest := none, relay := .at .open, isolations := 0, reason := none,
    restore := none, check := false, verdict := .none, trial := 0, back := none,
    enablePending := false, closingFor := .enable, byHost := false, rline := false, rprobe := false,
    lamp := false, rflt := rflt }

/-- The reset state of the probe unit (R154). -/
def ProbeUnit.blank : ProbeUnit :=
  { state := .idle, queue := [],
    values := { count := 0, blank := 0, zero := 0, k := 0, expected := 0, tolerance := 0 },
    lists := [], window := none, lastTick := none, overflow := false, pulses := 0, ppulse := false }

/-- A probe result record that is not valid, as every reset leaves it (R158, R187 item 8). Its other fields are 0
(DESIGN CHOICE, log 56). -/
def ProbeRecord.blank : ProbeRecord :=
  { valid := false, cls := .noEcho, distance := 0, stable := false, overflow := false, byHost := false,
    count := 0, round := 0, echoes := [] }

/-- The captured copies after a reset (R164, R175). -/
def LiveCopies.blank : LiveCopies :=
  { summary := 0, refusal := 0, blocked := 0, free := 0, score := Vector.replicate 4 0,
    branch := Vector.replicate 4 0 }

/-- Every block at its reset state (R190) with the start-up state INIT and `task` begun. The levels of
the input pins after power-on are a DESIGN CHOICE (log 4): receive lines at the mark level, no relay
fault, no printer condition, the button re-armed, /RESET high; the data bus at 0 (log 19). -/
def Part.initial (task : LoaderTask) : Part :=
  { held := false
    setup := Setup.default
    loader := { startState := .init, task := task }
    notices := { latches := 0, reason := none, code := 0 }
    pool := { free := List.finRange 256, hostHeld := [] }
    stations := Vector.replicate 256 Station.blank
    units := Vector.replicate 256 UnitEntry.blank
    nodes := Vector.replicate 64 NodeEntry.blank
    engines := Vector.replicate 4 (Engine.blank true)
    paths := Vector.replicate 4 []
    router := { producer := 0, unroutable := Vector.replicate 4 0, offers := [] }
    toTrunk := { state := .idle, index := 0, pending := false, asking := false, retryDue := false,
                 slot := [] }
    submit := { state := .idle, index := 0, pending := false, asking := false, retryDue := false,
                wait := .record, slot := [], job := none, pos := 0 }
    copy := { current := none, last := none, stopped := none }
    jobs := Vector.replicate 32 Job.blank
    queues := Vector.replicate 3 []
    stamp := 0
    moveJob := 0
    ports := Vector.replicate 3 (PrinterPort.blank false false false)
    sups := Vector.replicate 4 Supervisor.blank
    sense := Sense.blank
    switches := Vector.replicate 4 (Switch.blank false)
    branchSel := 0
    button := true
    probe := ProbeUnit.blank
    records := Vector.replicate 4 ProbeRecord.blank
    writer := { queue := [], active := none }
    ring := []
    arbiter := 0
    hostWait := none
    hostData := 0
    live := LiveCopies.blank
    lastBlocked := 0
    snap := { held := false, kind := .station, content := Vector.replicate 32 0 }
    draws := 0 }

/-- The machine right after a power-on reset (R190): every block at its reset state, INIT begun with no
byte of R187 written yet, nothing in memory, no command waiting. -/
def State.reset : State :=
  { part := Part.initial (.initialise false 0 []), mem := [], pending := [] }

end Sys2Proof.Machine
end

