-- ==== Sys2Proof/Machine/Ops.lean ====
section
/-! DEFINITION. The named operations over the buffer memory and over the tables of the part: memory
reads and writes in canonical form, one accessor and one update per table, and the shapes of a meaning. -/

namespace Sys2Proof.Machine

/-! ## Buffer memory -/

/-- The byte memory holds at an address. -/
def Mem.read : List Host.Cell → Nat → Byte
  | [], _ => Config.unlistedByte
  | (k, v) :: r, a => if k = a then v else Mem.read r a

/-- Write a byte, keeping the canonical form: addresses strictly rising, no entry equal to what an
unlisted address reads as. -/
def Mem.write : List Host.Cell → Nat → Byte → List Host.Cell
  | [], a, v => if v = Config.unlistedByte then [] else [(a, v)]
  | (k, w) :: r, a, v =>
    if a < k then (if v = Config.unlistedByte then (k, w) :: r else (a, v) :: (k, w) :: r)
    else if a = k then (if v = Config.unlistedByte then r else (a, v) :: r)
    else (k, w) :: Mem.write r a v

/-- The canonical form, with every address above `lo`. -/
def Mem.wfAbove : Nat → List Host.Cell → Bool
  | _, [] => true
  | lo, (k, v) :: r => decide (lo ≤ k) && decide (v ≠ Config.unlistedByte) && Mem.wfAbove (k + 1) r

/-- The canonical form of the buffer memory: addresses strictly rising and no entry equal to what an
unlisted address reads as. -/
def Mem.wf (m : List Host.Cell) : Bool := Mem.wfAbove 0 m

/-- `n` bytes from an address, in address order. -/
def Mem.readList (m : List Host.Cell) (a : Nat) : Nat → List Byte
  | 0 => []
  | n + 1 => Mem.read m a :: Mem.readList m (a + 1) n

/-! ## Tables of the part -/

/-- The index of station b/n among the 256 records (R28). -/
def stationIx (b : Branch) (n : StationNo) : Fin 256 := ⟨64 * b.val + n.val, by omega⟩

namespace Part

def engine (p : Part) (b : Branch) : Engine := p.engines.get b
def switch (p : Part) (b : Branch) : Switch := p.switches.get b
def sup (p : Part) (b : Branch) : Supervisor := p.sups.get b
def port (p : Part) (k : Port) : PrinterPort := p.ports.get k
def job (p : Part) (j : JobNo) : Job := p.jobs.get j
def queue (p : Part) (k : Port) : List JobNo := p.queues.get k
def path (p : Part) (b : Branch) : List PathOp := p.paths.get b
def station (p : Part) (b : Branch) (n : StationNo) : Station := p.stations.get (stationIx b n)
def branchSetup (p : Part) (b : Branch) : BranchSetup := p.setup.branch.get b
def printerSetup (p : Part) (k : Port) : PrinterSetup := p.setup.printer.get k

def modEngine (b : Branch) (f : Engine → Engine) (p : Part) : Part :=
  { p with engines := put p.engines b (f (p.engine b)) }
def modSwitch (b : Branch) (f : Switch → Switch) (p : Part) : Part :=
  { p with switches := put p.switches b (f (p.switch b)) }
def modSup (b : Branch) (f : Supervisor → Supervisor) (p : Part) : Part :=
  { p with sups := put p.sups b (f (p.sup b)) }
def modPort (k : Port) (f : PrinterPort → PrinterPort) (p : Part) : Part :=
  { p with ports := put p.ports k (f (p.port k)) }
def modJob (j : JobNo) (f : Job → Job) (p : Part) : Part :=
  { p with jobs := put p.jobs j (f (p.job j)) }
def modQueue (k : Port) (f : List JobNo → List JobNo) (p : Part) : Part :=
  { p with queues := put p.queues k (f (p.queue k)) }
def modPath (b : Branch) (f : List PathOp → List PathOp) (p : Part) : Part :=
  { p with paths := put p.paths b (f (p.path b)) }
def modStation (b : Branch) (n : StationNo) (f : Station → Station) (p : Part) : Part :=
  { p with stations := put p.stations (stationIx b n) (f (p.station b n)) }
def modPool (f : Pool → Pool) (p : Part) : Part := { p with pool := f p.pool }
def modNotices (f : NoticeUnit → NoticeUnit) (p : Part) : Part := { p with notices := f p.notices }
def modLoader (f : Loader → Loader) (p : Part) : Part := { p with loader := f p.loader }
def modToTrunk (f : ToTrunkWalk → ToTrunkWalk) (p : Part) : Part := { p with toTrunk := f p.toTrunk }
def modSubmit (f : SubmitWalk → SubmitWalk) (p : Part) : Part := { p with submit := f p.submit }
def modCopy (f : CopyEngine → CopyEngine) (p : Part) : Part := { p with copy := f p.copy }
def modSense (f : Sense → Sense) (p : Part) : Part := { p with sense := f p.sense }
def modProbe (f : ProbeUnit → ProbeUnit) (p : Part) : Part := { p with probe := f p.probe }
def modWriter (f : ImageWriter → ImageWriter) (p : Part) : Part := { p with writer := f p.writer }
def modRing (f : List RingRead → List RingRead) (p : Part) : Part := { p with ring := f p.ring }
def modRouter (f : Router → Router) (p : Part) : Part := { p with router := f p.router }
def modLive (f : LiveCopies → LiveCopies) (p : Part) : Part := { p with live := f p.live }
def modSnap (f : SnapWindow → SnapWindow) (p : Part) : Part := { p with snap := f p.snap }

/-- A user asks the ring and descriptor requester for `n` bytes from an address, each of which takes a memory cycle
(R168). -/
def askReads (u : RingUser) (a n : Nat) : Part → Part :=
  modRing fun l => l ++ [{ user := u, addr := a, left := n, got := [] }]

/-- Reads this user asked for are still to be granted (R168). -/
def readsAsked (p : Part) (u : RingUser) : Bool := p.ring.any fun r => r.user = u

/-- The part's own events happen only while /RESET does not hold it (R186). -/
def awake (f : Part → Part) (p : Part) : Part := if p.held then p else f p

end Part

/-! ## Shapes of a meaning

Every meaning answers a next state; it never touches the queue of waiting commands. -/

/-- A meaning that acts on the part alone. -/
def onPart (f : Part → Part) (s : State) : Host.Outcome State Fault Refusal :=
  .next { s with part := f s.part }

/-- A meaning that acts on the part and the buffer memory. -/
def onBoth (f : Part × List Host.Cell → Part × List Host.Cell) (s : State) :
    Host.Outcome State Fault Refusal :=
  .next { s with part := (f (s.part, s.mem)).1, mem := (f (s.part, s.mem)).2 }

/-- Apply `f` for each item of a list in order. -/
def each {α : Type} (l : List α) (f : α → Part → Part) (p : Part) : Part :=
  l.foldl (fun q x => f x q) p

/-- The four branches in increasing order. -/
def branches : List Branch := [0, 1, 2, 3]

/-- The three ports in increasing order. -/
def printerPorts : List Port := [0, 1, 2]

/-- The station numbers 1-62 in increasing order; 0 and 63 are no stations (spec/00_scope.md). -/
def stationNumbers : List StationNo := (List.finRange 64).filter fun n => n != 0 && n != 63

end Sys2Proof.Machine
end

