-- ==== Sys2Proof/Machine/Flags.lean ====
section
/-! DEFINITION. The notice latches, LAST_REFUSAL and /ATTN (R182 to R185). -/

namespace Sys2Proof.Machine

/-- The number of a notice (9.3). -/
def Notice.number : Notice → Nat
  | .relayFault => 0
  | .isolated => 1
  | .restored => 2
  | .capture => 3
  | .warn => 4
  | .probeDone => 5
  | .station => 6
  | .printer => 7
  | .jobDone => 8
  | .fromTrunk => 9
  | .toTrunkDone => 10
  | .submitDone => 11
  | .poolLow => 12
  | .refused => 13
  | .button => 14
  | .readyDone => 15

/-- The latch of a notice (R182). -/
def Notice.bit (n : Notice) : BitVec 16 := BitVec.twoPow 16 n.number

/-- The code of a refusal reason (10.4). -/
def Reason.code : Reason → Nat
  | .busy => 1
  | .badState => 2
  | .badArgument => 3
  | .notOwned => 4
  | .dupAddress => 5
  | .queueFull => 6
  | .blockedWrite => 7
  | .init => 8

/-- The reason code LAST_REFUSAL reads (10.4): none 0. -/
def reasonCode : Option Reason → Nat
  | none => 0
  | some r => r.code

namespace Part

/-- Turn on a set of latches (R182). -/
def setNotices (bits : BitVec 16) : Part → Part :=
  modNotices fun n => { n with latches := n.latches ||| bits }

/-- A cause sets its latch (R182); /ATTN follows from the latches. -/
def notify (n : Notice) : Part → Part := setNotices n.bit

/-- Record a refusal: REFUSED is set, LAST_REFUSAL takes the reason and the code (R185). -/
def refuse (r : Reason) (code : Byte) (p : Part) : Part :=
  modNotices (fun n => { n with reason := some r, code := code }) (notify .refused p)

/-- The latches that are on and enabled. -/
def enabledLatches (p : Part) : BitVec 16 := p.notices.latches &&& p.setup.noticeEnable

/-- /ATTN is asserted while an enabled latch is on (R182). -/
def attn (p : Part) : Bool := p.enabledLatches != 0

/-- TOP_CAUSE: the lowest-numbered latch on and enabled, or 0xFF (R184). -/
def topCause (p : Part) : Byte :=
  match (List.range 16).find? (fun i => p.enabledLatches.getLsbD i) with
  | some i => BitVec.ofNat 8 i
  | none => 0xFF

end Part

end Sys2Proof.Machine
end

