-- ==== Sys2Proof/Machine/Layout.lean ====
section
/-! DEFINITION. The byte layouts of 10.4 to 10.9 and their codes: what the part writes. -/

namespace Sys2Proof.Machine

/-! ## Codes -/

/-- 10.6, byte 9 of a station image. -/
def StationState.code : StationState → Nat
  | .absent => 0
  | .present => 1
  | .conflict => 2
  | .barred => 3

/-- 10.4, switch state. -/
def SwitchState.code : SwitchState → Nat
  | .disabled => 0
  | .closing => 1
  | .inService => 2
  | .onTrial => 3
  | .draining => 4
  | .opening => 5
  | .isolated => 6
  | .probing => 7
  | .lockedOut => 8

/-- 10.4, relay position. -/
def RelayPos.code : RelayPos → Nat
  | .at .open => 0
  | .at .line => 1
  | .at .probe => 2
  | .moving _ _ => 3

/-- 10.4, last reason. -/
def isoReasonCode : Option IsoReason → Nat
  | none => 0
  | some .score => 1
  | some .immediate => 2
  | some .trialFailed => 3
  | some .host => 4
  | some .button => 5
  | some .relayFault => 6

/-- 10.4, probe verdict. -/
def Verdict.code : Verdict → Nat
  | .none => 0
  | .clear => 1
  | .echo => 2

/-- 10.4, port state. -/
def PortState.code : PortState → Nat
  | .disabled => 0
  | .idle => 1
  | .busy => 2
  | .stalled => 3
  | .paperOut => 4
  | .offline => 5
  | .fault => 6

/-- 10.4, loop class. -/
def LoopClass.code : LoopClass → Nat
  | .terminated => 0
  | .shorted => 1
  | .open => 2

/-- 10.4, SENSE_STATE. -/
def SenseState.code : SenseState → Nat
  | .idle => 0
  | .pending => 1
  | .busy => 2

/-- 10.4, START_STATE. -/
def StartState.code : StartState → Nat
  | .init => 0
  | .ready => 1
  | .running => 2

/-- 10.9, engine state. -/
def EngineState.code : EngineState → Nat
  | .stopped => 0
  | .initialSweep => 1
  | .rounds => 2
  | .stopping => 3

/-- 10.4, SNAP_KIND. -/
def SnapKind.code : SnapKind → Nat
  | .station => 0
  | .job => 1
  | .branch => 2

/-- 10.7, job state. -/
def JobState.code : JobState → Nat
  | .free => 0
  | .assembling => 1
  | .waiting => 2
  | .printing => 3
  | .held => 4
  | .done => 5
  | .aborted => 6

/-- 10.7, hold reason. -/
def holdCode : Option HoldReason → Nat
  | none => 0
  | some .stalled => 1
  | some .paperOut => 2
  | some .offline => 3
  | some .fault => 4

/-- 10.7, result. -/
def jobResultCode : Option JobResult → Nat
  | none => 0
  | some .complete => 1
  | some .incomplete => 2
  | some .sourceLost => 3
  | some .tooLarge => 4
  | some .barred => 5
  | some .abortedByRequest => 6
  | some .printerGone => 7

/-- The number of an error kind (R118). -/
def ErrorKind.number : ErrorKind → Fin 8
  | .miss => 0
  | .check => 1
  | .framing => 2
  | .wrongStation => 3
  | .stray => 4
  | .noise => 5
  | .loopChange => 6
  | .relayFault => 7

/-- 10.7, classification. -/
def ProbeClass.code : ProbeClass → Nat
  | .noEcho => 0
  | .shortAt => 1
  | .openAt => 2
  | .endUnterminated => 3
  | .long => 4

/-! ## Station image (10.6) -/

/-- Bytes 0-6: the address in force (six zero bytes when absent) and the control byte, with the bar flag
1 exactly while BARRED and the action 0 (R44). -/
def stationLow (st : Station) : List Byte :=
  (st.assigned.getD (Vector.replicate 6 0)).toList ++
    [BitVec.ofNat 8 (flagBit st.assigned.isSome 0 + flagBit (decide (st.state = .barred)) 1)]

/-- Bytes 7-15: the part's fields. -/
def stationHigh (st : Station) : List Byte :=
  [BitVec.ofNat 8 (st.openJobs + flagBit st.txSeq 4 + flagBit st.rxLast 5 + flagBit st.rxValid 6),
    BitVec.ofNat 8 (st.miss + 16 * st.garble),
    BitVec.ofNat 8 (st.queued + 64 * st.state.code)]
  ++ le16 st.lastHeard ++ le16 st.framesIn ++ le16 st.framesOut

/-- The address of the image of station b/n (R31). -/
def stationAddr (b : Branch) (n : StationNo) : Nat := Config.stationBase + (64 * b.val + n.val) * 16

/-! ## Unit map and node list entries (10.6) -/

/-- Bytes 0-2 of a unit map entry: kind and argument. -/
def unitKindBytes : UnitKind → List Byte
  | .unassigned => [0, 0, 0]
  | .node i => [1, BitVec.ofNat 8 i.val, 0]
  | .printer k => [2, BitVec.ofNat 8 k.val, 0]
  | .station b n => [3, BitVec.ofNat 8 n.val, BitVec.ofNat 8 b.val]
  | .localUnit => [4, 0, 0]

/-- The four bytes of a unit map entry, unused bytes and bits zero (R48). -/
def unitImage (u : UnitEntry) : List Byte := unitKindBytes u.kind ++ [BitVec.ofNat 8 u.mask.toNat]

/-- The eight bytes of a node list entry, unused bits zero (R49). -/
def nodeImage (n : NodeEntry) : List Byte :=
  n.addr.toList ++ [BitVec.ofNat 8 (flagBit n.valid 0), 0]

/-! ## Job, capture and probe images (10.7) -/

/-- Origin kind, branch, station and host tag of a job. -/
def originFields : JobOrigin → Nat × Nat × Nat × Nat
  | .none => (0, 0, 0, 0)
  | .trunk b n => (1, b.val, n.val, 0)
  | .submitted tag => (2, 0, 0, tag)

/-- Bytes 0-17 of a job image (R78). -/
def jobFields (j : JobNo) (x : Job) : List Byte :=
  let (kind, b, n, tag) := originFields x.origin
  [BitVec.ofNat 8 x.state.code, BitVec.ofNat 8 x.printer.val,
    BitVec.ofNat 8 (kind + flagBit x.moved 7), BitVec.ofNat 8 b, BitVec.ofNat 8 n]
  ++ le16 tag ++ le16 x.stamp
  ++ [BitVec.ofNat 8 ((x.chain.head?.map fun e => e.buf.val).getD 0), BitVec.ofNat 8 x.chain.length]
  ++ le16 x.queuedBytes ++ le16 x.printed
  ++ [BitVec.ofNat 8 (holdCode x.hold), BitVec.ofNat 8 (jobResultCode x.result),
    BitVec.ofNat 8 j.val]

/-- The 32 bytes of a job image (R78). -/
def jobImage (j : JobNo) (x : Job) : List Byte := jobFields j x ++ zeros 14

/-- A list of characters as a capture image holds it: the data byte, then the mark bit. -/
def charBytes (l : List (Byte × Bool)) : List Byte :=
  l.flatMap fun c => [c.1, BitVec.ofNat 8 (flagBit c.2 0)]

/-- The 32 bytes of a capture image (R123); a record that is not valid shows every field 0. -/
def captureImage (c : Capture) : List Byte :=
  [BitVec.ofNat 8 (flagBit c.valid 0), BitVec.ofNat 8 c.kind.number.val, BitVec.ofNat 8 c.station.val]
  ++ le16 c.stamp
  ++ [BitVec.ofNat 8 c.chars.length, BitVec.ofNat 8 c.detail, BitVec.ofNat 8 c.further]
  ++ ((charBytes c.chars) ++ zeros 16).take 16 ++ zeros 8

/-- The five bytes of an echo of a probe result record. -/
def echoBytes (e : Echo × Nat) : List Byte :=
  le16 (e.1.tick % 4096 + flagBit e.1.positive 15) ++ le24 e.2

/-- The 32 bytes of a probe result record (R158). -/
def probeImage (r : ProbeRecord) : List Byte :=
  [BitVec.ofNat 8 (flagBit r.valid 0 + flagBit r.stable 1 + flagBit r.overflow 2 + flagBit r.byHost 3),
    BitVec.ofNat 8 r.cls.code]
  ++ le24 r.distance
  ++ [BitVec.ofNat 8 r.echoes.length, BitVec.ofNat 8 r.count] ++ le16 r.round ++ zeros 3
  ++ ((r.echoes.flatMap echoBytes) ++ zeros 20).take 20

/-! ## Setup block image (10.5) -/

/-- The 96 bytes of a branch's fields, spare bytes 0. -/
def branchSetupBytes (s : BranchSetup) : List Byte :=
  [byteOf s.replyWindow 0, byteOf s.gapLimit 0, byteOf s.missLimit 0, byteOf s.conflictLimit 0,
    byteOf s.sweepInterval 0, byteOf s.holdLimit 0, byteOf s.listenMs 0, byteOf s.noiseLimit 0,
    byteOf s.deglitch 0, s.immediateMask, s.captureMask, BitVec.ofNat 8 (flagBit s.autoProbe 0)]
  ++ s.weights.toList.map (fun w => byteOf w 0)
  ++ le16 s.ti ++ le16 s.tw ++ le16 s.tc
  ++ [byteOf s.d 0, byteOf s.decayPeriod 0, byteOf s.c 0, byteOf s.settleMs 0,
    byteOf s.restoreDelay 0, byteOf s.restoreLimit 0, byteOf s.trialRounds 0, byteOf s.probeCount 0,
    byteOf s.blankTicks 0, byteOf s.zeroOffset 0]
  ++ le16 s.k ++ le16 s.expectedLength ++ [byteOf s.tolerance 0] ++ zeros 55

/-- The 8 bytes of a printer's fields, spare bytes 0. -/
def printerSetupBytes (s : PrinterSetup) : List Byte :=
  [BitVec.ofNat 8 (flagBit s.enable 0), byteOf s.stallS 0, byteOf s.redirectS 0, byteOf s.alternate 0]
  ++ zeros 4

/-- The 512 bytes of the setup block (10.5), every byte and bit that holds no field 0 (R191). -/
def setupImage (s : Setup) : List Byte :=
  [BitVec.ofNat 8 s.branchEnable.toNat] ++ s.derivedPrefix.toList
  ++ [byteOf s.reserve 0, byteOf s.jobBufferLimit 0, byteOf s.stationJobLimit 0, byteOf s.sensePeriod 0,
    byteOf s.shortLimit 0, byteOf s.openLimit 0]
  ++ le16 s.noticeEnable.toNat ++ zeros 19
  ++ s.branch.toList.flatMap branchSetupBytes
  ++ s.printer.toList.flatMap printerSetupBytes ++ zeros 72

/-! ## Line characters (10.2) -/

/-- The kinds of a control character (R2). -/
inductive CtlKind
  | poll | send | answer | status
  deriving DecidableEq, Repr

/-- The kind of a control character, from its data bits 7-6 (R2). -/
def ctlKindOf (v : Byte) : CtlKind :=
  match v.toNat / 64 with
  | 0 => .poll
  | 1 => .send
  | 2 => .answer
  | _ => .status

/-- The kind bits of a control character (R2). -/
def CtlKind.bits : CtlKind → Nat
  | .poll => 0
  | .send => 1
  | .answer => 2
  | .status => 3

/-- The control character of a kind for number `n`, with its mark bit (R2). -/
def ctlChar (k : CtlKind) (n : StationNo) : Byte × Bool := (BitVec.ofNat 8 (64 * k.bits + n.val), true)

/-- A data character, with its mark bit clear (10.2). -/
def dataChar (v : Byte) : Byte × Bool := (v, false)

/-- The ctl byte: bit 0 sequence, bit 1 FIRST, bit 2 LAST (10.2). -/
def ctlByte (seq first last : Bool) : Byte :=
  BitVec.ofNat 8 (flagBit seq 0 + flagBit first 1 + flagBit last 2)

/-- The bits of a character in the order in which they pass on the line (R1): start bit 0, eight data bits least
significant first, mark bit, stop bit. -/
def charBits (c : LineChar) : List Bool :=
  [false] ++ ((List.finRange 8).map fun i => c.data[i]) ++ [c.mark, c.stop]

/-- The character that a good start bit and the ten bits after it make (R1). -/
def charOfBits (l : List Bool) : Option LineChar :=
  match l with
  | [false, b0, b1, b2, b3, b4, b5, b6, b7, mark, stop] =>
    some { data := BitVec.ofBoolListLE [b0, b1, b2, b3, b4, b5, b6, b7], mark := mark, stop := stop }
  | _ => none

/-- The bits of a transmission on TXDn: its characters back to back, each with its stop bit 1 (R1). -/
def lineBits (sent : List (Byte × Bool)) : List Bool :=
  sent.flatMap fun c => charBits { data := c.1, mark := c.2, stop := true }

/-! ## Ring slots (10.8): the part's codes -/

/-- The result code of a to-trunk slot for a completion (R73, 10.8). -/
def TxCode.slotResult : TxCode → Nat
  | .delivered => 1
  | .broadcastSent => 2
  | .refused => 3
  | .noStation => 4
  | .barred => 5
  | .conflict => 6
  | .isolated => 7

/-- The results the to-trunk walk itself writes (R69, R73). -/
inductive WalkResult
  | tooLong | badAddress | noRoute | isolated | noStation | barred | conflict
  deriving DecidableEq, Repr

/-- 10.8, to-trunk result. -/
def WalkResult.code : WalkResult → Nat
  | .noStation => 4
  | .barred => 5
  | .conflict => 6
  | .isolated => 7
  | .noRoute => 8
  | .tooLong => 9
  | .badAddress => 10

/-- The results of a submission slot (R91). -/
inductive SubmitResult
  | accepted | printerOff | badJob | tooLarge | tooLong | badAddress | jobAborted
  deriving DecidableEq, Repr

/-- 10.8, submission result. -/
def SubmitResult.code : SubmitResult → Nat
  | .accepted => 1
  | .printerOff => 2
  | .badJob => 3
  | .tooLarge => 4
  | .tooLong => 5
  | .badAddress => 6
  | .jobAborted => 7

/-- A whole write of a to-trunk slot: the copied fields with the mark, the target and the result, and 0
in the bytes and bits that hold no field (R193). -/
def toTrunkSlotBytes (copy : List Byte) (mark : Nat) (branch station : Byte) (result : Nat) : List Byte :=
  [BitVec.ofNat 8 mark, byteAt copy 1, branch, station] ++ (addrAt copy 4).toList
  ++ [byteAt copy 10, byteAt copy 11 &&& 0x06, byteAt copy 12, byteAt copy 13, byteAt copy 14,
    byteAt copy 15, byteAt copy 16, BitVec.ofNat 8 result] ++ zeros 14

/-- A whole write of a submission slot: the copied fields with the mark, the job number and the result
(R193). -/
def submitSlotBytes (copy : List Byte) (mark : Nat) (jobNo : Byte) (result : Nat) : List Byte :=
  [BitVec.ofNat 8 mark, byteAt copy 1, byteAt copy 2 &&& 0x06, jobNo, byteAt copy 4, byteAt copy 5,
    byteAt copy 6, byteAt copy 7, byteAt copy 8, byteAt copy 9, byteAt copy 10,
    BitVec.ofNat 8 result] ++ zeros 4

/-- A whole write of a from-trunk slot, marked FULL (R63). -/
def fromTrunkSlotBytes (localKind : Bool) (b : Branch) (n : StationNo) (src dst : NodeAddr)
    (unit ctl len : Byte) (buf : BufNo) : List Byte :=
  [1, BitVec.ofNat 8 (flagBit localKind 0), BitVec.ofNat 8 b.val, BitVec.ofNat 8 n.val]
  ++ src.toList ++ dst.toList ++ [unit, ctl, len, BitVec.ofNat 8 buf.val] ++ zeros 12

end Sys2Proof.Machine
end

