-- ==== Sys2Proof/Machine/Operands.lean ====
section
/-! DEFINITION. How the part reads what the host wrote: setup fields and their clamping (R178, R133,
R191), table entries (R48, R49, R110), ring slots (R67, R87, R192) and the control byte of an edit. -/

namespace Sys2Proof.Machine

/-! ## Setup block (R178) -/

/-- An address begins with a prefix (R42, R45). -/
def hasPrefix (pre : Vector Byte 4) (a : NodeAddr) : Bool := a.toList.take 4 == pre.toList

/-- The fields of a branch, from the 96 bytes of its group, each brought into its range; the thresholds
in the order TI, TW, TC, each against the value the one before was given (R133, R178). The RELAY_FAULT
bit of the immediate mask is taken as set (R121). -/
def readBranchSetup (l : List Byte) : BranchSetup :=
  let ti := clamp 2 1023 (numAt l 0x14 2)
  let tw := clamp 1 (ti - 1) (numAt l 0x16 2)
  let tc := clamp 0 (tw - 1) (numAt l 0x18 2)
  { replyWindow := clamp 2 64 (numAt l 0x00 1)
    gapLimit := clamp 1 8 (numAt l 0x01 1)
    missLimit := clamp 1 15 (numAt l 0x02 1)
    conflictLimit := clamp 1 15 (numAt l 0x03 1)
    sweepInterval := clamp 1 255 (numAt l 0x04 1)
    holdLimit := clamp 1 255 (numAt l 0x05 1)
    listenMs := clamp 0 16 (numAt l 0x06 1)
    noiseLimit := numAt l 0x07 1
    deglitch := clamp 0 2 (numAt l 0x08 1)
    immediateMask := byteAt l 0x09 ||| 0x80
    captureMask := byteAt l 0x0A
    autoProbe := decide (numAt l 0x0B 1 ≠ 0)
    weights := Vector.ofFn fun k => numAt l (0x0C + k.val) 1
    ti := ti
    tw := tw
    tc := tc
    d := numAt l 0x1A 1
    decayPeriod := clamp 1 255 (numAt l 0x1B 1)
    c := clamp 0 15 (numAt l 0x1C 1)
    settleMs := clamp 5 255 (numAt l 0x1D 1)
    restoreDelay := numAt l 0x1E 1
    restoreLimit := clamp 1 7 (numAt l 0x1F 1)
    trialRounds := clamp 1 255 (numAt l 0x20 1)
    probeCount := clamp 1 8 (numAt l 0x21 1)
    blankTicks := numAt l 0x22 1
    zeroOffset := numAt l 0x23 1
    k := clamp 1 2047 (numAt l 0x24 2)
    expectedLength := clamp 1 2000 (numAt l 0x26 2)
    tolerance := clamp 1 255 (numAt l 0x28 1) }

/-- The fields of a printer, from the 8 bytes of its group (R178). -/
def readPrinterSetup (l : List Byte) : PrinterSetup :=
  { enable := decide (numAt l 0 1 ≠ 0)
    stallS := clamp 1 255 (numAt l 1 1)
    redirectS := numAt l 2 1
    alternate := clamp 0 3 (numAt l 3 1) }

/-- The derived prefix that will be in force (R46): a new prefix is held at the old value if any
assigned address begins with it; an unchanged one compares nothing. -/
def acceptPrefix (old new : Vector Byte 4) (assigned : List NodeAddr) : Vector Byte 4 :=
  if new = old then old else if assigned.any (hasPrefix new) then old else new

/-- The clamped values of a setup block of 512 bytes (R178), with the derived prefix treated by R46. -/
def readSetup (old : Vector Byte 4) (assigned : List NodeAddr) (l : List Byte) : Setup :=
  let short := clamp 0 254 (numAt l 0x09 1)
  { branchEnable := (byteAt l 0x00).truncate 4
    derivedPrefix := acceptPrefix old (Vector.ofFn fun k => byteAt l (1 + k.val)) assigned
    reserve := clamp 0 128 (numAt l 0x05 1)
    jobBufferLimit := clamp 1 128 (numAt l 0x06 1)
    stationJobLimit := clamp 1 8 (numAt l 0x07 1)
    sensePeriod := numAt l 0x08 1
    shortLimit := short
    openLimit := clamp (short + 1) 255 (numAt l 0x0A 1)
    noticeEnable := BitVec.ofNat 16 (numAt l 0x0B 2)
    branch := Vector.ofFn fun b => readBranchSetup ((l.drop (0x20 + 0x60 * b.val)).take 0x60)
    printer := Vector.ofFn fun k => readPrinterSetup ((l.drop (0x1A0 + 8 * k.val)).take 8) }

/-! ## Table entries -/

/-- A unit map entry of four bytes, if it passes the checks of R48. -/
def readUnit (l : List Byte) : Option UnitEntry :=
  let mask : BitVec 4 := (byteAt l 3).truncate 4
  let a := (byteAt l 1).toNat
  let b := (byteAt l 2).toNat
  match (byteAt l 0).toNat with
  | 0 => some { kind := .unassigned, mask := mask }
  | 1 => if h : a < 64 then some { kind := .node ⟨a, h⟩, mask := mask } else none
  | 2 => if h : a < 3 then some { kind := .printer ⟨a, h⟩, mask := mask } else none
  | 3 =>
    if h : b < 4 ∧ a < 64 then
      if a = 0 then none else some { kind := .station ⟨b, h.1⟩ ⟨a, h.2⟩, mask := mask }
    else none
  | 4 => some { kind := .localUnit, mask := mask }
  | _ => none

/-- The entry a reload takes (R50): one that fails the checks becomes UNASSIGNED with its branch mask as
written. -/
def reloadUnit (l : List Byte) : UnitEntry :=
  (readUnit l).getD { kind := .unassigned, mask := (byteAt l 3).truncate 4 }

/-- A node list entry (R49): the address and the valid flag in bit 0 of byte 6; no check can fail. -/
def readNode (l : List Byte) : NodeEntry := { addr := addrAt l 0, valid := bitAt (byteAt l 6) 0 }

/-- A grant table byte (R110): 0-4 load as that class, every other value, 0x0F among them, as empty. -/
def readClass (v : Byte) : Option (Fin 5) := if h : v.toNat < 5 then some ⟨v.toNat, h⟩ else none

/-- A grant table image of 32 bytes (R110, R115). -/
def readTable (l : List Byte) : Vector (Option (Fin 5)) 32 :=
  Vector.ofFn fun i => readClass (byteAt l i.val)

/-! ## Ring slots -/

/-- The host area, from which descriptors may take data: 0x03000-0x0FFFF. A length of 0 passes whatever
the address (R69, R89). -/
def inHostArea (addr len : Nat) : Bool :=
  len == 0 || (decide (Config.hostAreaBase ≤ addr) && decide (addr + len ≤ Config.poolBase))

/-- The length of a to-trunk slot (10.8). -/
def ttLength (l : List Byte) : Nat := numAt l 12 2

/-- The data address of a to-trunk slot (10.8). -/
def ttData (l : List Byte) : Nat := numAt l 14 3

/-- FIRST of a flag byte of a ring slot (10.8). -/
def flagFirst (v : Byte) : Bool := bitAt v 1

/-- LAST of a flag byte of a ring slot (10.8). -/
def flagLast (v : Byte) : Bool := bitAt v 2

/-- The target a BY_STATION slot names: branch 0-3 and station 1-63 (R69, R192). -/
def ttByStation (l : List Byte) : Option (Branch × StationNo) :=
  if h : (byteAt l 2).toNat < 4 ∧ (byteAt l 3).toNat < 64 then
    if (byteAt l 3).toNat = 0 then none else some (⟨_, h.1⟩, ⟨_, h.2⟩)
  else none

/-- The printer of a FIRST submission slot, if it names one (R89, R192). -/
def subPrinter (l : List Byte) : Option Port :=
  if h : (byteAt l 1).toNat < 3 then some ⟨_, h⟩ else none

/-- The job a submission slot names, if it is 0-31 (R192). -/
def subJob (l : List Byte) : Option JobNo :=
  if h : (byteAt l 3).toNat < 32 then some ⟨_, h⟩ else none

/-- The host tag of a submission slot (10.8). -/
def subTag (l : List Byte) : Nat := numAt l 4 2

/-- The data address of a submission slot (10.8). -/
def subData (l : List Byte) : Nat := numAt l 6 3

/-- The length of a submission slot (10.8). -/
def subLength (l : List Byte) : Nat := numAt l 9 2

/-- FIRST of a submission slot. -/
def subFirst (l : List Byte) : Bool := flagFirst (byteAt l 2)

/-- LAST of a submission slot. -/
def subLast (l : List Byte) : Bool := flagLast (byteAt l 2)

end Sys2Proof.Machine
end

