-- ==== Sys2Proof/Machine/Writer.lean ====
section
/-! DEFINITION. The image writer's queue of record writes (R170): what a request does, where a record
lies and what a write holds when it begins. -/

namespace Sys2Proof.Machine

/-- A request merged into a queued write of the same record (R170): it covers the bytes of both, its
content is the latest request's, and it carries the notices of both. -/
def ImgWrite.merge (old new : ImgWrite) : ImgWrite :=
  { old with low := old.low || new.low, high := old.high || new.high, content := new.content,
             notices := old.notices ||| new.notices }

/-- Join the tail, or merge into the queued write of the same record, which keeps its place (R170). -/
def enqueueWrite (w : ImgWrite) : List ImgWrite → List ImgWrite
  | [] => [w]
  | x :: r => if x.record = w.record then x.merge w :: r else x :: enqueueWrite w r

namespace Part

/-- Ask the image writer for a record write (R170). A write in progress is not merged into. -/
def requestWrite (w : ImgWrite) : Part → Part :=
  modWriter fun q => { q with queue := enqueueWrite w q.queue }

/-- A job image, with the notices its write carries (R78). -/
def writeJob (j : JobNo) (notices : BitVec 16) : Part → Part :=
  requestWrite { record := .job j, low := false, high := false, content := [], notices := notices }

/-- Bytes 7-15 of a station image (R31). -/
def writeStationHigh (b : Branch) (n : StationNo) : Part → Part :=
  requestWrite { record := .station b n, low := false, high := true, content := [], notices := 0 }

/-- Bytes 0-6 of a station image, at the end of an edit (R31, R44). -/
def writeStationLow (b : Branch) (n : StationNo) : Part → Part :=
  requestWrite { record := .station b n, low := true, high := false, content := [], notices := 0 }

/-- A capture image (R123). -/
def writeCapture (b : Branch) (notices : BitVec 16) : Part → Part :=
  requestWrite { record := .capture b, low := false, high := false, content := [], notices := notices }

/-- A probe result record (R158). -/
def writeProbe (b : Branch) : Part → Part :=
  requestWrite { record := .probe b, low := false, high := false, content := [],
                 notices := Notice.probeDone.bit }

/-- A ring slot or the write-back of a table entry, whole, with the given content (R170, R193). -/
def writeWhole (r : ImgRecord) (content : List Byte) (notices : BitVec 16) : Part → Part :=
  requestWrite { record := r, low := false, high := false, content := content, notices := notices }

end Part

/-- Where a record lies (10.3). -/
def ImgRecord.base : ImgRecord → Nat
  | .station b n => stationAddr b n
  | .job j => Config.jobBase + 32 * j.val
  | .capture b => Config.captureBase + 32 * b.val
  | .probe b => Config.probeBase + 32 * b.val
  | .fromTrunk i => Config.fromTrunkBase + 32 * i.val
  | .toTrunk i => Config.toTrunkBase + 32 * i.val
  | .submit i => Config.submitBase + 16 * i.val
  | .unit u => Config.unitBase + 4 * u.val
  | .node n => Config.nodeBase + 8 * n.val

/-- How many bytes a record has (10.3). -/
def ImgRecord.size : ImgRecord → Nat
  | .station _ _ => 16
  | .job _ => 32
  | .capture _ => 32
  | .probe _ => 32
  | .fromTrunk _ => 32
  | .toTrunk _ => 32
  | .submit _ => 16
  | .unit _ => 4
  | .node _ => 8

/-- A station write covers bytes 0-6, 7-15 or both (R170). -/
def ImgWrite.covers (w : ImgWrite) (a : Nat) : Bool :=
  match w.record with
  | .station b n =>
    (w.low && decide (stationAddr b n ≤ a) && decide (a < stationAddr b n + 7))
      || (w.high && decide (stationAddr b n + 7 ≤ a) && decide (a < stationAddr b n + 16))
  | r => decide (r.base ≤ a) && decide (a < r.base + r.size)

/-- Bytes 0-6 of a station image and every entry of the unit map and the node list are watched entries:
a write of one is queued only by a trigger, and the entry is being written from the trigger on (R167). -/
def ImgWrite.coversWatched (w : ImgWrite) (a : Nat) : Bool :=
  match w.record with
  | .station b n => w.low && decide (stationAddr b n ≤ a) && decide (a < stationAddr b n + 7)
  | .unit u => (ImgWrite.covers { w with record := .unit u } a)
  | .node n => (ImgWrite.covers { w with record := .node n } a)
  | _ => false

/-- An entry whose bytes the directory reads and writes back as a watched entry covers the address (R167). -/
def RingRead.watches (x : RingRead) (a : Nat) : Bool :=
  match x.user with
  | .entry r => ImgWrite.coversWatched { record := r, low := true, high := false, content := [], notices := 0 } a
  | .router | .toTrunk | .submit => false

/-- Two reads are of one user of the ring and descriptor requester (R168): the router, a walk, or the directory,
whatever the entry. -/
def RingUser.same : RingUser → RingUser → Bool
  | .entry _, .entry _ => true
  | u, v => decide (u = v)

/-- The first address and the bytes of a write that begins now (R170): for a station, job, capture or
probe result record the record as it stands inside the part, for a slot or a write-back the content of
the latest request. -/
def ImgWrite.bytes (p : Part) (w : ImgWrite) : Nat × List Byte :=
  match w.record with
  | .station b n =>
    if w.low then
      (stationAddr b n, stationLow (p.station b n) ++ if w.high then stationHigh (p.station b n) else [])
    else (stationAddr b n + 7, stationHigh (p.station b n))
  | .job j => (w.record.base, jobImage j (p.job j))
  | .capture b => (w.record.base, captureImage (p.sup b).capture)
  | .probe b => (w.record.base, probeImage (p.records.get b))
  | r => (r.base, w.content)

end Sys2Proof.Machine
end

