-- ==== Sys2Proof/Machine/PoolOps.lean ====
section
/-! DEFINITION. The pool manager (R51 to R54, R56) and the events that end a walk's wait (R70, R92). -/

namespace Sys2Proof.Machine

/-- What is left of a piece of path work once the buffer `buf` is freed: a byte still to be written for it is dropped
(R168, log 31), a shift of it stops after the byte in progress (R81), and nothing else changes. -/
def PathOp.afterFree (buf : BufNo) : PathOp → Option PathOp
  | .write b off v => if b = buf then none else some (.write b off v)
  | .shift b len i byte =>
    if b = buf then byte.map fun v => .last { buf := b, off := i, value := v } else some (.shift b len i byte)
  | .last x => some (.last x)

namespace Part

/-- One of the events of R70: a to-trunk walk that waits will retry. -/
def toTrunkEvent : Part → Part :=
  modToTrunk fun w => if w.state = .waiting then { w with retryDue := true } else w

/-- One of the events of R92: a submission walk that waits will retry. -/
def submitEvent : Part → Part :=
  modSubmit fun w => if w.state = .waiting then { w with retryDue := true } else w

/-- The free count (R55). -/
def freeCount (p : Part) : Nat := p.pool.free.length

/-- The accesses still asked for on behalf of a buffer are withdrawn but for a byte in progress (R81, R168). -/
def withdraw (buf : BufNo) (p : Part) : Part :=
  { p with paths := p.paths.map fun l => l.filterMap (PathOp.afterFree buf) }

/-- A freed buffer joins the tail of the free list (R53). -/
def freeBuffer (buf : BufNo) (p : Part) : Part :=
  submitEvent (toTrunkEvent (withdraw buf (modPool (fun q => { q with free := q.free ++ [buf] }) p)))

/-- Free several buffers in order (R53). -/
def freeBuffers (l : List BufNo) : Part → Part := each l freeBuffer

/-- The head of the free list leaves it; POOL_LOW is set when the free count falls from RESERVE or more
to below RESERVE (R52, R54). -/
def takeHead (p : Part) : Part :=
  let n := p.freeCount
  let q := modPool (fun q => { q with free := q.free.tail }) p
  if p.setup.reserve ≤ n ∧ n - 1 < p.setup.reserve then notify .poolLow q else q

/-- An allocation (R52): the head number, if the free list is not empty. -/
def allocate (p : Part) : Option (BufNo × Part) :=
  match p.pool.free with
  | [] => none
  | buf :: _ => some (buf, p.takeHead)

end Part

end Sys2Proof.Machine
end

