-- ==== Sys2Proof/Machine/Command.lean ====
section
/-! DEFINITION. A host write to a command word (R162, R189): what stands over every command, and
RETURN_BUFFER (R56). -/

namespace Sys2Proof.Machine

namespace Part

/-- The host bus carries an access: the part is not held in reset (R186) and no earlier access of the one
host still waits on /WAIT (log 20). -/
def busFree (p : Part) : Bool := !p.held && p.hostWait.isNone

/-- A write to the command word with this code (R162): refused with INIT during start-up initialisation
(R189), otherwise its owner's to decide. -/
def command (code : Byte) (act : Part → Part) (p : Part) : Part :=
  if !p.busFree then p
  else if p.loader.startState = .init then refuse .init code p
  else act p

/-- RETURN_BUFFER (R56). -/
def returnBuffer (v : Byte) (p : Part) : Part :=
  if p.pool.hostHeld.contains v.toFin then
    freeBuffer v.toFin (modPool (fun q => { q with hostHeld := q.hostHeld.filter fun x => x != v.toFin }) p)
  else refuse .notOwned 0x05 p

end Part

/-- RETURN_BUFFER (R56). -/
def execReturnBuffer (v : Byte) (s : State) : Host.Outcome State Fault Refusal :=
  onPart (Part.command 0x05 (Part.returnBuffer v)) s

end Sys2Proof.Machine
end

