-- ==== Sys2Proof/Machine/Jobs.lean ====
section
/-! DEFINITION. The job manager's records and chains (4.1 to 4.4, 4.6): opening, adding to a chain,
aborting and ending a job, and the counts it reports to the directory. -/

namespace Sys2Proof.Machine

/-- The live states (R77). -/
def JobState.live : JobState → Bool
  | .assembling | .waiting | .printing | .held => true
  | .free | .done | .aborted => false

/-- The byte a copy has read and not yet written (R76). -/
def Copy.inProgress (c : Copy) : Option LastByte := c.byte.map fun v => { buf := c.buf, off := c.off, value := v }

namespace Part

/-- Change a station record; whenever a field of bytes 7-15 changes they are written whole (R31). -/
def updStation (b : Branch) (n : StationNo) (f : Station → Station) (p : Part) : Part :=
  if f (p.station b n) = p.station b n then p else writeStationHigh b n (modStation b n f p)

/-- Change a job record and have its image written (R78). -/
def updJob (j : JobNo) (f : Job → Job) (notices : BitVec 16) (p : Part) : Part :=
  writeJob j notices (modJob j f p)

/-- A job opened with a station's origin raises the station's open job count (R41, R79). -/
def reportOpened (o : JobOrigin) (p : Part) : Part :=
  match o with
  | .trunk b n => updStation b n (fun st => { st with openJobs := st.openJobs + 1 }) p
  | _ => p

/-- A job leaving the live states lowers its station's open job count (R41, R79). -/
def reportLeft (o : JobOrigin) (p : Part) : Part :=
  match o with
  | .trunk b n => updStation b n (fun st => { st with openJobs := st.openJobs - 1 }) p
  | _ => p

/-- The lowest-numbered FREE record (R77). -/
def freeRecord (p : Part) : Option JobNo :=
  (List.finRange 32).find? fun j => (p.job j).state = .free

/-- The ASSEMBLING job of a station, for any printer (R82). -/
def assemblingOf (p : Part) (b : Branch) (n : StationNo) : Option JobNo :=
  (List.finRange 32).find? fun j => (p.job j).state = .assembling && decide ((p.job j).origin = .trunk b n)

/-- Opening a job fills every field from opening (R77) and reports it (R79). -/
def openJob (j : JobNo) (k : Port) (o : JobOrigin) (p : Part) : Part :=
  reportOpened o
    (updJob j (fun _ => { Job.blank with state := .assembling, printer := k, origin := o }) 0 p)

/-- A buffer joins the tail of a chain and raises bytes queued (R80). -/
def addToChain (j : JobNo) (e : ChainEntry) : Part → Part :=
  updJob j (fun x => { x with chain := x.chain ++ [e], queuedBytes := x.queuedBytes + e.fill }) 0

/-- The chain of a job has reached the job_buffer_limit in force, so that the next addition to it is refused (R80,
R83). -/
def chainFull (p : Part) (j : JobNo) : Bool := decide (p.setup.jobBufferLimit ≤ (p.job j).chain.length)

/-- A job leaves its printer's queue: one of the events of R92. -/
def leaveQueue (j : JobNo) (k : Port) (p : Part) : Part :=
  if (p.queue k).contains j then submitEvent (modQueue k (fun l => l.filter fun i => i != j) p) else p

/-- Aborting a live job (R93): it leaves its queue, its chain is freed in order, it becomes ABORTED with
its result, and its leaving is reported. A port that had it as its current job is dealt with by the
caller. -/
def abortJob (j : JobNo) (r : JobResult) (p : Part) : Part :=
  let x := p.job j
  if x.state.live then
    let p1 := if x.state = .waiting then leaveQueue j x.printer p else p
    let p2 := freeBuffers (x.chain.map fun e => e.buf) p1
    let p3 := updJob j (fun x => { x with state := .aborted, result := some r, chain := [], hold := none,
                                          abortPending := false }) Notice.jobDone.bit p2
    reportLeft x.origin p3
  else p

/-- The copy engine is free again (R75). -/
def endCopy (w : Walk) : Part → Part := modCopy fun c => { c with current := none, last := some w }

/-- A copy for the submission walk stops after the byte in progress: the engine is released and the target freed in
this act, and the byte stays to be written (R76, R93, log 50). -/
def stopSubmitCopy (p : Part) : Part :=
  match p.copy.current with
  | some c =>
    if c.walk = .submit then
      freeBuffer c.buf (endCopy .submit (modCopy (fun e => { e with stopped := c.inProgress <|> e.stopped }) p))
    else p
  | none => p

/-- Aborting an ASSEMBLING job that the submission walk may be filling (R76, R93): the target of a copy for it is
among the buffers freed, after those of its chain (log 36). -/
def abortFilling (j : JobNo) (r : JobResult) (p : Part) : Part :=
  if p.submit.job = some j then stopSubmitCopy (abortJob j r p) else abortJob j r p

/-- Entry to DONE with COMPLETE (R98): the entries still in the chain are freed in chain order and the
leaving of the live states is reported. -/
def finishJob (j : JobNo) (p : Part) : Part :=
  let x := p.job j
  let p1 := freeBuffers (x.chain.map fun e => e.buf) p
  let p2 := updJob j (fun x => { x with state := .done, result := some .complete, chain := [],
                                        hold := none, abortPending := false }) Notice.jobDone.bit p1
  reportLeft x.origin p2

/-- Abort the ASSEMBLING job of a station, if there is one (R36 request 3, R97). -/
def abortAssemblingOf (b : Branch) (n : StationNo) (r : JobResult) (p : Part) : Part :=
  match p.assemblingOf b n with
  | some j => abortJob j r p
  | none => p

/-- Abort every ASSEMBLING job whose origin is a station of a branch, in increasing job number (R97). -/
def abortAssemblingOfBranch (b : Branch) : Part → Part :=
  each (List.finRange 32) fun j p =>
    match (p.job j).state, (p.job j).origin with
    | .assembling, .trunk b' _ => if b' = b then abortJob j .sourceLost p else p
    | _, _ => p

/-- The alternate of a port: another printer, 0-2, that is enabled in the setup in force (R107). -/
def alternateOf (p : Part) (k : Port) : Option Port :=
  if h : (p.printerSetup k).alternate < 3 then
    let a : Port := ⟨_, h⟩
    if a ≠ k ∧ (p.printerSetup a).enable then some a else none
  else none

/-- The printer whose queue a job for `k` closes into (R84). -/
def closeTarget (p : Part) (k : Port) : Port :=
  if (p.port k).redirected then (p.alternateOf k).getD k else k

/-- A queue has room for one more job (R84, R86). -/
def hasRoom (p : Part) (k : Port) : Bool := decide ((p.queue k).length < Config.queueCapacity)

end Part

end Sys2Proof.Machine
end

