-- ==== Sys2Proof/Machine/Directory.lean ====
section
/-! DEFINITION. The station directory (R28 to R50) and what it asks of a trunk engine: the poll list
(R11, R12) and the completion of transmit queue entries (R22 to R24). -/

namespace Sys2Proof.Machine

/-! ## Poll list and cursor (R11, R12) -/

/-- The station that follows `n` in a list, counting cyclically; none where `n` stands alone. -/
def follower (l : List StationNo) (n : StationNo) : Option StationNo :=
  match (l.dropWhile fun x => x != n).tail with
  | x :: _ => some x
  | [] => match l with
    | x :: _ => if x = n then none else some x
    | [] => none

/-- What a removal of `n`, followed by `f`, makes of a station of the visit order. -/
def VisitItem.onRemoval (n : StationNo) (f : Option StationNo) (i : VisitItem) : VisitItem :=
  if i.left then (if i.next = some n then { i with next := f } else i)
  else if i.station = n then { i with left := true, next := f }
  else i

/-- A station leaves the poll list: the cursor and the stations of the visit order that point at it move
to its successor (R11). -/
def Engine.removeStation (n : StationNo) (e : Engine) : Engine :=
  if e.pollList.contains n then
    let f := follower e.pollList n
    { e with pollList := e.pollList.filter fun x => x != n
             cursor := if e.cursor = some n then f else e.cursor
             order := e.order.map (VisitItem.onRemoval n f)
             visiting := e.visiting.map (VisitItem.onRemoval n f) }
  else e

/-- A station joins the tail of the poll list; the cursor of an empty list names it (R11, R12). -/
def Engine.appendStation (n : StationNo) (e : Engine) : Engine :=
  if e.pollList.contains n then e
  else { e with pollList := e.pollList ++ [n]
                cursor := if e.pollList = [] then some n else e.cursor }

/-- The cursor after the visit or pass-over of a station (R11). -/
def Engine.afterVisit (i : VisitItem) (e : Engine) : Engine :=
  if i.left then (if i.next.isSome then { e with cursor := i.next } else e)
  else { e with cursor := (follower e.pollList i.station).orElse fun _ => some i.station }

/-- The buffer whose SEND or broadcast is in flight (R24). -/
def Engine.inFlight (e : Engine) : Option BufNo := e.exch.bind fun x => x.entry

/-- Codes other than DELIVERED and BROADCAST_SENT raise relay-dropped (R23). -/
def TxCode.dropped : TxCode → Bool
  | .delivered | .broadcastSent => false
  | _ => true

/-- The state and code of a departure (R36). -/
def StationState.departure : StationState → TxCode × JobResult
  | .conflict => (.conflict, .sourceLost)
  | .barred => (.barred, .barred)
  | .absent | .present => (.noStation, .sourceLost)

namespace Part

/-! ## Transmit queue (R22 to R24) -/

/-- An append that the engine has taken is reported to the directory (R22, R41). -/
def appendEntry (b : Branch) (e : TxEntry) (p : Part) : Part :=
  let q := modEngine b (fun g => { g with queue := g.queue ++ [e] }) p
  if e.target = 63 then q else updStation b e.target (fun st => { st with queued := st.queued + 1 }) q

/-- The engine refuses an append to a queue of 32 entries (R22). -/
def txRoom (b : Branch) (p : Part) : Bool := decide ((p.engine b).queue.length < Config.txCapacity)

/-- Write a to-trunk slot DONE with a result (R73, R193). -/
def doneSlot (i : Fin 32) (copy : List Byte) (result : Nat) : Part → Part :=
  writeWhole (.toTrunk i) (toTrunkSlotBytes copy 3 (byteAt copy 2) (byteAt copy 3) result)
    Notice.toTrunkDone.bit

/-- Completion of an entry (R23): it leaves the queue, the code goes to its origin and the buffer is
freed. -/
def completeEntry (b : Branch) (e : TxEntry) (code : TxCode) (p : Part) : Part :=
  let p1 := modEngine b (fun g =>
    { g with queue := g.queue.filter fun x => x.buf != e.buf
             exch := g.exch.map fun x => if x.entry = some e.buf then { x with entry := none } else x }) p
  let p2 := if e.target = 63 then p1
    else updStation b e.target (fun st => { st with queued := st.queued - 1 }) p1
  let p3 := match e.origin with
    | .slot i copy => doneSlot i copy code.slotResult p2
    | .relay _ _ =>
      if code.dropped then
        modEngine b (fun g => { g with relayDropped := satInc 65535 g.relayDropped }) p2
      else p2
  toTrunkEvent (freeBuffer e.buf p3)

/-- Complete the entries that a request names, oldest first (R24). The entry in flight waits for the end
of its exchange, with the code of the first request. -/
def completeWhere (b : Branch) (code : TxCode) (which : TxEntry → Bool) (p : Part) : Part :=
  each ((p.engine b).queue.filter which) (fun e q =>
    if (q.engine b).inFlight = some e.buf then
      modEngine b (fun g => { g with exch := g.exch.map fun x =>
        if x.endCode.isNone then { x with endCode := some code } else x }) q
    else completeEntry b e code q) p

/-- Every entry of a station completes (R24, first request). -/
def completeStation (b : Branch) (n : StationNo) (code : TxCode) : Part → Part :=
  completeWhere b code fun e => e.target == n

/-- The flush of the whole queue (R24, second request). -/
def flushQueue (b : Branch) : Part → Part := completeWhere b .isolated fun _ => true

/-! ## Changes of state (R29, R36, R37, R39) -/

/-- A record changes state: the image, STATION, and a walk that waits (R29, R31, R70). -/
def changeStation (b : Branch) (n : StationNo) (f : Station → Station) (p : Part) : Part :=
  toTrunkEvent (notify .station (updStation b n f p))

/-- A record leaves PRESENT (R36), or enters CONFLICT or BARRED from elsewhere, where only the third
request finds anything to do (R36, R37). -/
def leaveFor (b : Branch) (n : StationNo) (new : StationState) (f : Station → Station) (p : Part) : Part :=
  let was := (p.station b n).state
  let p1 := changeStation b n (fun st => { f st with state := new }) p
  let p2 := if was = .present then
      completeStation b n new.departure.1 (modEngine b (Engine.removeStation n) p1)
    else p1
  abortAssemblingOf b n new.departure.2 p2

/-- The exchange in progress is with station `n` (R38). -/
def exchangeWith (p : Part) (b : Branch) (n : StationNo) : Bool :=
  match (p.engine b).exch with
  | some x => decide (x.station = n) && decide (x.kind ≠ .broadcast)
  | none => false

/-- A bar reaches a record that is not BARRED; an exchange with it is marked void (R37, R38). -/
def barStation (b : Branch) (n : StationNo) (p : Part) : Part :=
  let void := p.exchangeWith b n
  let q := leaveFor b n .barred (fun st => st) p
  if void then
    modEngine b (fun g => { g with exch := g.exch.map fun x => { x with void := true } }) q
  else q

/-- A BARRED record is unbarred (R37). -/
def unbarStation (b : Branch) (n : StationNo) : Part → Part :=
  changeStation b n fun st => { st with state := .absent, miss := 0 }

/-- A CONFLICT record is cleared (R39). -/
def clearConflict (b : Branch) (n : StationNo) : Part → Part :=
  changeStation b n fun st => { st with state := .absent, miss := 0, garble := 0 }

/-- A disable makes every PRESENT record ABSENT, in increasing order, and leaves the poll list empty
(R40). -/
def disableStations (b : Branch) : Part → Part :=
  each stationNumbers fun n p =>
    if (p.station b n).state = .present then leaveFor b n .absent (fun st => { st with miss := 0 }) p
    else p

/-! ## Reports of outcomes (R32 to R35, R38) -/

/-- A discovery (R32). -/
def reportDiscovery (b : Branch) (n : StationNo) (void : Bool) (p : Part) : Part :=
  if !void && decide ((p.station b n).state = .absent) then
    modEngine b (Engine.appendStation n) (changeStation b n (fun st =>
      { st with state := .present, miss := 0, garble := 0, rxValid := false, txSeq := false,
                lastHeard := (p.engine b).round }) p)
  else p

/-- A clean reply (R33). -/
def reportClean (b : Branch) (n : StationNo) (void : Bool) (p : Part) : Part :=
  if !void && decide ((p.station b n).state = .present) then
    updStation b n (fun st => { st with miss := 0, garble := 0, lastHeard := (p.engine b).round }) p
  else p

/-- A delivery (R33). -/
def reportDelivery (b : Branch) (n : StationNo) (void : Bool) (p : Part) : Part :=
  if void then p
  else updStation b n (fun st => { st with txSeq := !st.txSeq, framesOut := satInc 65535 st.framesOut }) p

/-- A MISS (R34). -/
def reportMiss (b : Branch) (n : StationNo) (void : Bool) (p : Part) : Part :=
  let st := p.station b n
  if !void && decide (st.state = .present) then
    if (p.branchSetup b).missLimit ≤ st.miss + 1 then leaveFor b n .absent (fun st => { st with miss := 0 }) p
    else updStation b n (fun st => { st with miss := st.miss + 1 }) p
  else p

/-- The garble count after an advance. A count at 15 leaves its range: a free value (log 34). -/
def nextGarble (p : Part) (n : Nat) : Nat := if n < 15 then n + 1 else (Config.freeGarble p.draws).toNat

/-- A garbled outcome, with the score as it stood before the error's weight (R35). -/
def reportGarble (b : Branch) (n : StationNo) (void : Bool) (score : Nat) (p : Part) : Part :=
  let st := p.station b n
  if !void && (decide (st.state = .present) || decide (st.state = .absent))
      && decide (score < (p.branchSetup b).tw) then
    let g := p.nextGarble st.garble
    let p1 := if st.garble < 15 then p else { p with draws := p.draws + 1 }
    if (p.branchSetup b).conflictLimit ≤ g then leaveFor b n .conflict (fun st => { st with garble := g }) p1
    else updStation b n (fun st => { st with garble := g }) p1
  else p

/-! ## New-side addresses (R42, R43) -/

/-- The derived address of a station (R42). -/
def derivedAddr (p : Part) (b : Branch) (n : StationNo) : NodeAddr :=
  addrAt (p.setup.derivedPrefix.toList ++ [BitVec.ofNat 8 b.val, BitVec.ofNat 8 n.val]) 0

/-- The new-side address of a station (R42). -/
def newSideAddr (p : Part) (b : Branch) (n : StationNo) : NodeAddr :=
  (p.station b n).assigned.getD (p.derivedAddr b n)

/-- Every station of every branch. -/
def allStations : List (Branch × StationNo) := branches.flatMap fun b => stationNumbers.map fun n => (b, n)

/-- Reverse lookup (R43). -/
def reverseLookup (p : Part) (a : NodeAddr) : Option (Branch × StationNo) :=
  match allStations.find? fun s => (p.station s.1 s.2).assigned = some a with
  | some s => some s
  | none => allStations.find? fun s => (p.station s.1 s.2).assigned = none ∧ p.derivedAddr s.1 s.2 = a

/-- The assigned addresses in force. -/
def assignedAddrs (p : Part) : List NodeAddr :=
  allStations.filterMap fun s => (p.station s.1 s.2).assigned

/-! ## Edits (R44 to R49) -/

/-- The new prefix that a commit in progress has accepted (R46). -/
def acceptedPrefix (p : Part) : Option (Vector Byte 4) :=
  match p.loader.task with
  | .writing next _ => some next.derivedPrefix
  | _ => none

/-- The checks of R45 over the staged bytes, in order; none where all pass. -/
def editRefusal (p : Part) (b : Branch) (n : StationNo) (l : List Byte) : Option Reason :=
  let ctl := byteAt l 6
  let a := addrAt l 0
  if n = 0 ∨ n = 63 then some .badArgument
  else if bitAt ctl 2 && bitAt ctl 1 then some .badState
  else if bitAt ctl 2 && !decide ((p.station b n).state = .conflict) then some .badState
  else if bitAt ctl 0 && allStations.any
      (fun s => s != (b, n) && decide ((p.station s.1 s.2).assigned = some a)) then some .dupAddress
  else if bitAt ctl 0 && (hasPrefix p.setup.derivedPrefix a || p.acceptedPrefix.any fun q => hasPrefix q a) then
    some .badArgument
  else none

/-- The bar flag and the clear-conflict action of an edit that has passed its checks (R37, R39, R44). -/
def applyControl (b : Branch) (n : StationNo) (ctl : Byte) (p : Part) : Part :=
  let st := (p.station b n).state
  let p1 := if bitAt ctl 1 then (if st = .barred then p else barStation b n p)
    else if st = .barred then unbarStation b n p
    else p
  if bitAt ctl 2 then clearConflict b n p1 else p1

/-- One edit of a station record, from bytes 0-6 as they stand (R44, R45). The write-back is asked for once the
directory has made its reads (`writeBack`), as for the other two. -/
def editStation (b : Branch) (n : StationNo) (l : List Byte) (p : Part) : Part :=
  match p.editRefusal b n l with
  | some r => refuse r 0xF0 p
  | none =>
    applyControl b n (byteAt l 6) (modStation b n (fun st =>
      { st with assigned := if bitAt (byteAt l 6) 0 then some (addrAt l 0) else none }) p)

/-- An edit of a unit map entry, from its four bytes as they stand (R48). -/
def editUnit (u : Fin 256) (l : List Byte) (p : Part) : Part :=
  match readUnit l with
  | some e => { p with units := put p.units u e }
  | none => refuse .badArgument 0xF1 p

/-- An edit of a node list entry, from its bytes as they stand (R49). -/
def editNode (n : Fin 64) (l : List Byte) (p : Part) : Part :=
  { p with nodes := put p.nodes n (readNode l) }

end Part

end Sys2Proof.Machine
end

