-- ==== Sys2Proof/Machine/Ports.lean ====
section
/-! DEFINITION. The printer ports (R99 to R117): the port state, the handshake, trouble, redirection,
grants and table loads; and what joins or leaves a printer queue. -/

namespace Sys2Proof.Machine

/-- The trouble states (R101). -/
def PortState.trouble : PortState → Bool
  | .stalled | .paperOut | .offline | .fault => true
  | .disabled | .idle | .busy => false

/-- The hold reason that names a trouble state (R105). -/
def PortState.holdReason : PortState → Option HoldReason
  | .stalled => some .stalled
  | .paperOut => some .paperOut
  | .offline => some .offline
  | .fault => some .fault
  | .disabled | .idle | .busy => none

/-- The port state its situation gives (R101). -/
def PrinterPort.decide (enabled : Bool) (t : PrinterPort) : PortState :=
  if !enabled then .disabled
  else if t.fault then .fault
  else if t.paperOut then .paperOut
  else if t.deselected then .offline
  else if t.stalled then .stalled
  else if t.job.isSome then .busy
  else .idle

/-- The class of a job (R110). -/
def jobClass : JobOrigin → Option (Fin 5)
  | .trunk b _ => some ⟨b.val, by omega⟩
  | .submitted _ => some 4
  | .none => none

/-- How a scan of a grant table ends (R112). -/
inductive Scan
  | found (phase : Fin 32)
  | wrapped
  | nothing
  deriving DecidableEq, Repr

/-- A scan: `left` phases may still be examined, `i` is the next. A passage from phase 31 to phase 0 with
a load pending stops it for the load (R112). -/
def scanTable (table : Vector (Option (Fin 5)) 32) (waiting : Fin 5 → Bool) (pending : Bool) :
    (left : Nat) → (i : Fin 32) → Scan
  | 0, _ => .nothing
  | n + 1, i =>
    if (table.get i).any waiting then .found i
    else if i = 31 ∧ n ≠ 0 ∧ pending then .wrapped
    else scanTable table waiting pending n (i + 1)

namespace Part

/-- A byte in handshake is given up: it leaves the handshake uncounted and its acknowledge is still owed
(R99, R105, R109; log 11). The 1 ms of R102 step 4 runs from here. -/
def giveUp (k : Port) : Part → Part :=
  modPort k fun t =>
    if t.handshake.isSome then { t with handshake := none, abandoned := true, overdue := false, fetched := none }
    else { t with fetched := none }

/-- The port reaches the head of its job's chain: entries of fill 0 are freed (R98, R102 step 2). -/
def reach (k : Port) (p : Part) : Part :=
  let t := p.port k
  match t.job with
  | some j =>
    if t.state = .busy ∧ t.handshake = none ∧ ¬ (p.job j).abortPending then
      let empty := (p.job j).chain.takeWhile fun e => e.fill == 0
      if empty = [] then p
      else updJob j (fun x => { x with chain := x.chain.dropWhile fun e => e.fill == 0 }) 0
            (freeBuffers (empty.map fun e => e.buf) p)
    else p
  | none => p

/-- The current job leaves a port without ending by the port's own act: any byte in handshake is given
up, and a port in STALLED restarts its stall timer (R96, R108). -/
def detach (k : Port) (p : Part) : Part :=
  let s := (p.printerSetup k).stallS
  modPort k (fun t => { t with job := none, stall := if t.state = .stalled then some s else none })
    (giveUp k p)

/-- Entry to a trouble state (R101, R103, R105, R106): PRINTER, the redirect timer, the byte in
handshake and the current job, whose pending abort is made now (R94). -/
def enterTrouble (k : Port) (old new : PortState) (p : Part) : Part :=
  let rs := (p.printerSetup k).redirectS
  let p1 := notify .printer (modPort k (fun t =>
    { t with state := new, stall := none, fetched := none, stalled := new == .stalled,
             redirect := if old.trouble then t.redirect else if rs = 0 then none else some rs }) p)
  let p2 := if new = .stalled then p1 else giveUp k p1
  match (p2.port k).job with
  | none => p2
  | some j =>
    if (p2.job j).abortPending then detach k (abortJob j .abortedByRequest p2)
    else updJob j (fun x => { x with state := .held, hold := new.holdReason }) 0 p2

/-- Entry to IDLE or BUSY (R103, R105, R106, R108): the redirect timer is cancelled, the redirected flag
cleared, the stall timer started in BUSY, the current job PRINTING. -/
def enterRunning (k : Port) (new : PortState) (p : Part) : Part :=
  let ss := (p.printerSetup k).stallS
  let was := (p.port k).redirected
  let p1 := modPort k (fun t =>
    { t with state := new, redirect := none, redirected := false, stalled := false, fetched := none,
             stall := if new = .busy then some ss else none }) p
  let p2 := if was then submitEvent p1 else p1
  match (p2.port k).job with
  | none => p2
  | some j => reach k (updJob j (fun x => { x with state := .printing, hold := none }) 0 p2)

/-- The port state is decided again (R101). -/
def decidePort (k : Port) (p : Part) : Part :=
  let old := (p.port k).state
  let new := (p.port k).decide (p.printerSetup k).enable
  if new = old then p
  else if new.trouble then enterTrouble k old new p
  else enterRunning k new p

/-- Applying a load begins: the table image will be read through the setup loader's requester (R115). -/
def startLoad (k : Port) : Part → Part :=
  modPort k fun t => if t.loading.isSome then t else { t with loading := some [] }

/-- A pending load is applied at a port with no current job and an empty queue (R114). -/
def idleLoad (k : Port) (p : Part) : Part :=
  let t := p.port k
  if t.loadPending ∧ t.job = none ∧ p.queue k = [] then startLoad k p else p

/-- A grant (R98, R113): the job leaves its queue; with no bytes it is DONE at once, otherwise it is
PRINTING and the port becomes BUSY. -/
def grantJob (k : Port) (j : JobNo) (p : Part) : Part :=
  let p1 := leaveQueue j k p
  if (p1.job j).queuedBytes = 0 then finishJob j p1
  else decidePort k (modPort k (fun t => { t with job := some j }) p1)

/-- The class of a queued job. -/
def classOf (p : Part) (j : JobNo) : Option (Fin 5) := jobClass (p.job j).origin

/-- One grant decision of an IDLE port with a queue (R112, R113): none if the port does not decide one
now. While a load is being read the decision waits for it (log 32). -/
def grantOnce (k : Port) (p : Part) : Option Part :=
  let t := p.port k
  if t.state = .idle ∧ t.loading = none then
    match p.queue k with
    | [] => none
    | h :: _ =>
      match scanTable t.table (fun c => (p.queue k).any fun j => p.classOf j = some c) t.loadPending 32
          t.pointer with
      | .wrapped => some (startLoad k p)
      | .nothing => some (grantJob k h p)
      | .found i =>
        let j := ((p.queue k).find? fun j => p.classOf j = t.table.get i).getD h
        let p1 := modPort k (fun t => { t with pointer := i + 1 }) p
        some (grantJob k j (if i = 31 ∧ t.loadPending then startLoad k p1 else p1))
  else none

/-- A port grants until it has a job, its queue is empty or a load intervenes (R112, R113). -/
def grantLoop (k : Port) : Nat → Part → Part
  | 0, p => p
  | n + 1, p =>
    match grantOnce k p with
    | none => p
    | some q => grantLoop k n q

/-- What a port does once its job, queue or state has changed: grants (R112), then a load that has been
waiting for an idle moment (R114). -/
def servePort (k : Port) (p : Part) : Part := idleLoad k (grantLoop k (Config.queueCapacity + 1) p)

/-- The port state is decided again and the port goes on from it. -/
def redecide (k : Port) (p : Part) : Part := servePort k (decidePort k p)

/-- A job joins the tail of a printer's queue (R86); an IDLE port grants at that moment (R112). -/
def joinQueue (k : Port) (j : JobNo) (p : Part) : Part :=
  servePort k (modQueue k (fun l => l ++ [j]) p)

/-- Closing a job (R85). -/
def closeJob (j : JobNo) (p : Part) : Part :=
  let k := p.closeTarget (p.job j).printer
  let p1 := updJob j (fun x => { x with printer := k, stamp := p.stamp, state := .waiting }) 0 p
  joinQueue k j { p1 with stamp := wrapInc p1.stamp }

/-- A WAITING job moves from its queue to the tail of another, its moved flag set (R107, R109). -/
def moveWaiting (j : JobNo) (k a : Port) (p : Part) : Part :=
  joinQueue a j (updJob j (fun x => { x with printer := a, moved := true }) 0 (leaveQueue j k p))

/-- The byte in handshake is counted (R98, R102), and the data lines keep it until the next one is driven
(DESIGN CHOICE, log 39): a buffer whose last byte this was is freed, and the job
ends when a pending abort is made (R94) or bytes printed reaches bytes queued. The job is left without a
port when it ends. -/
def countByte (k : Port) (j : JobNo) (p : Part) : Part :=
  let p1 := modPort k (fun t => { t with handshake := none, fetched := none }) p
  let x := p1.job j
  let printed := x.printed + 1
  let p2 := match x.chain with
    | [] => updJob j (fun x => { x with printed := printed }) 0 p1
    | e :: r =>
      if x.freed + e.fill ≤ printed then
        freeBuffer e.buf (updJob j (fun x => { x with printed := printed, chain := r,
                                                      freed := x.freed + e.fill }) 0 p1)
      else updJob j (fun x => { x with printed := printed }) 0 p1
  if x.abortPending then modPort k (fun t => { t with job := none }) (abortJob j .abortedByRequest p2)
  else if x.queuedBytes ≤ printed then modPort k (fun t => { t with job := none }) (finishJob j p2)
  else p2

/-- An acknowledge that counts: from BUSY it restarts the stall timer, from STALLED it ends the stall
(R102, R103, R104). -/
def countingAck (k : Port) (j : JobNo) (p : Part) : Part :=
  let ss := (p.printerSetup k).stallS
  let p1 := countByte k j p
  redecide k (reach k (modPort k (fun t =>
    { t with stalled := false, stall := if t.job.isSome then some ss else none }) p1))

/-- The abandoned-byte mark is cleared (R101, R102 step 4). -/
def clearAbandoned (k : Port) : Part → Part :=
  modPort k fun t => { t with abandoned := false, overdue := false }

/-- The port has reached step 4 of R102: it holds its reader's byte and waits for busy low. -/
def atStepFour (t : PrinterPort) : Bool :=
  decide (t.state = .busy) && t.job.isSome && t.handshake.isNone && t.fetched.isSome

/-- 1 ms has passed since a byte was given up (R102 step 4): a port at that step clears the mark, and any other keeps
it until it comes there (log 38). -/
def abandonedTimeout (k : Port) (p : Part) : Part :=
  let t := p.port k
  if !t.abandoned then p
  else if atStepFour t then clearAbandoned k p
  else modPort k (fun t => { t with overdue := true }) p

/-- A falling edge of /PACKn (R101, R102, R104). -/
def acknowledge (k : Port) (p : Part) : Part :=
  let t := p.port k
  match t.state with
  | .busy =>
    match t.job, t.handshake with
    | some j, some _ => countingAck k j p
    | _, _ => p
  | .stalled =>
    match t.job, t.handshake with
    | some j, some _ => countingAck k j p
    | some _, none => p
    | none, _ => redecide k (clearAbandoned k (modPort k (fun t => { t with stalled := false }) p))
  | .disabled | .idle | .paperOut | .offline | .fault => clearAbandoned k p

/-- A filtered condition takes a new level (R100, R101). The level is followed in every state. -/
def conditionChange (k : Port) (c : PrinterCondition) (on : Bool) (p : Part) : Part :=
  let p1 := modPort k (fun t => match c with
    | .deselected => { t with deselected := on }
    | .paperOut => { t with paperOut := on }
    | .fault => { t with fault := on }) p
  if (p1.port k).state = .disabled then p1 else redecide k p1

/-- The port drives the byte and strobes it into handshake (R102 step 5), once it has the byte and no
acknowledge is owed for an abandoned one. The command itself says that busy is low (log 27). -/
def presentByte (k : Port) (p : Part) : Part :=
  let t := p.port k
  match t.job, t.fetched with
  | some j, some v =>
    if t.state = .busy ∧ t.handshake = none ∧ ¬ t.abandoned ∧ ¬ (p.job j).abortPending then
      modPort k (fun t => { t with data := v, strobe := true, handshake := some v, fetched := none }) p
    else p
  | _, _ => p

/-- The stall timer expires (R103, R104). -/
def stallExpiry (k : Port) (p : Part) : Part :=
  let t := p.port k
  if t.stall = none then p
  else match t.state with
    | .busy => redecide k (modPort k (fun t => { t with stalled := true, stall := none }) p)
    | .stalled =>
      if t.job = none then redecide k (modPort k (fun t => { t with stalled := false, stall := none }) p)
      else p
    | _ => p

/-- Busy seen low in STALLED with a current job and no byte in handshake (R104). -/
def stallEndBusyLow (k : Port) (p : Part) : Part :=
  let t := p.port k
  if t.state = .stalled ∧ t.job.isSome ∧ t.handshake = none then
    redecide k (modPort k (fun t => { t with stalled := false }) p)
  else p

/-- The redirect timer expires (R107): the flag and PRINTER are set, and unmoved waiting jobs move to the
alternate while its queue has room. -/
def redirectExpiry (k : Port) (p : Part) : Part :=
  if (p.port k).redirect = none then p
  else
    let p1 := submitEvent (notify .printer
      (modPort k (fun t => { t with redirect := none, redirected := true }) p))
    match p1.alternateOf k with
    | none => p1
    | some a =>
      idleLoad k (each (p1.queue k) (fun j q =>
        if !(q.job j).moved && q.hasRoom a then moveWaiting j k a q else q) p1)

/-- An enabled port takes the state its conditions give (R109). -/
def enablePort (k : Port) : Part → Part := redecide k

/-- Disable of an enabled port (R109), in its five steps. The ASSEMBLING jobs of step 2 are aborted in increasing
job number (DESIGN CHOICE, log 37). -/
def disablePort (k : Port) (p : Part) : Part :=
  let p1 := match (p.port k).job with
    | some j => detach k (abortJob j .printerGone p)
    | none => p
  let p2 := each (List.finRange 32) (fun j q =>
    if (q.job j).state = .assembling ∧ (q.job j).printer = k then abortFilling j .printerGone q else q) p1
  let p3 := match p2.alternateOf k with
    | none => p2
    | some a => each (p2.queue k) (fun j q => if q.hasRoom a then moveWaiting j k a q else q) p2
  let p4 := each (p3.queue k) (fun j q => abortJob j .printerGone q) p3
  let was := (p4.port k).redirected
  let p5 := modPort k (fun t =>
    { t with state := .disabled, job := none, handshake := none, fetched := none, stall := none,
             redirect := none, redirected := false, stalled := false, data := 0, strobe := false }) p4
  idleLoad k (if was then submitEvent p5 else p5)

/-- The address of the byte a port's printer reader asks for: the byte at the job's position, once its
entry is shifted (R102 steps 1 and 3). -/
def readerWants (p : Part) (k : Port) : Option Nat :=
  let t := p.port k
  match t.job with
  | some j =>
    let x := p.job j
    if t.state = .busy ∧ t.handshake = none ∧ t.fetched = none ∧ ¬ x.abortPending then
      match x.chain with
      | e :: _ =>
        if e.shifted ∧ x.printed - x.freed < e.fill then
          some (Config.poolBase + Config.bufferBytes * e.buf.val + (x.printed - x.freed))
        else none
      | [] => none
    else none
  | none => none

end Part

/-- PRINTER_CONDITION_CHANGE (R100, R101). While /RESET holds the part the level is still followed. -/
def execPrinterConditionChange (k : Port) (c : PrinterCondition) (on : Bool) (s : State) :
    Host.Outcome State Fault Refusal :=
  onPart (Part.conditionChange k c on) s

/-- BYTE_PRESENT (R102). -/
def execBytePresent (k : Port) (s : State) : Host.Outcome State Fault Refusal :=
  onPart (Part.awake (Part.presentByte k)) s

/-- ABANDONED_BYTE_TIMEOUT (R102 step 4). -/
def execAbandonedByteTimeout (k : Port) (s : State) : Host.Outcome State Fault Refusal :=
  onPart (Part.awake (Part.abandonedTimeout k)) s

/-- ACKNOWLEDGE (R101, R102, R104). -/
def execAcknowledge (k : Port) (s : State) : Host.Outcome State Fault Refusal :=
  onPart (Part.awake (Part.acknowledge k)) s

/-- STALL_TIMER_EXPIRY (R103, R104). -/
def execStallTimerExpiry (k : Port) (s : State) : Host.Outcome State Fault Refusal :=
  onPart (Part.awake (Part.stallExpiry k)) s

/-- STALL_END_BUSY_LOW (R104). -/
def execStallEndBusyLow (k : Port) (s : State) : Host.Outcome State Fault Refusal :=
  onPart (Part.awake (Part.stallEndBusyLow k)) s

/-- REDIRECT_TIMER_EXPIRY (R107). -/
def execRedirectTimerExpiry (k : Port) (s : State) : Host.Outcome State Fault Refusal :=
  onPart (Part.awake (Part.redirectExpiry k)) s

/-- PRINTER_STROBE_END (R102 step 5): /PSTBn is driven high again. -/
def execPrinterStrobeEnd (k : Port) (s : State) : Host.Outcome State Fault Refusal :=
  onPart (Part.awake (Part.modPort k fun t => { t with strobe := false })) s

end Sys2Proof.Machine
end

