-- ==== Sys2Proof/Machine/Supervisor.lean ====
section
/-! DEFINITION. The line supervisor of a branch (6.1 to 6.4): counting, capture, score, warn test, decay
and the clean-round credit. The isolation test of R132 stands in Switch.lean, beside what it asks for. -/

namespace Sys2Proof.Machine

/-- An error as it is reported to a supervisor (R118). -/
structure ErrorReport where
  kind : ErrorKind
  station : StationNo
  chars : List (Byte × Bool)
  detail : Nat
  stamp : Nat
  deriving DecidableEq, Repr

/-- A kind's bit of a mask (R121). -/
def inMask (m : BitVec 8) (k : ErrorKind) : Bool := m.getLsbD k.number.val

namespace Part

/-- Step 1 of R119: the per-kind counter advances, saturating (R120). -/
def countError (b : Branch) (k : ErrorKind) : Part → Part :=
  modSup b fun s => { s with kinds := put s.kinds k.number (satInc 65535 (s.kinds.get k.number)) }

/-- Step 2 of R119: the first captured-kind error fills the record, a later one advances the
further-errors count; each change of the record is written to its image (R122, R123). -/
def captureError (b : Branch) (r : ErrorReport) (p : Part) : Part :=
  let c := (p.sup b).capture
  if inMask (p.branchSetup b).captureMask r.kind then
    if c.valid then
      if c.further < 255 then
        writeCapture b 0 (modSup b (fun s => { s with capture := { c with further := c.further + 1 } }) p)
      else p
    else
      writeCapture b Notice.capture.bit
        (modSup b (fun s => { s with capture :=
          { valid := true, kind := r.kind, station := r.station, stamp := r.stamp,
            chars := r.chars.take 8, detail := r.detail, further := 0 } }) p)
  else p

/-- The warn test (R131). -/
def warnTest (b : Branch) (p : Part) : Part :=
  let s := p.sup b
  if !s.warn && decide ((p.branchSetup b).tw ≤ s.score) then
    notify .warn (modSup b (fun s => { s with warn := true }) p)
  else if s.warn && decide (s.score ≤ (p.branchSetup b).tc) then
    modSup b (fun s => { s with warn := false }) p
  else p

/-- Step 3 of R119: the score takes the weight, at most 1023 (R128). -/
def addWeight (b : Branch) (k : ErrorKind) (p : Part) : Part :=
  let w := (p.branchSetup b).weights.get k.number
  modSup b (fun s => { s with score := min 1023 (s.score + w) }) p

/-- Steps 1 to 5 of R119. -/
def scoreError (b : Branch) (r : ErrorReport) (p : Part) : Part :=
  warnTest b (modSup b (fun s => { s with clean := false })
    (addWeight b r.kind (captureError b r (countError b r.kind p))))

/-- The record becomes not valid with every field 0, and the image is written (R124). -/
def releaseCapture (b : Branch) (p : Part) : Part :=
  writeCapture b 0 (modSup b (fun s => { s with capture := Capture.blank }) p)

/-- A decay expiry (R129): the score falls by D, the warn test is made and the timer starts again with
the decay_period in force. -/
def decayScore (b : Branch) (p : Part) : Part :=
  let bs := p.branchSetup b
  modSup b (fun s => { s with decay := bs.decayPeriod })
    (warnTest b (modSup b (fun s => { s with score := s.score - bs.d }) p))

/-- A reported end of round (R130 steps 1 and 2). -/
def creditRound (b : Branch) (p : Part) : Part :=
  let q := if (p.sup b).clean then
      warnTest b (modSup b (fun s => { s with score := s.score - (p.branchSetup b).c }) p)
    else p
  modSup b (fun s => { s with clean := true }) q

/-- Enable and disable: the score becomes 0 and the warn flag clears, without a test (R127, R131). -/
def zeroScore (b : Branch) : Part → Part := modSup b fun s => { s with score := 0, warn := false }

/-- Entry to ON_TRIAL: the score becomes TC and the warn test is made (R127). -/
def trialScore (b : Branch) (p : Part) : Part :=
  warnTest b (modSup b (fun s => { s with score := (p.branchSetup b).tc }) p)

/-- The noise gate opens with nothing counted (R125). -/
def openGate (b : Branch) : Part → Part :=
  modSup b fun s => { s with gate := { isOpen := true, edges := 0, chars := [], complete := 0 } }

/-- The noise gate closes, what it has seen kept for the judgement (R126). -/
def closeGate (b : Branch) : Part → Part := modSup b fun s => { s with gate := { s.gate with isOpen := false } }

/-- The noise gate closes without judging; count and list are discarded (R126). -/
def discardGate (b : Branch) : Part → Part := modSup b fun s => { s with gate := Gate.blank }

/-- The errors a judged slot reports, NOISE before STRAY (R126). -/
def gateReports (b : Branch) (p : Part) : List ErrorReport :=
  let g := (p.sup b).gate
  let stamp := (p.engine b).round
  (if (p.branchSetup b).noiseLimit < g.edges then
    [{ kind := .noise, station := 0, chars := [], detail := g.edges, stamp := stamp }] else [])
  ++ (if 0 < g.complete then
    [{ kind := .stray, station := 0, chars := g.chars, detail := 0, stamp := stamp }] else [])

end Part

/-- DECAY_TIMER_EXPIRY (R129). -/
def execDecayTimerExpiry (b : Branch) (s : State) : Host.Outcome State Fault Refusal :=
  onPart (Part.awake (Part.decayScore b)) s

end Sys2Proof.Machine
end

