-- ==== Sys2Proof/Machine/Switch.lean ====
section
/-! DEFINITION. The branch switch as the other blocks call it (R140 to R150): isolation with the
engine's stop and abort (R25, R26), the flush, relay faults, enable, disable and restore; and the
isolation test of R132, which asks for an isolation. -/

namespace Sys2Proof.Machine

/-- The four modes of an indicator (R142). -/
inductive LampMode
  | on | slow | fast | off
  deriving DecidableEq, Repr

/-- The mode of an indicator (R142). -/
def SwitchState.lamp : SwitchState → LampMode
  | .inService => .on
  | .onTrial | .draining | .opening | .closing | .probing => .slow
  | .isolated | .lockedOut => .fast
  | .disabled => .off

/-- IN_SERVICE and ON_TRIAL, the states of a running branch. -/
def SwitchState.running : SwitchState → Bool
  | .inService | .onTrial => true
  | _ => false

/-- An exchange is in progress in these phases, the turnaround included (R5, R25). -/
def Phase.inExchange : Phase → Bool
  | .transmit | .window | .reply | .quiet | .verdict | .owed | .turnaround => true
  | .none | .listen | .padding => false

/-- The engine runs in INITIAL_SWEEP and ROUNDS (R8). -/
def EngineState.running : EngineState → Bool
  | .initialSweep | .rounds => true
  | .stopped | .stopping => false

/-- A STRAY report of a run (R21, R118). -/
def strayReport (chars : List (Byte × Bool)) (stamp : Nat) : ErrorReport :=
  { kind := .stray, station := 0, chars := chars.take 8, detail := 0, stamp := stamp }

namespace Part

/-- Score each of several reports in order, steps 1 to 5 of R119. -/
def scoreAll (b : Branch) (l : List ErrorReport) : Part → Part := each l (scoreError b)

/-! ## State changes of the switch -/

/-- The switch changes state: the indicator mode follows (R142, log 28), a to-trunk walk that waits will
retry (R70), and leaving ISOLATED stops the restore timer and discards a check (R149). -/
def setSwitch (b : Branch) (new : SwitchState) (p : Part) : Part :=
  let old := (p.switch b).state
  let p1 := modSwitch b (fun w =>
    { w with state := new
             lamp := if new.lamp = old.lamp then w.lamp else decide (new.lamp ≠ .off)
             restore := if old = .isolated ∧ new ≠ .isolated then none else w.restore
             check := if old = .isolated ∧ new ≠ .isolated then false else w.check }) p
  let p2 := if old = .isolated ∧ new ≠ .isolated then
      modSense (fun q => { q with checks := put q.checks b false }) p1
    else p1
  if new = old then p2 else toTrunkEvent p2

/-- Both relay drives are released (R141). -/
def releaseDrives (b : Branch) : Part → Part := modSwitch b fun w => { w with rline := false, rprobe := false }

/-- The movement to OPEN begins (R141). -/
def moveOpen (b : Branch) (p : Part) : Part :=
  modSwitch b (fun w => { w with relay := .moving .open (p.branchSetup b).settleMs }) (releaseDrives b p)

/-! ## Stopping the engine (R25, R26) -/

/-- The engine enters STOPPED: what is in progress is dropped and the reservation returned (R20, R25, R26). A buffer
that has been offered to the router stays the reservation until the verdict takes effect for it (R26, R51; log 54).
Nothing is reported. The cursor stays where it is,
after an abort in the middle of a visit at the station visited (DESIGN CHOICE, log 40). -/
def haltEngine (b : Branch) (p : Part) : Part :=
  let g := p.engine b
  let p1 := modEngine b (fun g =>
    { g with state := .stopped, phase := .none, exch := none, txRead := none, strayRun := none,
             arriving := none, order := [], visiting := none, listen := none,
             reservation := if g.phase = .verdict then g.reservation else none }) p
  if g.phase = .verdict then p1
  else match g.reservation with
    | some buf => freeBuffer buf p1
    | none => p1

/-- The report of a stray run that the engine's entry to STOPPED ends (R21). -/
def endedStray (b : Branch) (p : Part) : List ErrorReport :=
  match (p.engine b).strayRun with
  | some cs => [strayReport cs (p.engine b).round]
  | none => []

/-- Entry to STOPPED by a stop (R25): a stray run in progress ends and is reported (R21). The switch is
DRAINING, so the error makes no request. -/
def enterStopped (b : Branch) (p : Part) : Part := scoreAll b (p.endedStray b) (haltEngine b p)

/-- The flush of R145 steps 1 and 2. -/
def switchFlush (b : Branch) (p : Part) : Part := abortAssemblingOfBranch b (flushQueue b p)

/-- The engine reports that it has stopped (R145). -/
def stopReported (b : Branch) (p : Part) : Part :=
  if (p.switch b).state = .draining then moveOpen b (setSwitch b .opening (switchFlush b p)) else p

/-- A stop request (R25). A listen slot ends at once and is judged (R14, R126). -/
def stopRequest (b : Branch) (p : Part) : Part :=
  let g := p.engine b
  match g.state with
  | .stopped => stopReported b p
  | .stopping => p
  | .initialSweep | .rounds =>
    if g.phase.inExchange then modEngine b (fun g => { g with state := .stopping }) p
    else if g.phase = .listen then
      let p1 := closeGate b p
      stopReported b (enterStopped b (scoreAll b (p1.gateReports b) p1))
    else stopReported b (enterStopped b p)

/-! ## Isolation (R132, R144) -/

/-- An isolation request, taken in IN_SERVICE and ON_TRIAL (R144). -/
def requestIsolation (b : Branch) (r : IsoReason) (d : Destination) (p : Part) : Part :=
  if (p.switch b).state.running then
    stopRequest b (setSwitch b .draining (modSwitch b (fun w =>
      { w with reason := some r, dest := some d, verdict := .none, trial := 0 }) p))
  else p

/-- The isolation test of an error of kind `k` (R132). -/
def isolationTest (b : Branch) (k : ErrorKind) (p : Part) : Part :=
  let st := (p.switch b).state
  let bs := p.branchSetup b
  let score := (p.sup b).score
  if st.running && inMask bs.immediateMask k then requestIsolation b .immediate .isolated p
  else if st = .inService ∧ bs.ti ≤ score then requestIsolation b .score .isolated p
  else if st = .onTrial ∧ bs.tw ≤ score then requestIsolation b .trialFailed .isolated p
  else p

/-- A supervisor handles an error (R119). -/
def handleError (b : Branch) (r : ErrorReport) (p : Part) : Part := isolationTest b r.kind (scoreError b r p)

/-- A supervisor handles several errors, one after another. -/
def handleAll (b : Branch) (l : List ErrorReport) : Part → Part := each l (handleError b)

/-! ## Relay faults (R147) -/

/-- The probe unit gives up the branch: its lists are discarded and its entry leaves the queue (R154). A pulse in
progress ends at once, PPULSE driven low (DESIGN CHOICE, log 48). -/
def abandonProbe (b : Branch) : Part → Part :=
  modProbe fun u =>
    if u.state ≠ .idle ∧ u.queue.head? = some b then { ProbeUnit.blank with queue := u.queue.tail }
    else { u with queue := u.queue.filter fun x => x != b }

/-- Steps 1 to 4 of R147. The gate of a listen slot closes without judging (R126). -/
def faultStop (b : Branch) (p : Part) : Part :=
  let p1 := modSwitch b (fun w => { w with relay := .at .open }) (releaseDrives b p)
  let p2 := if (p1.engine b).phase = .listen then discardGate b p1 else p1
  let p3 := if (p2.engine b).state = .stopped then p2 else haltEngine b p2
  abandonProbe b (switchFlush b p3)

/-- The RELAY_FAULT error (R118, R147 step 8), after the stray run the abort has ended (log 13). -/
def faultErrors (b : Branch) (p : Part) : List ErrorReport :=
  p.endedStray b ++
    [{ kind := .relayFault, station := 0, chars := [], detail := 0, stamp := (p.engine b).round }]

/-- A relay fault without a disable: LOCKED_OUT (R147). -/
def faultLock (b : Branch) (p : Part) : Part :=
  let p1 := modSwitch b (fun w =>
    { w with reason := some .relayFault, verdict := .none, dest := none, restore := none, back := none,
             byHost := false }) (faultStop b p)
  scoreAll b (p.faultErrors b) (notify .isolated (notify .relayFault (setSwitch b .lockedOut p1)))

/-- RLINEn is asserted and the movement to LINE begins; a fault input already low is taken at that
moment (R141). -/
def assertLine (b : Branch) (p : Part) : Part :=
  let q := modSwitch b (fun w =>
    { w with rline := true, rprobe := false, relay := .moving .line (p.branchSetup b).settleMs }) p
  if (q.switch b).rflt then faultLock b q else q

/-- RPROBEn is asserted and the movement to PROBE begins (R141). -/
def assertProbe (b : Branch) (p : Part) : Part :=
  let q := modSwitch b (fun w =>
    { w with rline := false, rprobe := true, relay := .moving .probe (p.branchSetup b).settleMs }) p
  if (q.switch b).rflt then faultLock b q else q

/-! ## Enable, disable, restore (R143, R148, R150) -/

/-- The enable of a DISABLED branch (R143 step 1). -/
def beginEnable (b : Branch) (p : Part) : Part :=
  assertLine b (setSwitch b .closing (modSwitch b (fun w =>
    { w with closingFor := .enable, isolations := 0, verdict := .none }) p))

/-- A restore (R150 step 1). -/
def beginRestore (b : Branch) (p : Part) : Part :=
  assertLine b (setSwitch b .closing (modSwitch b (fun w => { w with closingFor := .restore }) p))

/-- A taken RESTORE of the host, or of the button (R151, R152). -/
def takeRestore (b : Branch) (p : Part) : Part :=
  beginRestore b (modSwitch b (fun w => { w with isolations := 0, verdict := .none }) p)

/-- Entry to DISABLED (R148), with the pending enable. -/
def disabledEntry (b : Branch) (p : Part) : Part :=
  let p1 := modSwitch b (fun w =>
    { w with restore := none, check := false, isolations := 0, verdict := .none, dest := none,
             back := none, byHost := false }) (setSwitch b .disabled p)
  let p2 := releaseCapture b (zeroScore b (disableStations b p1))
  if (p2.switch b).enablePending then
    beginEnable b (modSwitch b (fun w => { w with enablePending := false }) p2)
  else p2

/-- A relay fault taken during a disable (R147). -/
def faultDisable (b : Branch) (p : Part) : Part :=
  disabledEntry b (notify .relayFault (scoreAll b (p.faultErrors b) (faultStop b p)))

/-- A relay fault is taken (R147). -/
def takeFault (b : Branch) (p : Part) : Part :=
  if (p.switch b).dest = some .disabled then faultDisable b p else faultLock b p

/-- An enable by COMMIT (R143). -/
def enableBranch (b : Branch) (p : Part) : Part :=
  let w := p.switch b
  if w.state = .disabled then beginEnable b p
  else if w.dest = some .disabled then modSwitch b (fun w => { w with enablePending := true }) p
  else p

/-- The branch is the one the probe unit is serving (R154). -/
def probed (p : Part) (b : Branch) : Bool :=
  decide (p.probe.state ≠ .idle) && decide (p.probe.queue.head? = some b)

/-- A disable by COMMIT (R148). From a running state the verdict and the trial count are cleared as in
R144 (log 16). -/
def disableBranch (b : Branch) (p : Part) : Part :=
  let w := p.switch b
  let toDisabled := modSwitch b (fun w => { w with dest := some .disabled }) p
  if w.dest = some .disabled then modSwitch b (fun w => { w with enablePending := false }) p
  else match w.state with
    | .inService | .onTrial =>
      stopRequest b (setSwitch b .draining (modSwitch b (fun w =>
        { w with dest := some .disabled, verdict := .none, trial := 0 }) p))
    | .draining | .opening | .closing => toDisabled
    | .isolated | .lockedOut => disabledEntry b p
    | .probing => if p.probed b then toDisabled else disabledEntry b (abandonProbe b p)
    | .disabled => p

end Part

end Sys2Proof.Machine
end

