-- ==== Sys2Proof/Machine/Walks.lean ====
section
/-! DEFINITION. The to-trunk walk (R67 to R74), the submission walk (R87 to R92) and the copy engine that
serves both (R75, R76). -/

namespace Sys2Proof.Machine

namespace Part

/-! ## To-trunk walk -/

/-- The target of a slot (R69 check 3, R192). -/
def ttTarget (p : Part) (l : List Byte) : Option (Branch × StationNo) :=
  match (byteAt l 1).toNat with
  | 0 => ttByStation l
  | 1 => p.reverseLookup (addrAt l 4)
  | _ => none

/-- Checks 4 and 5 of R69 on a target; none where both pass. -/
def ttTargetResult (p : Part) (b : Branch) (n : StationNo) : Option WalkResult :=
  if !(p.switch b).state.running then some .isolated
  else if n = 63 then none
  else match (p.station b n).state with
    | .present => none
    | .absent => some .noStation
    | .barred => some .barred
    | .conflict => some .conflict

/-- Checks 3 to 5 of R69: the target, or the result of the first check that fails. -/
def ttResolve (p : Part) (l : List Byte) : Except WalkResult (Branch × StationNo) :=
  match p.ttTarget l with
  | none => .error .noRoute
  | some t => match p.ttTargetResult t.1 t.2 with
    | some r => .error r
    | none => .ok t

/-- All the checks of R69. -/
def ttCheck (p : Part) (l : List Byte) : Except WalkResult (Branch × StationNo) :=
  if 240 < ttLength l then .error .tooLong
  else if !inHostArea (ttData l) (ttLength l) then .error .badAddress
  else p.ttResolve l

/-- The walk asks for the mark of the slot at its consumer index (R68, R168). -/
def ttNext (p : Part) : Part := askReads .toTrunk (ImgRecord.toTrunk p.toTrunk.index).base 1 p

/-- The walk asks for the fields of the slot that its checks read, from the addressing byte on (R69, R168). -/
def ttAskFields (p : Part) : Part := askReads .toTrunk ((ImgRecord.toTrunk p.toTrunk.index).base + 1) 16 p

/-- The walk asks for the target fields of the slot: addressing, branch, station and address (R72, R74). -/
def ttAskTarget (p : Part) : Part := askReads .toTrunk ((ImgRecord.toTrunk p.toTrunk.index).base + 1) 9 p

/-- The slot at the consumer index ends DONE with a result of the walk, and the index advances (R68, R73). -/
def ttFail (l : List Byte) (r : WalkResult) (p : Part) : Part :=
  modToTrunk (fun w => { w with state := .working, index := w.index + 1, retryDue := false, slot := [] })
    (doneSlot p.toTrunk.index l r.code p)

/-- A slot that has passed its checks: the walk asks for the copy engine, or waits, or goes on waiting, for room or a
buffer (R70, R71). -/
def ttWant (t : Branch × StationNo) (l : List Byte) (p : Part) : Part :=
  if p.txRoom t.1 && decide (p.pool.free ≠ []) then
    modToTrunk (fun w => { w with state := .working, asking := true, retryDue := false, slot := l }) p
  else modToTrunk (fun w => { w with state := .waiting, asking := false, slot := l }) p

/-- The mark of the slot has been read (R68). -/
def ttMark (mark : Byte) (p : Part) : Part :=
  if mark = 1 then ttAskFields p
  else if p.toTrunk.pending then ttNext (modToTrunk (fun w => { w with pending := false }) p)
  else modToTrunk (fun w => { w with state := .idle }) p

/-- The fields of a POSTED slot have been read, on taking it or at a retry: they are the walk's copy of it, and the
checks are made (R69, R70, R193). -/
def ttFields (fields : List Byte) (p : Part) : Part :=
  let l := 1 :: fields
  match p.ttCheck l with
  | .error r => ttNext (ttFail l r p)
  | .ok t => ttWant t l p

/-- The walk's copy of its slot with the target fields read again (R74, R193). -/
def retarget (slot target : List Byte) : List Byte := slot.take 1 ++ target ++ slot.drop 10

/-- The bytes the walk asked for have been read. -/
def ttRead (l : List Byte) (p : Part) : Part :=
  match p.toTrunk.state with
  | .idle => p
  | .copying => modToTrunk (fun w => { w with slot := retarget w.slot l }) p
  | .working | .waiting =>
    match l with
    | [mark] => ttMark mark p
    | fields => ttFields fields p

/-- POST_TO_TRUNK (R68). -/
def postToTrunk (p : Part) : Part :=
  if p.toTrunk.state = .idle then ttNext (modToTrunk (fun w => { w with state := .working }) p)
  else modToTrunk (fun w => { w with pending := true }) p

/-- A retry of a waiting walk, once one of the events of R70 has occurred: it reads its slot afresh, and makes the
checks when it has read it (R70, R74, R168). -/
def toTrunkRetry (p : Part) : Part :=
  if p.toTrunk.state = .waiting ∧ p.toTrunk.retryDue ∧ p.readsAsked .toTrunk = false then
    ttAskFields (modToTrunk (fun w => { w with retryDue := false }) p)
  else p

/-- The current copy, if it is this walk's and every byte is in place. -/
def copyDone (p : Part) (w : Walk) : Option Copy :=
  match p.copy.current with
  | some c => if c.walk = w ∧ c.head = [] ∧ c.left = 0 ∧ c.byte = none then some c else none
  | none => none

/-- The frame is appended and the slot written TAKEN (R72, R193). -/
def ttTake (t : Branch × StationNo) (buf : BufNo) (p : Part) : Part :=
  let i := p.toTrunk.index
  let l := toTrunkSlotBytes p.toTrunk.slot 2 (BitVec.ofNat 8 t.1.val) (BitVec.ofNat 8 t.2.val) 0
  let p1 := appendEntry t.1 { target := t.2, buf := buf, origin := .slot i l, hold := 0,
                              first := flagFirst (byteAt l 11), last := flagLast (byteAt l 11) } p
  modToTrunk (fun w => { w with state := .working, index := i + 1, slot := [] })
    (writeWhole (.toTrunk i) l 0 p1)

/-- The end of a to-trunk copy (R72), once the walk has read its target from the slot again (R74, log 9): the target
is resolved afresh and checked. -/
def toTrunkCopied (p : Part) : Part :=
  match p.copyDone .toTrunk with
  | none => p
  | some c =>
    if p.readsAsked .toTrunk then p
    else
      let q := endCopy .toTrunk p
      match q.ttResolve q.toTrunk.slot with
      | .error r => ttNext (ttFail q.toTrunk.slot r (freeBuffer c.buf q))
      | .ok t =>
        if q.txRoom t.1 then ttNext (ttTake t c.buf q)
        else modToTrunk (fun w => { w with state := .waiting, retryDue := false }) (freeBuffer c.buf q)

/-! ## Submission walk -/

/-- The job number a DONE write puts back (R87): 0xFF for a FIRST slot that opened no job. -/
def subJobByte (w : SubmitWalk) : Byte :=
  if subFirst w.slot then
    match w.job with
    | some j => BitVec.ofNat 8 j.val
    | none => 0xFF
  else byteAt w.slot 3

/-- The slot at the consumer index ends DONE (R91), and the index advances. -/
def subDone (r : SubmitResult) (p : Part) : Part :=
  let w := p.submit
  modSubmit (fun w => { w with state := .working, index := w.index + 1, asking := false, retryDue := false,
                               slot := [], job := none, pos := 0 })
    (writeWhole (.submit w.index) (submitSlotBytes w.slot 3 (subJobByte w) r.code) Notice.submitDone.bit p)

/-- The walk enters WAITING (R92). -/
def subWait (x : SubmitWait) : Part → Part :=
  modSubmit fun w => { w with state := .waiting, wait := x, asking := false, retryDue := false }

/-- All the data is in the chain (R91): none where the slot has ended, so that the walk goes on. -/
def subEnd (j : JobNo) (p : Part) : Part × Bool :=
  if !subLast p.submit.slot then (subDone .accepted p, true)
  else if p.hasRoom (p.closeTarget (p.job j).printer) then (subDone .accepted (closeJob j p), true)
  else (subWait .room p, false)

/-- The chain of the walk's job has reached its limit: the job is aborted and the slot ends with TOO_LARGE (R90). -/
def subOverrun (j : JobNo) (p : Part) : Part := subDone .tooLarge (abortJob j .tooLarge p)

/-- Before each buffer (R90), and at the end of the data. -/
def subFill (j : JobNo) (p : Part) : Part × Bool :=
  if subLength p.submit.slot ≤ p.submit.pos then subEnd j p
  else if p.chainFull j then (subOverrun j p, true)
  else (modSubmit (fun w => { w with state := .working, asking := true, retryDue := false }) p, false)

/-- A FIRST slot opens its job, or waits for a record (R89); check 3 is made first, and again at a retry
(R92). The POSTED write that gives the job number has the result 0 (DESIGN CHOICE, log 45). -/
def subOpen (p : Part) : Part × Bool :=
  let w := p.submit
  match subPrinter w.slot with
  | none => (subDone .printerOff p, true)
  | some k =>
    if !(p.printerSetup k).enable then (subDone .printerOff p, true)
    else match p.freeRecord with
      | none => (subWait .record p, false)
      | some j =>
        let p1 := openJob j k (.submitted (subTag w.slot)) p
        let p2 := writeWhole (.submit w.index) (submitSlotBytes w.slot 1 (BitVec.ofNat 8 j.val) 0) 0 p1
        subFill j (modSubmit (fun w => { w with state := .working, job := some j, retryDue := false }) p2)

/-- The job a slot with FIRST clear continues (R89 check 4). -/
def subContinues (p : Part) (l : List Byte) : Option JobNo :=
  match subJob l with
  | some j =>
    match (p.job j).state, (p.job j).origin with
    | .assembling, .submitted _ => some j
    | _, _ => none
  | none => none

/-- A POSTED slot is taken (R89). -/
def subTake (l : List Byte) (p : Part) : Part × Bool :=
  let q := modSubmit (fun w => { w with slot := l, job := none, pos := 0 }) p
  if 32768 < subLength l then (subDone .tooLong q, true)
  else if !inHostArea (subData l) (subLength l) then (subDone .badAddress q, true)
  else if subFirst l then subOpen q
  else match q.subContinues l with
    | none => (subDone .badJob q, true)
    | some j => subFill j (modSubmit (fun w => { w with job := some j }) q)

/-- The walk asks for the mark of the slot at its consumer index (R88, R168). -/
def subNext (p : Part) : Part := askReads .submit (ImgRecord.submit p.submit.index).base 1 p

/-- The walk goes on if its slot has ended. -/
def subGoOn (r : Part × Bool) : Part := if r.2 then subNext r.1 else r.1

/-- The mark of the slot has been read (R88). -/
def subMark (mark : Byte) (p : Part) : Part :=
  if mark = 1 then askReads .submit ((ImgRecord.submit p.submit.index).base + 1) 10 p
  else if p.submit.pending then subNext (modSubmit (fun w => { w with pending := false }) p)
  else modSubmit (fun w => { w with state := .idle }) p

/-- The bytes the walk asked for have been read: a mark, or the fields of a POSTED slot, its copy of it (R89, R193). -/
def subRead (l : List Byte) (p : Part) : Part :=
  if p.submit.state = .working then
    match l with
    | [mark] => subMark mark p
    | fields => subGoOn (subTake (1 :: fields) p)
  else p

/-- POST_SUBMIT (R88). -/
def postSubmit (p : Part) : Part :=
  if p.submit.state = .idle then subNext (modSubmit (fun w => { w with state := .working }) p)
  else modSubmit (fun w => { w with pending := true }) p

/-- A retry of a waiting walk from the point where it stopped (R92; log 10). -/
def submissionRetry (p : Part) : Part :=
  if p.submit.state = .waiting ∧ p.submit.retryDue then
    match p.submit.wait, p.submit.job with
    | .record, _ => subGoOn (subOpen p)
    | .buffer, some j => subGoOn (subFill j p)
    | .room, some j => subGoOn (subEnd j p)
    | _, none => p
  else p

/-- The end of a submission copy (R90). The limit in force decides whether the buffer may join the chain (R80): where a
COMMIT has lowered job_buffer_limit since the check before the copy, so that the chain stands at it, the addition is
refused as R83 states, the job being aborted with TOO_LARGE and the target freed after its chain (R53, R93;
DEDUCED, logs 36 and 44). -/
def submissionCopied (p : Part) : Part :=
  match p.copyDone .submit, p.submit.job with
  | some c, some j =>
    let q := endCopy .submit p
    if q.chainFull j then subNext (subDone .tooLarge (freeBuffer c.buf (abortJob j .tooLarge q)))
    else
      subGoOn (subFill j (modSubmit (fun w => { w with state := .working, pos := w.pos + c.total })
        (addToChain j { buf := c.buf, fill := c.total, shifted := true } q)))
  | _, _ => p

/-- The job the submission walk works on may have been aborted, and a copy for it with it: then the walk stops
work on the slot, which ends DONE with JOB_ABORTED, and takes the next (R92). -/
def checkSubmitJob (p : Part) : Part :=
  match p.submit.job with
  | some j =>
    if (p.job j).state = .assembling then p
    else subNext (subDone .jobAborted p)
  | none => p

/-! ## Copy engine -/

/-- The walk to serve (R75): where both ask, the one not served by the copy just ended, and so also where neither
asks at the end of a copy (DESIGN CHOICE, log 43). -/
def copyChoice (p : Part) : Option Walk :=
  match p.toTrunk.asking, p.submit.asking with
  | true, true => if p.copy.last = some .toTrunk then some .submit else some .toTrunk
  | true, false => some .toTrunk
  | false, true => some .submit
  | false, false => none

/-- The to-trunk walk is served (R70, R71). -/
def serveToTrunk (p : Part) : Part :=
  let l := p.toTrunk.slot
  match p.allocate with
  | none => modToTrunk (fun w => { w with state := .waiting, asking := false, retryDue := false }) p
  | some (buf, q) =>
    let c : Copy :=
      { walk := .toTrunk, buf := buf
        head := [byteAt l 10, ctlByte false (flagFirst (byteAt l 11)) (flagLast (byteAt l 11)), byteAt l 12]
        src := ttData l, left := ttLength l, off := 0, byte := none, total := 3 + ttLength l }
    modToTrunk (fun w => { w with state := .copying, asking := false })
      (modCopy (fun e => { e with current := some c }) q)

/-- The submission walk asks for its buffer, which it is granted while the free list holds more than RESERVE buffers
(R52, R90). -/
def subAllocate (p : Part) : Part :=
  let w := p.submit
  if p.setup.reserve < p.freeCount then
    match p.allocate with
    | none => subWait .buffer p
    | some (buf, q) =>
      let n := min Config.bufferBytes (subLength w.slot - w.pos)
      let c : Copy :=
        { walk := .submit, buf := buf, head := [], src := subData w.slot + w.pos, left := n, off := 0
          byte := none, total := n }
      modSubmit (fun w => { w with state := .copying, asking := false })
        (modCopy (fun e => { e with current := some c }) q)
  else subWait .buffer p

/-- The submission walk is served. The chain check of R90, which comes before each allocation, is made on the limit in
force at that moment (R180): where a COMMIT has lowered job_buffer_limit while the walk was asking, so that the chain
stands at it, the job ends with TOO_LARGE and no buffer is allocated (R80; DEDUCED, log 44). -/
def serveSubmit (p : Part) : Part :=
  match p.submit.job with
  | some j => if p.chainFull j then subNext (subOverrun j p) else subAllocate p
  | none => subAllocate p

/-- The idle copy engine serves an asking walk (R75). -/
def copyServe (p : Part) : Part :=
  if p.copy.current.isSome then p
  else match p.copyChoice with
    | some .toTrunk => serveToTrunk p
    | some .submit => serveSubmit p
    | none => p

end Part

/-- POST_TO_TRUNK (R68). -/
def execPostToTrunk (_v : Byte) (s : State) : Host.Outcome State Fault Refusal :=
  onPart (Part.command 0x03 Part.postToTrunk) s

/-- TO_TRUNK_RETRY (R70). -/
def execToTrunkRetry (s : State) : Host.Outcome State Fault Refusal :=
  onPart (Part.awake Part.toTrunkRetry) s

/-- POST_SUBMIT (R88). -/
def execPostSubmit (_v : Byte) (s : State) : Host.Outcome State Fault Refusal :=
  onPart (Part.command 0x04 Part.postSubmit) s

/-- SUBMISSION_RETRY (R92). -/
def execSubmissionRetry (s : State) : Host.Outcome State Fault Refusal :=
  onPart (Part.awake Part.submissionRetry) s

/-- COPY_ENGINE_SERVE (R75). -/
def execCopyEngineServe (s : State) : Host.Outcome State Fault Refusal :=
  onPart (Part.awake Part.copyServe) s

/-- TO_TRUNK_COPY_COMPLETE (R72). -/
def execToTrunkCopyComplete (s : State) : Host.Outcome State Fault Refusal :=
  onPart (Part.awake Part.toTrunkCopied) s

/-- SUBMISSION_COPY_COMPLETE (R90). -/
def execSubmissionCopyComplete (s : State) : Host.Outcome State Fault Refusal :=
  onPart (Part.awake Part.submissionCopied) s

end Sys2Proof.Machine
end

