-- ==== Sys2Proof/Machine/JobCommands.lean ====
section
/-! DEFINITION. The host's commands on jobs and grant tables (R94 to R96, R114). -/

namespace Sys2Proof.Machine

/-- A job number 0-31 (R94 to R96). -/
def jobArg (v : Byte) : Option JobNo := if h : v.toNat < 32 then some ⟨v.toNat, h⟩ else none

/-- A printer 0-2 (R96, R114). -/
def portArg (v : Byte) : Option Port := if h : v.toNat < 3 then some ⟨v.toNat, h⟩ else none

/-- A branch 0-3 (R120, R124, R151). -/
def branchArg (v : Byte) : Option Branch := if h : v.toNat < 4 then some ⟨v.toNat, h⟩ else none

namespace Part

/-- JOB_RELEASE (R95). -/
def jobRelease (v : Byte) (p : Part) : Part :=
  match jobArg v with
  | none => refuse .badArgument 0x06 p
  | some j =>
    match (p.job j).state with
    | .done | .aborted => submitEvent (updJob j (fun _ => Job.blank) 0 p)
    | _ => refuse .badState 0x06 p

/-- JOB_ABORT of a live job (R94). -/
def abortByHost (j : JobNo) (p : Part) : Part :=
  let x := p.job j
  let k := x.printer
  match x.state with
  | .assembling => checkSubmitJob (abortFilling j .abortedByRequest p)
  | .waiting => servePort k (abortJob j .abortedByRequest p)
  | .held => servePort k (detach k (abortJob j .abortedByRequest p))
  | .printing =>
    if x.abortPending then p
    else if (p.port k).handshake = none then
      redecide k (modPort k (fun t => { t with job := none, fetched := none })
        (abortJob j .abortedByRequest p))
    else modJob j (fun x => { x with abortPending := true }) p
  | _ => refuse .badState 0x07 p

/-- JOB_ABORT (R94). -/
def jobAbort (v : Byte) (p : Part) : Part :=
  match jobArg v with
  | none => refuse .badArgument 0x07 p
  | some j => abortByHost j p

/-- JOB_MOVE_JOB (R96). A refusal records its own code 0x08 (R162, R185, 10.4) and not that of JOB_MOVE_PRINTER, which
R96 gives for its refusals (DESIGN CHOICE, log 57). -/
def jobMoveJob (v : Byte) (p : Part) : Part :=
  match jobArg v with
  | none => refuse .badArgument 0x08 p
  | some j => { p with moveJob := j }

/-- A move that has passed its checks (R96). -/
def moveJobTo (j : JobNo) (k : Port) (p : Part) : Part :=
  let old := (p.job j).printer
  let p1 := if (p.job j).state = .held then detach old p else leaveQueue j old p
  servePort old (joinQueue k j (updJob j (fun x =>
    { x with printer := k, moved := true, state := .waiting, hold := none }) 0 p1))

/-- JOB_MOVE_PRINTER (R96): the checks in order. -/
def jobMovePrinter (v : Byte) (p : Part) : Part :=
  let j := p.moveJob
  match portArg v with
  | none => refuse .badArgument 0x09 p
  | some k =>
    match (p.job j).state with
    | .waiting | .held =>
      if !(p.printerSetup k).enable then refuse .badState 0x09 p
      else if !(p.queue k).contains j && !p.hasRoom k then refuse .queueFull 0x09 p
      else moveJobTo j k p
    | _ => refuse .badState 0x09 p

/-- LOAD_GRANT (R114). -/
def loadGrant (v : Byte) (p : Part) : Part :=
  match portArg v with
  | none => refuse .badArgument 0x0A p
  | some k => idleLoad k (modPort k (fun t => { t with loadPending := true }) p)

end Part

/-- JOB_RELEASE (R95). -/
def execJobRelease (v : Byte) (s : State) : Host.Outcome State Fault Refusal :=
  onPart (Part.command 0x06 (Part.jobRelease v)) s

/-- JOB_ABORT (R94). -/
def execJobAbort (v : Byte) (s : State) : Host.Outcome State Fault Refusal :=
  onPart (Part.command 0x07 (Part.jobAbort v)) s

/-- JOB_MOVE_JOB (R96). -/
def execJobMoveJob (v : Byte) (s : State) : Host.Outcome State Fault Refusal :=
  onPart (Part.command 0x08 (Part.jobMoveJob v)) s

/-- JOB_MOVE_PRINTER (R96). -/
def execJobMovePrinter (v : Byte) (s : State) : Host.Outcome State Fault Refusal :=
  onPart (Part.command 0x09 (Part.jobMovePrinter v)) s

/-- LOAD_GRANT (R114). -/
def execLoadGrant (v : Byte) (s : State) : Host.Outcome State Fault Refusal :=
  onPart (Part.command 0x0A (Part.loadGrant v)) s

end Sys2Proof.Machine
end

