-- ==== Sys2Proof/Machine/Engine.lean ====
section
/-! DEFINITION. The trunk engine's own course (R5, R9 to R20): the initial sweep, the rounds, the parts of a
round and the beginning of each exchange. -/

namespace Sys2Proof.Machine

/-! ## The check (R4) -/

/-- One bit of the check register: generator x^16 + x^12 + x^5 + 1. -/
def crcBit (crc : BitVec 16) : BitVec 16 :=
  if crc.getLsbD 15 then (crc <<< 1) ^^^ 0x1021 else crc <<< 1

/-- One byte into the check register, most significant bit first (R4). -/
def crcByte (crc : BitVec 16) (v : Byte) : BitVec 16 :=
  (List.range 8).foldl (fun c _ => crcBit c) (crc ^^^ (v.zeroExtend 16 <<< 8))

/-- The check over a run of bytes, from 0xFFFF (R4). -/
def crcOf (l : List Byte) : BitVec 16 := l.foldl crcByte 0xFFFF

/-- The characters of a frame (R3): unit, ctl, len, payload and the check, high byte first. -/
def frameChars (unit ctl len : Byte) (payload : List Byte) : List (Byte × Bool) :=
  let body := unit :: ctl :: len :: payload
  let crc := crcOf body
  (body ++ [byteOf crc.toNat 1, byteOf crc.toNat 0]).map dataChar

/-- The visit order: the poll list from the cursor's station on, cyclically, each once (R11). -/
def visitOrder (l : List StationNo) (cursor : Option StationNo) : List StationNo :=
  match cursor with
  | some c => (l.dropWhile fun x => x != c) ++ (l.takeWhile fun x => x != c)
  | none => l

namespace Part

/-- An exchange begins (R5): the values for the whole exchange are taken, the transmission starts and
nothing on the line is received meanwhile (R1). A stray run ends here and is reported (R21, log 13). -/
def beginExchange (b : Branch) (kind : ExchKind) (n : StationNo) (entry : Option BufNo) (seq : Bool)
    (sent : List (Byte × Bool)) (rd : Option TxRead) (p : Part) : Part :=
  let bs := p.branchSetup b
  let stray := p.endedStray b
  handleAll b stray (modEngine b (fun g =>
    { g with phase := .transmit, spoke := true, sent := sent, txRead := rd, arriving := none
             strayRun := none
             exch := some { kind := kind, station := n, entry := entry, replyWindow := bs.replyWindow,
                            gapLimit := bs.gapLimit, deglitch := bs.deglitch, void := false,
                            endCode := none, seq := seq, reply := Reply.blank } }) p)

/-- A reservation before a POLL (R20); none where the free list is empty. -/
def reserve (b : Branch) (p : Part) : Option Part :=
  if (p.engine b).reservation.isSome then some p
  else match p.allocate with
    | some (buf, q) => some (modEngine b (fun g => { g with reservation := some buf }) q)
    | none => none

/-- A POLL skipped for want of a reservation (R20). -/
def skipPoll (b : Branch) : Part → Part :=
  modEngine b fun g => { g with pollSkipped := satInc 65535 g.pollSkipped }

/-- A POLL to a station, or none where it is skipped (R15, R19, R20). -/
def beginPoll (b : Branch) (kind : ExchKind) (n : StationNo) (p : Part) : Option Part :=
  (p.reserve b).map (beginExchange b kind n none false [ctlChar .poll n] none)

/-- A SEND, or for station 63 a broadcast, of a queue entry (R17, R18). -/
def beginSend (b : Branch) (e : TxEntry) (p : Part) : Part :=
  let seq := if e.target = 63 then false else (p.station b e.target).txSeq
  beginExchange b (if e.target = 63 then .broadcast else .send) e.target (some e.buf) seq
    [ctlChar .send e.target]
    (some { buf := e.buf, ctl := ctlByte seq e.first e.last, got := [] }) p

/-- The oldest entry for a target (R17, R18). -/
def oldestFor (p : Part) (b : Branch) (n : StationNo) : Option TxEntry :=
  (p.engine b).queue.find? fun e => e.target = n

/-- A round that has not spoken leaves the line idle for 1 ms (R10 part 5). -/
def startPadding (b : Branch) : Part → Part := modEngine b fun g => { g with phase := .padding }

/-- The listen slot of a round that has a sweep slot (R14), else the end of the round's parts. The value of
listen_ms taken here is the slot's, whatever a commit puts in force during it (R27). -/
def listenSlot (b : Branch) (fin : Part → Part) (p : Part) : Part :=
  if (p.branchSetup b).listenMs = 0 then fin p
  else
    let stray := p.endedStray b
    handleAll b stray (openGate b (modEngine b (fun g =>
      { g with phase := .listen, spoke := true, strayRun := none
               listen := some (p.branchSetup b).listenMs }) p))

/-- The next ABSENT number after the sweep cursor, counting cyclically over 1 to 62 (R13). -/
def nextAbsent (p : Part) (b : Branch) : Option StationNo :=
  let c := (p.engine b).sweepCursor
  let absent := stationNumbers.filter fun n => (p.station b n).state = .absent
  match absent.find? fun n => c < n.val with
  | some n => some n
  | none => absent.head?

/-- The sweep slot, decided when the visits have ended (R10 part 3, R13). The cursor takes the swept number as its
POLL begins (DESIGN CHOICE, log 46). -/
def sweepSlot (b : Branch) (fin : Part → Part) (p : Part) : Part :=
  let g := p.engine b
  if g.round % (p.branchSetup b).sweepInterval = 0 ∨ g.pollList = [] then
    match p.nextAbsent b with
    | none => listenSlot b fin p
    | some n =>
      match p.reserve b with
      | none => listenSlot b fin (skipPoll b p)
      | some q =>
        beginExchange b .sweep n none false [ctlChar .poll n] none (modEngine b (fun g =>
          { g with sweepCursor := n.val, roundPart := .sweep }) q)
  else fin p

/-- The visits of a round (R10 part 2, R11, R15): stations that have left are passed over, skipped POLLs
count as visits, and the first exchange stops the run. -/
def runVisits (b : Branch) (fin : Part → Part) : List VisitItem → Part → Part
  | [], p => sweepSlot b fin (modEngine b (fun g => { g with order := [] }) p)
  | i :: r, p =>
    if i.left then runVisits b fin r (modEngine b (Engine.afterVisit i) p)
    else
      let q := modEngine b (fun g => { g with order := r, visiting := some i, roundPart := .visits }) p
      match q.oldestFor b i.station with
      | some e => beginSend b e q
      | none =>
        match q.beginPoll b .poll i.station with
        | some t => t
        | none => runVisits b fin r (modEngine b (fun g =>
            { Engine.afterVisit i g with visiting := none }) (skipPoll b q))

/-- The visits begin: the visit order is taken (R11). -/
def beginVisits (b : Branch) (fin : Part → Part) (p : Part) : Part :=
  let g := p.engine b
  runVisits b fin ((visitOrder g.pollList g.cursor).map fun n =>
    { station := n, left := false, next := none }) p

/-- A round begins with its broadcast, if an entry for station 63 is queued (R10 part 1). -/
def beginRound (b : Branch) (fin : Part → Part) (p : Part) : Part :=
  let p1 := modEngine b (fun g => { g with phase := .none, spoke := false }) p
  match p1.oldestFor b 63 with
  | some e => beginSend b e (modEngine b (fun g => { g with roundPart := .broadcast }) p1)
  | none => beginVisits b fin p1

/-- A branch on trial counts its rounds and returns to service (R150 steps 4 and 5). -/
def trialRound (b : Branch) (p : Part) : Part :=
  let w := p.switch b
  if w.state = .onTrial then
    let p1 := modSwitch b (fun w => { w with trial := w.trial + 1 }) p
    if (p.branchSetup b).trialRounds ≤ w.trial + 1 then notify .restored (setSwitch b .inService p1) else p1
  else p

/-- The end of a round is reported (R10 part 6): the supervisor credits it (R130) and the switch counts it. -/
def reportRound (b : Branch) (p : Part) : Part :=
  trialRound b (creditRound b (modEngine b (fun g => { g with phase := .none, round := wrapInc g.round }) p))

/-- The end of a round, after which the next begins (R10). A round that neither speaks nor listens comes to its
padding. -/
def endRound (b : Branch) (p : Part) : Part := beginRound b (startPadding b) (reportRound b p)

/-- The parts of a round are over: padding where it has neither transmitted nor listened (R10). -/
def finishRound (b : Branch) (p : Part) : Part :=
  if (p.engine b).spoke then endRound b p else startPadding b p

/-- The initial sweep over the numbers left (R9); after 62 the rounds begin. -/
def runInitial (b : Branch) : List StationNo → Part → Part
  | [], p => beginRound b (startPadding b) (modEngine b (fun g => { g with state := .rounds }) p)
  | n :: r, p =>
    let q := modEngine b (fun g => { g with initNext := n.val + 1 }) p
    if (p.station b n).state = .absent then
      match q.beginPoll b .sweep n with
      | some t => t
      | none => runInitial b r (skipPoll b q)
    else runInitial b r q

/-- A start request (R9). -/
def startEngine (b : Branch) (p : Part) : Part :=
  if (p.engine b).state = .stopped then
    runInitial b stationNumbers (modEngine b (fun g =>
      { g with state := .initialSweep, phase := .none, initNext := 1 }) p)
  else p

/-- What follows an exchange (R9, R10). -/
def goOn (b : Branch) (p : Part) : Part :=
  let g := p.engine b
  match g.state with
  | .initialSweep => runInitial b (stationNumbers.filter fun n => g.initNext ≤ n.val) p
  | .rounds =>
    match g.roundPart with
    | .broadcast => beginVisits b (finishRound b) p
    | .visits => runVisits b (finishRound b) g.order p
    | .sweep => listenSlot b (finishRound b) p
  | .stopped | .stopping => p

/-- The end of turnaround (R5, R24, R25): an entry owed a code completes, the cursor moves on (R11), and
the engine stops or goes on. -/
def turnaroundEnd (b : Branch) (p : Part) : Part :=
  let g := p.engine b
  if g.phase = .turnaround then
    let p1 := match g.exch.bind fun x => x.endCode, g.queue.find? fun e => g.inFlight = some e.buf with
      | some code, some e => completeEntry b e code p
      | _, _ => p
    let p2 := modEngine b (fun g =>
      let g1 := match g.visiting with
        | some i => Engine.afterVisit i g
        | none => g
      { g1 with exch := none, visiting := none, phase := .none }) p1
    if g.state = .stopping then stopReported b (enterStopped b p2) else goOn b p2
  else p

/-- The end of a transmission (R5, R18): the window opens, or the turnaround begins. It cannot end while
the frame is still being read (R17). -/
def transmissionEnd (b : Branch) (p : Part) : Part :=
  let g := p.engine b
  match g.phase, g.exch with
  | .transmit, some x =>
    if g.txRead.isSome then p
    else if x.kind = .broadcast then
      let p1 := modEngine b (fun g => { g with phase := .turnaround }) p
      match x.endCode, g.queue.find? fun e => x.entry = some e.buf with
      | none, some e => completeEntry b e .broadcastSent p1
      | _, _ => p1
    else modEngine b (fun g => { g with phase := .window }) p
  | .owed, _ => modEngine b (fun g => { g with phase := .turnaround }) p
  | _, _ => p

/-- A character still arriving as its listen slot ends began in a slot that has ended (R125). -/
def ArriveIn.slotEnded : ArriveIn → ArriveIn
  | .slot => .past
  | a => a

/-- The end of a listen slot (R14, R126). Where one of its errors would stop the engine, they are handled at the
judgement and the round does not end (11.1 step 5). Otherwise the end of the round is taken first and they are
handled after its report, as errors of the next round (R130, R139, log 41). -/
def listenEnd (b : Branch) (p : Part) : Part :=
  if (p.engine b).phase = .listen then
    let p1 := modEngine b (fun g =>
      { g with phase := .none, listen := none, arriving := g.arriving.map ArriveIn.slotEnded }) (closeGate b p)
    let errors := p1.gateReports b
    let p2 := handleAll b errors p1
    if (p2.engine b).state = .rounds then
      let p3 := handleAll b errors (reportRound b p1)
      if (p3.engine b).state = .rounds then beginRound b (startPadding b) p3 else p3
    else p2
  else p

/-- The end of the padding (R10). -/
def paddingEnd (b : Branch) (p : Part) : Part :=
  if (p.engine b).phase = .padding then endRound b p else p

/-- A stray run ended by a gap (R21). A gap that ends while a start bit stands, be it one that proves false (R1), does
not end the run, which stands until the event comes again or another end of R21 (DESIGN CHOICE, log 51). -/
def strayEnd (b : Branch) (p : Part) : Part :=
  if (p.engine b).arriving = none then
    handleAll b (p.endedStray b) (modEngine b (fun g => { g with strayRun := none }) p)
  else p

/-- TXENn (R1): asserted while the engine transmits. -/
def txen (p : Part) (b : Branch) : Bool :=
  match (p.engine b).phase with
  | .transmit | .owed => true
  | _ => false

end Part

/-- TRANSMISSION_END (R5). -/
def execTransmissionEnd (b : Branch) (s : State) : Host.Outcome State Fault Refusal :=
  onPart (Part.awake (Part.transmissionEnd b)) s

/-- TURNAROUND_END (R5). -/
def execTurnaroundEnd (b : Branch) (s : State) : Host.Outcome State Fault Refusal :=
  onPart (Part.awake (Part.turnaroundEnd b)) s

/-- LISTEN_SLOT_END (R126). -/
def execListenSlotEnd (b : Branch) (s : State) : Host.Outcome State Fault Refusal :=
  onPart (Part.awake (Part.listenEnd b)) s

/-- PADDING_END (R10). -/
def execPaddingEnd (b : Branch) (s : State) : Host.Outcome State Fault Refusal :=
  onPart (Part.awake (Part.paddingEnd b)) s

/-- STRAY_RUN_END (R21). -/
def execStrayRunEnd (b : Branch) (s : State) : Host.Outcome State Fault Refusal :=
  onPart (Part.awake (Part.strayEnd b)) s

end Sys2Proof.Machine
end

