-- ==== Sys2Proof/Machine/Sense.lean ====
section
/-! DEFINITION. The sense sequencer (R134 to R138) and the pre-check of a restore (R149). -/

namespace Sys2Proof.Machine

/-- The class of a code (R136). -/
def loopClassOf (shortLimit openLimit : Nat) (code : Byte) : LoopClass :=
  if code.toNat < shortLimit then .shorted else if openLimit < code.toNat then .open else .terminated

/-- A relay that moves (R141). -/
def RelayPos.isMoving : RelayPos → Bool
  | .moving _ _ => true
  | .at _ => false

/-- A branch is skipped at PROBE and while its relay moves (R136). -/
def RelayPos.skipped : RelayPos → Bool
  | .at .open | .at .line => false
  | .at .probe | .moving _ _ => true

namespace Part

/-- A period expiry or SENSE_NOW (R135). -/
def senseTrigger : Part → Part :=
  modSense fun q => match q.state with
    | .idle => { q with state := .pending }
    | .pending | .busy => { q with missed := satInc 255 q.missed }

/-- The sequencer reaches each branch of a list in turn: it skips or begins the conversion (R136); after
the last the pass ends. -/
def senseReach : List Branch → Part → Part
  | [], p => modSense (fun q =>
      { q with current := none
               state := if q.checks.toList.any (fun c => c) then .pending else .idle }) p
  | b :: r, p =>
    if (p.switch b).relay.skipped then senseReach r p
    else modSense (fun q => { q with current := some b }) p

/-- A pass begins when no relay is moving (R136). -/
def sensePassStart (p : Part) : Part :=
  if p.sense.state = .pending ∧ ¬ branches.any (fun b => (p.switch b).relay.isMoving) then
    senseReach branches (modSense (fun q =>
      { q with state := .busy, converted := Vector.replicate 4 false }) p)
  else p

/-- The restore timer of a branch entering or staying in ISOLATED starts, unless restore_delay is 0
(R149). -/
def startRestoreTimer (b : Branch) (p : Part) : Part :=
  let d := (p.branchSetup b).restoreDelay
  modSwitch b (fun w => { w with restore := if d = 0 then none else some d }) p

/-- The answer to a restore check (R137, R149 steps 3 and 4). -/
def answerCheck (b : Branch) (c : LoopClass) (p : Part) : Part :=
  let w := p.switch b
  let q := modSwitch b (fun w => { w with check := false })
    (modSense (fun q => { q with checks := put q.checks b false }) p)
  if w.check ∧ w.state = .isolated then
    if c = .terminated ∧ w.verdict ≠ .echo then beginRestore b q else startRestoreTimer b q
  else q

/-- A restore check reaches the sequencer (R135, R137). -/
def askCheck (b : Branch) (p : Part) : Part :=
  let p1 := modSwitch b (fun w => { w with check := true }) p
  if p.sense.state = .busy ∧ p.sense.converted.get b then answerCheck b (p.sense.classes.get b) p1
  else modSense (fun q => { q with checks := put q.checks b true
                                   state := if q.state = .idle then .pending else q.state }) p1

/-- The restore timer expires (R149). -/
def restoreExpiry (b : Branch) (p : Part) : Part :=
  let w := p.switch b
  if w.restore.isSome ∧ w.state = .isolated then
    let p1 := modSwitch b (fun w => { w with restore := none }) p
    if (p.branchSetup b).restoreDelay = 0 then p1 else askCheck b p1
  else p

/-- The report of a loop that has left TERMINATED (R118, R138). -/
def loopReport (p : Part) (b : Branch) (code : Byte) : ErrorReport :=
  { kind := .loopChange, station := 0, chars := [], detail := code.toNat, stamp := (p.engine b).round }

/-- A conversion is complete (R136, R137, R138). -/
def conversionDone (code : Byte) (p : Part) : Part :=
  match p.sense.state, p.sense.current with
  | .busy, some b =>
    let new := loopClassOf p.setup.shortLimit p.setup.openLimit code
    let old := p.sense.classes.get b
    let first := p.sense.firstRun.get b
    let running := (p.switch b).state.running
    let p1 := modSense (fun q =>
      { q with codes := put q.codes b code, classes := put q.classes b new
               converted := put q.converted b true
               firstRun := if running then put q.firstRun b false else q.firstRun }) p
    let p2 := if (old = .terminated ∨ first) ∧ new ≠ .terminated ∧ running then
        handleError b (p.loopReport b code) p1
      else p1
    let p3 := if p2.sense.checks.get b then answerCheck b new p2 else p2
    senseReach (branches.filter fun x => b < x) p3
  | _, _ => p

/-- The period timer expires (R135). -/
def sensePeriodExpiry (p : Part) : Part :=
  if p.sense.period.isSome then
    modSense (fun q => { q with period := if p.setup.sensePeriod = 0 then none
                                          else some p.setup.sensePeriod }) (senseTrigger p)
  else p

end Part

/-- SENSE_PERIOD_EXPIRY (R135). -/
def execSensePeriodExpiry (s : State) : Host.Outcome State Fault Refusal :=
  onPart (Part.awake Part.sensePeriodExpiry) s

/-- SENSE_PASS_START (R136). -/
def execSensePassStart (s : State) : Host.Outcome State Fault Refusal :=
  onPart (Part.awake Part.sensePassStart) s

/-- SENSE_CONVERSION_COMPLETE (R136). -/
def execSenseConversionComplete (code : Byte) (s : State) : Host.Outcome State Fault Refusal :=
  onPart (Part.awake (Part.conversionDone code)) s

/-- RESTORE_TIMER_EXPIRY (R149). -/
def execRestoreTimerExpiry (b : Branch) (s : State) : Host.Outcome State Fault Refusal :=
  onPart (Part.awake (Part.restoreExpiry b)) s

end Sys2Proof.Machine
end

