-- ==== Sys2Proof/Machine/Probe.lean ====
section
/-! DEFINITION. The probe unit (R154 to R158). -/

namespace Sys2Proof.Machine

/-! ## The result (R156 to R158) -/

/-- Two lists agree slot by slot: polarity, and ticks within ±2 (R156). -/
def echoesAgree (first l : List Echo) : Bool :=
  decide (l.length = first.length) &&
    (l.zip first).all fun e => e.1.positive == e.2.positive
      && decide (e.1.tick ≤ e.2.tick + 2) && decide (e.2.tick ≤ e.1.tick + 2)

/-- The result is STABLE (R156). -/
def probeStable (lists : List (List Echo)) : Bool :=
  match lists with
  | [] => true
  | first :: r => r.all (echoesAgree first)

/-- The averaged tick of slot `i` over the lists, rounded half up (R156). -/
def averageTick (lists : List (List Echo)) (i : Nat) : Nat :=
  let ticks := lists.map fun l => ((l[i]?).map fun e => e.tick).getD 0
  (ticks.sum + lists.length / 2) / lists.length

/-- The echo list with tavg in each slot (R156). -/
def echoList (lists : List (List Echo)) : List Echo :=
  match lists with
  | [] => []
  | first :: _ =>
    if probeStable lists then
      first.mapIdx fun i e => { e with tick := averageTick lists i }
    else first

/-- The distance of a tick, in decimetres (R157). -/
def echoDistance (k offset tavg : Nat) : Nat := ((tavg - offset) * k + 8) / 16

/-- The classification and the distance recorded (R158), from the first slot; lengths in metres. -/
def classify (expected tolerance : Nat) (l : List (Echo × Nat)) : ProbeClass × Nat :=
  match l with
  | [] => (.noEcho, 0)
  | (e, d) :: _ =>
    if !e.positive then (.shortAt, d)
    else if d + 10 * tolerance < 10 * expected then (.openAt, d)
    else if d ≤ 10 * expected + 10 * tolerance then (.endUnterminated, d)
    else (.long, d)

/-- The probe result record (R158). -/
def probeResult (u : ProbeUnit) (byHost : Bool) (round : Nat) : ProbeRecord :=
  let echoes := (echoList u.lists).map fun e => (e, echoDistance u.values.k u.values.zero e.tick)
  let (cls, d) := classify u.values.expected u.values.tolerance echoes
  { valid := true, cls := cls, distance := d, stable := probeStable u.lists, overflow := u.overflow,
    byHost := byHost, count := u.values.count, round := round, echoes := echoes }

/-- The verdict a record gives the switch (R149, R158). -/
def ProbeRecord.verdict (r : ProbeRecord) : Verdict :=
  if r.cls = .noEcho ∧ r.stable then .clear else .echo

/-! ## Crossings (R155) -/

/-- A positive crossing has been seen: with both comparators the positive one is recorded. -/
def risePositive : EchoRise → Bool
  | .positive | .both => true
  | .negative => false

/-- A crossing in an open window (R155): before blank_ticks it is passed over, at a tick already seen it
is the same crossing, which is positive if either was, and a fifth sets the overflow flag. -/
def ProbeUnit.crossing (t : Nat) (rise : EchoRise) (u : ProbeUnit) : ProbeUnit :=
  match u.window with
  | none => u
  | some l =>
    if t < u.values.blank then u
    else if u.lastTick = some t then
      if risePositive rise then
        { u with window := some (l.map fun e => if e.tick = t then { e with positive := true } else e) }
      else u
    else if u.lastTick.any (fun x => t < x) then u
    else if l.length < 4 then
      { u with window := some (l ++ [{ positive := risePositive rise, tick := t }]), lastTick := some t }
    else { u with overflow := true, lastTick := some t }

/-- A pulse rises and its window opens (R155). -/
def ProbeUnit.pulse (u : ProbeUnit) : ProbeUnit :=
  { u with state := .pulsing, pulses := u.pulses + 1, ppulse := true, window := some [], lastTick := none }

namespace Part

/-- A switch asks the probe unit for a probe (R146, R151, R154). -/
def askProbe (b : Branch) (back : ReturnState) (byHost : Bool) (p : Part) : Part :=
  modProbe (fun u => { u with queue := u.queue ++ [b] })
    (modSwitch b (fun w => { w with back := some back, byHost := byHost, restore := none })
      (setSwitch b .probing p))

/-- The unit takes the branch at the head of its queue (R154 steps 1 and 2). -/
def probeStart (p : Part) : Part :=
  match p.probe.state, p.probe.queue with
  | .idle, b :: _ =>
    let bs := p.branchSetup b
    assertProbe b (modProbe (fun u =>
      { u with state := .arming, lists := [], window := none, lastTick := none, overflow := false
               pulses := 0, ppulse := false
               values := { count := bs.probeCount, blank := bs.blankTicks, zero := bs.zeroOffset,
                           k := bs.k, expected := bs.expectedLength, tolerance := bs.tolerance } }) p)
  | _, _ => p

/-- A later pulse (R155); the first rises with the relay's arrival at PROBE. -/
def probePulse : Part → Part :=
  modProbe fun u =>
    if u.state = .pulsing ∧ u.window = none ∧ u.pulses < u.values.count then u.pulse else u

/-- A capture window closes at tick 4095; after the last the relay goes back to OPEN (R154 step 4, R155). -/
def windowEnd (p : Part) : Part :=
  match p.probe.window, p.probe.queue with
  | some l, b :: _ =>
    if p.probe.ppulse then p
    else
      let last := decide (p.probe.values.count ≤ p.probe.pulses)
      let q := modProbe (fun u => { u with lists := u.lists ++ [l], window := none, lastTick := none
                                           state := if last then .releasing else u.state }) p
      if last then moveOpen b q else q
  | _, _ => p

/-- The relay is back at OPEN after a probe (R154 step 5). -/
def probeDone (b : Branch) (p : Part) : Part :=
  let r := probeResult p.probe (p.switch b).byHost (p.engine b).round
  let p1 := writeProbe b { p with records := put p.records b r
                                  probe := { ProbeUnit.blank with queue := p.probe.queue.tail } }
  let p2 := modSwitch b (fun w => { w with verdict := r.verdict }) p1
  let w := p2.switch b
  if w.dest = some .disabled then disabledEntry b p2
  else
    let p3 := modSwitch b (fun w => { w with back := none }) p2
    if w.back = some .lockedOut then setSwitch b .lockedOut p3
    else startRestoreTimer b (setSwitch b .isolated p3)

end Part

/-- PROBE_START (R154). -/
def execProbeStart (s : State) : Host.Outcome State Fault Refusal :=
  onPart (Part.awake Part.probeStart) s

/-- PROBE_PULSE (R155). -/
def execProbePulse (s : State) : Host.Outcome State Fault Refusal :=
  onPart (Part.awake Part.probePulse) s

/-- PROBE_PULSE_END (R155). -/
def execProbePulseEnd (s : State) : Host.Outcome State Fault Refusal :=
  onPart (Part.awake (Part.modProbe fun u => { u with ppulse := false })) s

/-- ECHO_CROSSING (R155). -/
def execEchoCrossing (tick : BitVec 12) (rise : EchoRise) (s : State) :
    Host.Outcome State Fault Refusal :=
  onPart (Part.awake (Part.modProbe (ProbeUnit.crossing tick.toNat rise))) s

/-- CAPTURE_WINDOW_END (R155). -/
def execCaptureWindowEnd (s : State) : Host.Outcome State Fault Refusal :=
  onPart (Part.awake Part.windowEnd) s

end Sys2Proof.Machine
end

