-- ==== Sys2Proof/Machine/Relay.lean ====
section
/-! DEFINITION. The events of a branch switch: the end of a relay movement, the relay fault, the attention
button and the indicator (R141 to R152). -/

namespace Sys2Proof.Machine

namespace Part

/-- The branch begins to run from CLOSING (R138, R143, R150). -/
def beginRunning (b : Branch) (p : Part) : Part :=
  let q := modSense (fun q => { q with firstRun := put q.firstRun b true }) p
  match (q.switch b).closingFor with
  | .enable => startEngine b (zeroScore b (setSwitch b .inService q))
  | .restore =>
    startEngine b (trialScore b (setSwitch b .onTrial (modSwitch b (fun w => { w with trial := 0 }) q)))

/-- The relay has reached LINE (R143, R148, R150). Under a disable the engine is not started, so its stop
is reported at once; a probe verdict of the restore so cut off stands until the entry to DISABLED, the way through
DRAINING leaving it (DESIGN CHOICE, log 53). -/
def lineReached (b : Branch) (p : Part) : Part :=
  if (p.switch b).state = .closing then
    if (p.switch b).dest = some .disabled then stopRequest b (setSwitch b .draining p)
    else beginRunning b p
  else p

/-- The isolation settles (R146). -/
def settleIsolation (b : Branch) (p : Part) : Part :=
  let w := p.switch b
  if w.dest = some .disabled then disabledEntry b p
  else
    let n := satInc 7 w.isolations
    let out := decide (w.dest = some .lockedOut) || decide ((p.branchSetup b).restoreLimit ≤ n)
    let p1 := modSwitch b (fun w =>
      { w with dest := none
               isolations := if w.dest = some .lockedOut then w.isolations else n }) p
    let p2 := notify .isolated
      (if out then setSwitch b .lockedOut p1 else startRestoreTimer b (setSwitch b .isolated p1))
    if (p.branchSetup b).autoProbe then askProbe b (if out then .lockedOut else .isolated) false p2 else p2

/-- The relay has reached OPEN (R146, R154). -/
def openReached (b : Branch) (p : Part) : Part :=
  match (p.switch b).state with
  | .opening => settleIsolation b p
  | .probing => probeDone b p
  | _ => p

/-- The relay has reached PROBE: the first pulse rises (R154 step 3, R155). -/
def probeReached (b : Branch) (p : Part) : Part :=
  if p.probed b then modProbe ProbeUnit.pulse p else p

/-- A frame that the engine of the branch has offered is undecided (R16, R26). -/
def undecided (p : Part) (b : Branch) : Bool := p.router.offers.any fun o => o.branch = b

/-- The end of a relay movement (R141). A movement to LINE takes milliseconds, and so does not end while a frame offered
before an abort is undecided: the event has no effect then (DESIGN CHOICE, log 54). -/
def relaySettle (b : Branch) (p : Part) : Part :=
  match (p.switch b).relay with
  | .at _ => p
  | .moving t _ =>
    if t = .line && p.undecided b then p else
    let q := modSwitch b (fun w => { w with relay := .at t }) p
    match t with
    | .line => lineReached b q
    | .open => openReached b q
    | .probe => probeReached b q

/-- The fault input takes a level (R141, R147): it is watched while a drive is asserted. -/
def relayFault (b : Branch) (low : Bool) (p : Part) : Part :=
  let q := modSwitch b (fun w => { w with rflt := low }) p
  if low && ((p.switch b).rline || (p.switch b).rprobe) then takeFault b q else q

/-- What a press does to one switch (R152). -/
def pressBranch (b : Branch) (p : Part) : Part :=
  match (p.switch b).state with
  | .inService | .onTrial => requestIsolation b .button .lockedOut p
  | .isolated | .lockedOut => takeRestore b p
  | _ => p

/-- A press of the attention button (R152). It acts on the switches in increasing branch number (DESIGN CHOICE,
log 47). -/
def buttonPress (p : Part) : Part :=
  if p.button then each branches pressBranch (notify .button { p with button := false }) else p

/-- The flash timer of an indicator (R142). -/
def flashToggle (b : Branch) : Part → Part :=
  modSwitch b fun w => match w.state.lamp with
    | .slow | .fast => { w with lamp := !w.lamp }
    | .on | .off => w

end Part

/-- RELAY_SETTLE (R141). -/
def execRelaySettle (b : Branch) (s : State) : Host.Outcome State Fault Refusal :=
  onPart (Part.awake (Part.relaySettle b)) s

/-- RELAY_FAULT (R147). While /RESET holds the part the drives are released and the level alone is
followed. -/
def execRelayFault (b : Branch) (low : Bool) (s : State) : Host.Outcome State Fault Refusal :=
  onPart (Part.relayFault b low) s

/-- BUTTON_PRESS (R152). -/
def execButtonPress (s : State) : Host.Outcome State Fault Refusal :=
  onPart (Part.awake Part.buttonPress) s

/-- ATTENTION_BUTTON_RELEASE (R152). -/
def execAttentionButtonRelease (s : State) : Host.Outcome State Fault Refusal :=
  onPart (fun p => { p with button := true }) s

/-- INDICATOR_FLASH_TOGGLE (R142). -/
def execIndicatorFlashToggle (b : Branch) (s : State) : Host.Outcome State Fault Refusal :=
  onPart (Part.awake (Part.flashToggle b)) s

end Sys2Proof.Machine
end

