-- ==== Sys2Proof/Machine/BranchCommands.lean ====
section
/-! DEFINITION. The host's commands on a branch, its supervisor and the sense sequencer (R120, R124, R135,
R151). -/

namespace Sys2Proof.Machine

namespace Part

/-- BRANCH_SEL (R151). A refusal records its own code 0x0B (R162, R185, 10.4) and not that of BRANCH_ACTION, which R151
gives for "each refusal" (DESIGN CHOICE, log 57). -/
def selectBranch (v : Byte) (p : Part) : Part :=
  match branchArg v with
  | none => refuse .badArgument 0x0B p
  | some b => { p with branchSel := b }

/-- ISOLATE of the branch held (R151). -/
def isolate (p : Part) : Part :=
  let b := p.branchSel
  match (p.switch b).state with
  | .inService | .onTrial => requestIsolation b .host .lockedOut p
  | .closing | .draining | .opening | .probing => refuse .busy 0x0C p
  | .isolated | .lockedOut | .disabled => refuse .badState 0x0C p

/-- RESTORE of the branch held (R151). -/
def restore (p : Part) : Part :=
  let b := p.branchSel
  match (p.switch b).state with
  | .isolated | .lockedOut => takeRestore b p
  | .closing | .draining | .opening | .probing => refuse .busy 0x0C p
  | .inService | .onTrial | .disabled => refuse .badState 0x0C p

/-- PROBE of the branch held (R151). -/
def probeByHost (p : Part) : Part :=
  let b := p.branchSel
  match (p.switch b).state with
  | .isolated => askProbe b .isolated true p
  | .lockedOut => askProbe b .lockedOut true p
  | .closing | .draining | .opening | .probing => refuse .busy 0x0C p
  | .inService | .onTrial | .disabled => refuse .badState 0x0C p

/-- CAPTURE_RELEASE (R124). -/
def captureRelease (v : Byte) (p : Part) : Part :=
  match branchArg v with
  | none => refuse .badArgument 0x0D p
  | some b => releaseCapture b p

/-- CLEAR_COUNTERS of a branch (R20, R23, R60, R120). -/
def clearBranchCounters (b : Branch) (p : Part) : Part :=
  modRouter (fun r => { r with unroutable := put r.unroutable b 0 })
    (modEngine b (fun g => { g with pollSkipped := 0, relayDropped := 0 })
      (modSup b (fun s => { s with kinds := Vector.replicate 8 0 }) p))

/-- CLEAR_COUNTERS (R120). -/
def clearCounters (v : Byte) (p : Part) : Part :=
  match branchArg v with
  | none => refuse .badArgument 0x0E p
  | some b => clearBranchCounters b p

end Part

/-- BRANCH_SEL (R151). -/
def execBranchSel (v : Byte) (s : State) : Host.Outcome State Fault Refusal :=
  onPart (Part.command 0x0B (Part.selectBranch v)) s

/-- ISOLATE (R151). -/
def execIsolate (s : State) : Host.Outcome State Fault Refusal :=
  onPart (Part.command 0x0C Part.isolate) s

/-- RESTORE (R151). -/
def execRestore (s : State) : Host.Outcome State Fault Refusal :=
  onPart (Part.command 0x0C Part.restore) s

/-- PROBE (R151). -/
def execProbe (s : State) : Host.Outcome State Fault Refusal :=
  onPart (Part.command 0x0C Part.probeByHost) s

/-- CAPTURE_RELEASE (R124). -/
def execCaptureRelease (v : Byte) (s : State) : Host.Outcome State Fault Refusal :=
  onPart (Part.command 0x0D (Part.captureRelease v)) s

/-- CLEAR_COUNTERS (R120). -/
def execClearCounters (v : Byte) (s : State) : Host.Outcome State Fault Refusal :=
  onPart (Part.command 0x0E (Part.clearCounters v)) s

/-- SENSE_NOW (R135). -/
def execSenseNow (_v : Byte) (s : State) : Host.Outcome State Fault Refusal :=
  onPart (Part.command 0x11 Part.senseTrigger) s

end Sys2Proof.Machine
end

