-- ==== Sys2Proof/Machine/Setup.lean ====
section
/-! DEFINITION. The setup loader (R176 to R181, R186 to R190): the resets, start-up initialisation, and the
four phases of a commit. -/

namespace Sys2Proof.Machine

/-! ## Start-up initialisation (R187, R188) -/

/-- One memory cycle of start-up initialisation. -/
inductive InitCycle
  | read (a : Nat)
  | write (a : Nat) (v : Byte)
  deriving DecidableEq, Repr

/-- The images R187 writes from step 5 on, in order: base, length and content. A probe result record that is not valid
is written as 32 zero bytes (DESIGN CHOICE, log 56). -/
def laterImages : List (Nat × Nat × (Nat → Byte)) :=
  [(Config.stationBase, 4096, fun _ => 0),
    (Config.jobBase, 1024, fun i => if i % 32 = 17 then BitVec.ofNat 8 (i / 32) else 0),
    (Config.captureBase, 128, fun _ => 0),
    (Config.probeBase, 128, fun _ => 0),
    (Config.fromTrunkBase, 2048, fun _ => 0),
    (Config.toTrunkBase, 1024, fun _ => 0),
    (Config.submitBase, 256, fun _ => 0)]

/-- All the images of R187, in order. -/
def allImages : List (Nat × Nat × (Nat → Byte)) :=
  [(Config.setupBase, 512, fun i => byteAt (setupImage Setup.default) i),
    (Config.unitBase, 1024, fun i => byteAt (unitImage UnitEntry.blank) (i % 4)),
    (Config.nodeBase, 512, fun i => byteAt (nodeImage NodeEntry.blank) (i % 8)),
    (Config.grantBase, 96, fun i => BitVec.ofNat 8 (i % 32 % 5))] ++ laterImages

/-- The write at position `pos` of a run of images. -/
def imageCycle : List (Nat × Nat × (Nat → Byte)) → Nat → Option InitCycle
  | [], _ => none
  | (base, n, f) :: r, pos => if pos < n then some (.write (base + pos) (f pos)) else imageCycle r (pos - n)

/-- The cycle at position `pos` of an initialisation, with the tables as far as they are reloaded. After
SOFT_RESET the unit map and the node list are read and written back entry by entry (R50, R188). -/
def Part.initCycle (p : Part) (soft : Bool) (pos : Nat) : Option InitCycle :=
  if !soft then imageCycle allImages pos
  else if pos < 2048 then
    let u := pos / 8
    let k := pos % 8
    if k < 4 then some (.read (Config.unitBase + 4 * u + k))
    else some (.write (Config.unitBase + 4 * u + (k - 4))
      (byteAt (unitImage (p.units.get (Fin.ofNat 256 u))) (k - 4)))
  else if pos < 3072 then
    let n := (pos - 2048) / 16
    let k := (pos - 2048) % 16
    if k < 8 then some (.read (Config.nodeBase + 8 * n + k))
    else some (.write (Config.nodeBase + 8 * n + (k - 8))
      (byteAt (nodeImage (p.nodes.get (Fin.ofNat 64 n))) (k - 8)))
  else imageCycle laterImages (pos - 3072)

namespace Part

/-- A byte of an entry has been read; the entry is taken with its last byte (R50). -/
def takeInitByte (pos : Nat) (entry : List Byte) (v : Byte) (p : Part) : Part :=
  let l := entry ++ [v]
  if pos < 2048 then
    if pos % 8 = 3 then
      { p with units := put p.units (Fin.ofNat 256 (pos / 8)) (reloadUnit l)
               loader := { p.loader with task := .initialise true (pos + 1) [] } }
    else { p with loader := { p.loader with task := .initialise true (pos + 1) l } }
  else if pos % 16 = 7 then
    { p with nodes := put p.nodes (Fin.ofNat 64 ((pos - 2048) / 16)) (readNode l)
             loader := { p.loader with task := .initialise true (pos + 1) [] } }
  else { p with loader := { p.loader with task := .initialise true (pos + 1) l } }

/-- The end of start-up initialisation (R186). -/
def initDone (p : Part) : Part :=
  match p.loader.task with
  | .initialise soft pos _ =>
    if Config.initCycles soft ≤ pos then
      let sp := p.setup.sensePeriod
      notify .readyDone (modSense (fun q => { q with period := if sp = 0 then none else some sp })
        { p with loader := { startState := .ready, task := .idle } })
    else p
  | _ => p

/-! ## Resets (R175, R190) -/

/-- What a reset leaves: every block at its reset state; what stands outside the part (the levels of its
inputs, the host bus) and the count of free values drawn are not reset (log 4, log 34). -/
def afterReset (held : Bool) (task : LoaderTask) (p : Part) : Part :=
  { Part.initial task with
    held := held
    engines := p.engines.map fun g => Engine.blank g.rxLevel
    ports := p.ports.map fun t => PrinterPort.blank t.deselected t.paperOut t.fault
    switches := p.switches.map fun w => Switch.blank w.rflt
    button := p.button
    hostData := p.hostData
    draws := p.draws }

/-- The task a power-on or pin reset begins: INIT, once /RESET is high (R186). -/
def hardTask (held : Bool) : LoaderTask := if held then .idle else .initialise false 0 []

/-- The reset of SOFT_RESET: the unit map and node list stand until the reload takes each entry (R50,
R188, log 33). -/
def softReset (p : Part) : Part :=
  if p.busFree then
    { afterReset false (.initialise true 0 []) p with units := p.units, nodes := p.nodes }
  else p

/-- /RESET rises (R186). -/
def resetRelease (p : Part) : Part :=
  if p.held then
    { p with held := false, loader := { p.loader with task := .initialise false 0 [] } }
  else p

/-! ## Commit (R177 to R180) -/

/-- COMMIT (R177). -/
def commit (p : Part) : Part :=
  match p.loader.task with
  | .idle => { p with loader := { p.loader with task := .reading [] } }
  | _ => refuse .busy 0x01 p

/-- The clamping phase (R178, R46), once the 512 bytes are read. -/
def commitRead (p : Part) : Part :=
  match p.loader.task with
  | .reading l =>
    if Config.setupBytes ≤ l.length then
      { p with loader := { p.loader with
          task := .writing (readSetup p.setup.derivedPrefix p.assignedAddrs l) 0 } }
    else p
  | _ => p

/-- A branch whose enable has changed (R143, R148). -/
def applyBranch (old : BitVec 4) (b : Branch) (p : Part) : Part :=
  let was := old.getLsbD b.val
  let now := p.setup.branchEnable.getLsbD b.val
  if now && !was then enableBranch b p else if was && !now then disableBranch b p else p

/-- A printer whose enable has changed (R109); a disable may take the submission walk's job (R92). -/
def applyPrinter (old : Vector PrinterSetup 3) (k : Port) (p : Part) : Part :=
  let was := (old.get k).enable
  let now := (p.printerSetup k).enable
  if now && !was then enablePort k p else if was && !now then checkSubmitJob (disablePort k p) else p

/-- The timers that a commit may start: the sense period (R135) and the restore timers (R149, log 17). -/
def startStoppedTimers (p : Part) : Part :=
  let p1 := if p.sense.period.isNone && decide (p.setup.sensePeriod ≠ 0) then
      modSense (fun q => { q with period := some p.setup.sensePeriod }) p
    else p
  each branches (fun b q =>
    if (q.switch b).state = .isolated ∧ (q.switch b).restore = none then startRestoreTimer b q else q) p1

/-- The application phase (R180). The end of the commit is one of the events of R92. -/
def applyCommit (next : Setup) (p : Part) : Part :=
  let old := p.setup
  let p1 := { p with setup := next, loader := { p.loader with task := .idle } }
  let p2 := each branches (applyBranch old.branchEnable) p1
  let p3 := each printerPorts (applyPrinter old.printer) p2
  let p4 := submitEvent (startStoppedTimers p3)
  notify .readyDone { p4 with loader := { p4.loader with
    startState := if p4.loader.startState = .ready then .running else p4.loader.startState } }

end Part

/-- COMMIT (R177). -/
def execCommit (_v : Byte) (s : State) : Host.Outcome State Fault Refusal :=
  onPart (Part.command 0x01 Part.commit) s

/-- COMMIT_READ_COMPLETE (R178). -/
def execCommitReadComplete (s : State) : Host.Outcome State Fault Refusal :=
  onPart (Part.awake Part.commitRead) s

/-- SOFT_RESET (R188). It alone of the command words is taken during INIT (R189). -/
def execSoftReset (_v : Byte) (s : State) : Host.Outcome State Fault Refusal :=
  onPart Part.softReset s

/-- PIN_RESET_RELEASE (R186). -/
def execPinResetRelease (s : State) : Host.Outcome State Fault Refusal := onPart Part.resetRelease s

/-- INITIALISATION_COMPLETE (R186). -/
def execInitialisationComplete (s : State) : Host.Outcome State Fault Refusal :=
  onPart (Part.awake Part.initDone) s

end Sys2Proof.Machine
end

