-- ==== Sys2Proof/Machine/Snapshot.lean ====
section
/-! DEFINITION. The live words and the snapshot window (R163, R164, R172 to R174, R183; 10.4, 10.9), and what a
host read of the control page returns. -/

namespace Sys2Proof.Machine

/-! ## Snapshot window -/

/-- A list of bytes cut or filled with 0 to 30 bytes, with the index and the kind (10.9). -/
def windowBytes (l : List Byte) (index : Byte) (k : SnapKind) : Vector Byte 32 :=
  Vector.ofFn fun i =>
    if i.val = 30 then index else if i.val = 31 then BitVec.ofNat 8 k.code else byteAt l i.val

/-- A snapshot kind code (R172). -/
def snapKindArg (v : Byte) : Option SnapKind :=
  match v.toNat with
  | 0 => some .station
  | 1 => some .job
  | 2 => some .branch
  | _ => none

namespace Part

/-- The record a STATION snapshot copies (R173). -/
def stationSnap (p : Part) (i : Fin 256) : List Byte :=
  let st := p.stations.get i
  stationLow st ++ stationHigh st

/-- The record a JOB snapshot copies, with the byte in handshake where the job is PRINTING (R173, 10.9). -/
def jobSnap (p : Part) (j : JobNo) : List Byte :=
  let x := p.job j
  let h := if x.state = .printing then (p.port x.printer).handshake else none
  jobFields j x ++ [BitVec.ofNat 8 (flagBit x.abortPending 0 + flagBit h.isSome 1), h.getD 0]

/-- The values a BRANCH snapshot copies (R173, 10.9). -/
def branchSnap (p : Part) (b : Branch) : List Byte :=
  let g := p.engine b
  (p.sup b).kinds.toList.flatMap le16
  ++ le16 g.pollSkipped ++ le16 (p.router.unroutable.get b) ++ le16 g.relayDropped ++ le16 g.round
  ++ [BitVec.ofNat 8 g.pollList.length, BitVec.ofNat 8 ((g.cursor.map fun n => n.val).getD 0),
    BitVec.ofNat 8 g.sweepCursor, BitVec.ofNat 8 g.queue.length, BitVec.ofNat 8 g.state.code]

/-- The record an index names for the held kind; none where it is out of range (R173). -/
def snapRecord (p : Part) (v : Byte) : Option (List Byte) :=
  match p.snap.kind with
  | .station => some (p.stationSnap v.toFin)
  | .job => if h : v.toNat < 32 then some (p.jobSnap ⟨v.toNat, h⟩) else none
  | .branch => if h : v.toNat < 4 then some (p.branchSnap ⟨v.toNat, h⟩) else none

/-- SNAP_KIND (R172). -/
def setSnapKind (v : Byte) (p : Part) : Part :=
  match snapKindArg v with
  | some k => modSnap (fun q => { q with kind := k }) p
  | none => refuse .badArgument 0x0F p

/-- SNAP_INDEX (R173). -/
def takeSnapshot (v : Byte) (p : Part) : Part :=
  match p.snapRecord v with
  | none => refuse .badArgument 0x10 p
  | some l =>
    if p.snap.held then p
    else modSnap (fun q => { q with held := true, content := windowBytes l v q.kind }) p

/-! ## Live words -/

/-- LAST_REFUSAL: the reason in the low byte, the code in the high byte (10.4). -/
def refusalWord (p : Part) : BitVec 16 := p.notices.code ++ (BitVec.ofNat 8 (reasonCode p.notices.reason))

/-- SCOREb (10.4). -/
def scoreWord (p : Part) (b : Branch) : BitVec 16 :=
  BitVec.ofNat 16 ((p.sup b).score + flagBit (p.sup b).warn 15)

/-- BRANCH_STATEb (10.4, R153). -/
def branchWord (p : Part) (b : Branch) : BitVec 16 :=
  let w := p.switch b
  BitVec.ofNat 16 (w.state.code + 16 * w.relay.code
    + 256 * (w.isolations + 8 * isoReasonCode w.reason + 64 * w.verdict.code))

/-- The first byte of a live word's copy goes out on the data bus (R164). -/
def drive (v : Byte) (p : Part) : Part := { p with hostData := v }

/-- The capture of a live word at a read of its first byte (R164). -/
def captureWord : LiveWord → Part → Part
  | .lastRefusal, p =>
    drive (p.refusalWord.truncate 8) (modLive (fun q => { q with refusal := p.refusalWord }) p)
  | .lastBlocked, p =>
    drive (p.lastBlocked.truncate 8) (modLive (fun q => { q with blocked := p.lastBlocked.zeroExtend 24 }) p)
  | .freeCount, p =>
    drive (BitVec.ofNat 8 p.freeCount) (modLive (fun q => { q with free := BitVec.ofNat 16 p.freeCount }) p)
  | .score b, p =>
    drive ((p.scoreWord b).truncate 8) (modLive (fun q => { q with score := put q.score b (p.scoreWord b) }) p)
  | .branchState b, p =>
    drive ((p.branchWord b).truncate 8)
      (modLive (fun q => { q with branch := put q.branch b (p.branchWord b) }) p)

/-- A read of SUMMARY_LO (R183): the latches are captured and those captured on go off. -/
def summaryRead (p : Part) : Part :=
  drive (p.notices.latches.truncate 8)
    (modNotices (fun n => { n with latches := 0 })
      (modLive (fun q => { q with summary := p.notices.latches }) p))

/-- A read of SENSE_MISSED (R134). -/
def senseMissedRead (p : Part) : Part :=
  drive (BitVec.ofNat 8 p.sense.missed) (modSense (fun q => { q with missed := 0 }) p)

/-- A read of byte 31 of the window (R174). -/
def lastByteRead (p : Part) : Part :=
  drive (p.snap.content.get 31) (modSnap (fun q => { q with held := false }) p)

/-- A host read of the control page: while /RESET is low it returns 0 (R186). -/
def readCommand (f : Part → Part) (p : Part) : Part :=
  if p.held then drive 0 p else if p.hostWait.isSome then p else f p

/-- What a host read of an address of the control page returns (R160, R163, R164; 10.4). The first byte of
a word of two or three bytes is the byte its capture would show. -/
def controlRead (p : Part) (a : Nat) : Byte :=
  let word (w : BitVec 16) (i : Nat) : Byte := byteOf w.toNat i
  if a = 0x40 then word p.notices.latches 0
  else if a = 0x41 then word p.live.summary 1
  else if a = 0x42 then p.topCause
  else if a = 0x43 then BitVec.ofNat 8 p.loader.startState.code
  else if a = 0x44 then word p.refusalWord 0
  else if a = 0x45 then word p.live.refusal 1
  else if a = 0x46 then byteOf p.lastBlocked.toNat 0
  else if a = 0x47 ∨ a = 0x48 then byteOf p.live.blocked.toNat (a - 0x46)
  else if a = 0x49 then
    BitVec.ofNat 8 ((printerPorts.map fun k => flagBit (p.port k).loadPending k.val).sum)
  else if a = 0x4A then BitVec.ofNat 8 p.freeCount
  else if a = 0x4B then word p.live.free 1
  else if 0x4C ≤ a ∧ a < 0x54 then
    let b : Branch := Fin.ofNat 4 ((a - 0x4C) / 2)
    if a % 2 = 0 then word (p.scoreWord b) 0 else word (p.live.score.get b) 1
  else if 0x54 ≤ a ∧ a < 0x5C then
    let b : Branch := Fin.ofNat 4 ((a - 0x54) / 2)
    if a % 2 = 0 then word (p.branchWord b) 0 else word (p.live.branch.get b) 1
  else if 0x5C ≤ a ∧ a < 0x5F then
    let t := p.port (Fin.ofNat 3 (a - 0x5C))
    BitVec.ofNat 8 (t.state.code + flagBit t.redirected 7)
  else if a = 0x5F then
    BitVec.ofNat 8 ((branches.map fun b => 4 ^ b.val * (p.sense.classes.get b).code).sum)
  else if 0x60 ≤ a ∧ a < 0x64 then p.sense.codes.get (Fin.ofNat 4 (a - 0x60))
  else if a = 0x64 then BitVec.ofNat 8 p.sense.state.code
  else if a = 0x65 then BitVec.ofNat 8 p.sense.missed
  else if a = 0x66 then BitVec.ofNat 8 (flagBit p.snap.held 0 + 2 * (p.snap.content.get 31).toNat)
  else if 0xE0 ≤ a ∧ a < 0x100 then p.snap.content.get (Fin.ofNat 32 (a - 0xE0))
  else 0

end Part

/-- SNAP_KIND (R172). -/
def execSnapKind (v : Byte) (s : State) : Host.Outcome State Fault Refusal :=
  onPart (Part.command 0x0F (Part.setSnapKind v)) s

/-- SNAP_INDEX (R173). -/
def execSnapIndex (v : Byte) (s : State) : Host.Outcome State Fault Refusal :=
  onPart (Part.command 0x10 (Part.takeSnapshot v)) s

/-- SUMMARY_LO_READ (R183). -/
def execSummaryLoRead (s : State) : Host.Outcome State Fault Refusal :=
  onPart (Part.readCommand Part.summaryRead) s

/-- LIVE_WORD_FIRST_BYTE_READ (R164). -/
def execLiveWordFirstByteRead (w : LiveWord) (s : State) : Host.Outcome State Fault Refusal :=
  onPart (Part.readCommand (Part.captureWord w)) s

/-- SENSE_MISSED_READ (R134). -/
def execSenseMissedRead (s : State) : Host.Outcome State Fault Refusal :=
  onPart (Part.readCommand Part.senseMissedRead) s

/-- SNAPSHOT_WINDOW_LAST_BYTE_READ (R174). -/
def execSnapshotWindowLastByteRead (s : State) : Host.Outcome State Fault Refusal :=
  onPart (Part.readCommand Part.lastByteRead) s

end Sys2Proof.Machine
end

