-- ==== Sys2Proof/Machine/HostPort.lean ====
section
/-! DEFINITION. The host's side of the memory path (R160, R161, R165 to R167, R171): the class of a write, the
wait line, triggers, and the resets that end a waiting access (R175). -/

namespace Sys2Proof.Machine

/-- What a host write meets (R160). -/
inductive WriteClass
  | command | ignored | blocked | passes
  deriving DecidableEq, Repr

/-- The address lies in a range. -/
def within (lo hi a : Nat) : Bool := decide (lo ≤ a) && decide (a < hi)

/-- The images that only the part writes: capture, job and probe result images (R165). -/
def partImage (a : Nat) : Bool := within 0x00980 0x00E80 a

/-- Bytes 7-15 of a station image (R165). -/
def stationFields (a : Nat) : Bool := within 0x01000 0x02000 a && decide (7 ≤ a % 16)

/-- The regions whose writes are blocked during start-up initialisation (R160, R165). -/
def initRegion (a : Nat) : Bool := within 0x00100 0x00960 a || within 0x01000 0x02D00 a

/-- A write into pool buffer `a`: allowed in the host-held set alone (R57, R166). -/
def poolHeld (p : Part) (a : Nat) : Bool :=
  p.pool.hostHeld.contains (Fin.ofNat 256 ((a - Config.poolBase) / Config.bufferBytes))

/-- The class of a host write (R160). -/
def writeClass (p : Part) (a : Nat) : WriteClass :=
  if a < 0x100 then (if 0x01 ≤ a ∧ a ≤ 0x11 then .command else .ignored)
  else if partImage a || stationFields a then .blocked
  else if initRegion a && decide (p.loader.startState = .init) then .blocked
  else if Config.poolBase ≤ a ∧ !poolHeld p a then .blocked
  else .passes

namespace Part

/-- The setup block is being written back (R171, R179). -/
def setupWritten (p : Part) (a : Nat) : Bool :=
  match p.loader.task with
  | .writing _ pos => decide (pos < Config.setupBytes) && within 0x00100 0x00300 a
  | _ => false

/-- The byte belongs to a record that the image writer is writing, or to a watched entry whose write-back is asked
for (R167, R171). -/
def imageWritten (p : Part) (a : Nat) : Bool :=
  (match p.writer.active with
    | some w => !w.left.isEmpty && w.write.covers a
    | none => false)
  || p.writer.queue.any fun w => w.coversWatched a

/-- The byte belongs to a watched entry that the directory still has to read (R167). -/
def entryRead (p : Part) (a : Nat) : Bool := p.ring.any fun r => r.watches a

/-- A host access to the byte waits (R171): a watched entry is one being written from its trigger on (R167). -/
def covered (p : Part) (a : Nat) : Bool := p.setupWritten a || p.entryRead a || p.imageWritten a

/-- A blocked write (R165). -/
def blockWrite (a : Addr) (p : Part) : Part := refuse .blockedWrite 0xF2 { p with lastBlocked := a }

/-- The trigger a stored byte may be (R44, R48, R49, R167): the directory asks for the entry's bytes, which are
those that stand as the trigger is stored, and acts on them (log 7). -/
def trigger (m : List Host.Cell) (a : Nat) (p : Part) : Part :=
  if isStationTrigger a then
    let b : Branch := Fin.ofNat 4 ((a - 0x01000) / 1024)
    let n : StationNo := Fin.ofNat 64 ((a - 0x01000) / 16)
    editStation b n (Mem.readList m (a - 6) 7) (askReads (.entry (.station b n)) (a - 6) 7 p)
  else if isUnitTrigger a then
    let u : Fin 256 := Fin.ofNat 256 ((a - 0x00300) / 4)
    editUnit u (Mem.readList m (a - 3) 4) (askReads (.entry (.unit u)) (a - 3) 4 p)
  else if isNodeTrigger a then
    let n : Fin 64 := Fin.ofNat 64 ((a - 0x00700) / 8)
    editNode n (Mem.readList m (a - 7) 8) (askReads (.entry (.node n)) (a - 7) 8 p)
  else p

/-- A host write to the memory is made: it is stored, with its trigger, or blocked (R160, R165, R167). -/
def makeWrite (a : Addr) (v : Byte) (x : Part × List Host.Cell) : Part × List Host.Cell :=
  match writeClass x.1 a.toNat with
  | .passes =>
    let m := Mem.write x.2 a.toNat v
    (trigger m a.toNat x.1, m)
  | .blocked => (blockWrite a x.1, x.2)
  | .command | .ignored => x

/-- A waiting host access is made (R161, R171). -/
def makeAccess (acc : HostAccess) (x : Part × List Host.Cell) : Part × List Host.Cell :=
  let p := { x.1 with hostWait := none }
  match acc with
  | .read a => (drive (Mem.read x.2 a.toNat) p, x.2)
  | .write a v => makeWrite a v (p, x.2)

/-- The address of an access. -/
def accessAddr : HostAccess → Nat
  | .read a => a.toNat
  | .write a _ => a.toNat

/-- A host access waiting on a record is made once the record is complete (R171). -/
def releaseHost (x : Part × List Host.Cell) : Part × List Host.Cell :=
  match x.1.hostWait with
  | some acc => if x.1.covered (accessAddr acc) then x else makeAccess acc x
  | none => x

/-- A host write to a byte of the memory (R160, R171): it waits, or is made. -/
def memoryWrite (a : Addr) (v : Byte) (x : Part × List Host.Cell) : Part × List Host.Cell :=
  if !x.1.busFree then x
  else if x.1.covered a.toNat then ({ x.1 with hostWait := some (.write a v) }, x.2)
  else makeWrite a v x

/-- A write to a command word (R162); an action code of no action is refused (R151). -/
def commandWrite (code : Nat) (v : Byte) : Part → Part :=
  match code with
  | 0x01 => command 0x01 commit
  | 0x02 => softReset
  | 0x03 => command 0x03 postToTrunk
  | 0x04 => command 0x04 postSubmit
  | 0x05 => command 0x05 (returnBuffer v)
  | 0x06 => command 0x06 (jobRelease v)
  | 0x07 => command 0x07 (jobAbort v)
  | 0x08 => command 0x08 (jobMoveJob v)
  | 0x09 => command 0x09 (jobMovePrinter v)
  | 0x0A => command 0x0A (loadGrant v)
  | 0x0B => command 0x0B (selectBranch v)
  | 0x0C => command 0x0C
      (if v = 1 then isolate else if v = 2 then restore else if v = 3 then probeByHost
       else refuse .badArgument 0x0C)
  | 0x0D => command 0x0D (captureRelease v)
  | 0x0E => command 0x0E (clearCounters v)
  | 0x0F => command 0x0F (setSnapKind v)
  | 0x10 => command 0x10 (takeSnapshot v)
  | 0x11 => command 0x11 senseTrigger
  | _ => fun p => p

/-- Any host write (R160). -/
def hostWrite (a : Addr) (v : Byte) (x : Part × List Host.Cell) : Part × List Host.Cell :=
  if a.toNat < 0x100 then (commandWrite a.toNat v x.1, x.2) else memoryWrite a v x

/-- An access that waits when a reset comes is ended at once (R175): a read returns the byte memory holds,
a write is decided as R160 classes it after the reset (log 21). -/
def endWait (before : Part) (x : Part × List Host.Cell) : Part × List Host.Cell :=
  match before.hostWait with
  | none => x
  | some (.read a) => (drive (Mem.read x.2 a.toNat) x.1, x.2)
  | some (.write a v) => makeWrite a v x

/-- A power-on reset (R190). -/
def powerOn (x : Part × List Host.Cell) : Part × List Host.Cell :=
  endWait x.1 (afterReset x.1.held (hardTask x.1.held) x.1, x.2)

/-- /RESET falls (R186). -/
def resetAssert (x : Part × List Host.Cell) : Part × List Host.Cell :=
  endWait x.1 (afterReset true .idle x.1, x.2)

/-- The end of a commit (R180): the host access that waited on the setup block is made, then the clamped
values go into force. -/
def commitApplication (x : Part × List Host.Cell) : Part × List Host.Cell :=
  match x.1.held, x.1.loader.task with
  | false, .writing next pos =>
    if Config.setupBytes ≤ pos then
      let y := releaseHost x
      (applyCommit next y.1, y.2)
    else x
  | _, _ => x

end Part

/-- The live word of two or three bytes whose first byte stands at an address of the control page (10.4). -/
def liveWordAt (a : Nat) : Option LiveWord :=
  if a = 0x44 then some .lastRefusal
  else if a = 0x46 then some .lastBlocked
  else if a = 0x4A then some .freeCount
  else if 0x4C ≤ a ∧ a < 0x54 ∧ a % 2 = 0 then some (.score (Fin.ofNat 4 ((a - 0x4C) / 2)))
  else if 0x54 ≤ a ∧ a < 0x5C ∧ a % 2 = 0 then some (.branchState (Fin.ofNat 4 ((a - 0x54) / 2)))
  else none

namespace Part

/-- A host read of a byte of the control page (R163): the reads that capture, clear or release are the commands of
the table, and every other drives the byte and changes nothing. -/
def controlPageRead (a : Nat) (p : Part) : Part :=
  if a = 0x40 then summaryRead p
  else if a = 0x65 then senseMissedRead p
  else if a = 0xFF then lastByteRead p
  else match liveWordAt a with
    | some w => captureWord w p
    | none => drive (p.controlRead a) p

/-- A host read of a byte of the memory (R160, R171): it waits, or is made. -/
def memoryRead (m : List Host.Cell) (a : Addr) (p : Part) : Part :=
  if p.covered a.toNat then { p with hostWait := some (.read a) } else drive (Mem.read m a.toNat) p

/-- Any host read (R160, R186). -/
def hostRead (m : List Host.Cell) (a : Addr) : Part → Part :=
  readCommand fun p => if a.toNat < 0x100 then controlPageRead a.toNat p else memoryRead m a p

end Part

/-- The machine after a host read of an address begins (R160, R171): the table has rows for the reads that change a
live word alone, and every other read is this operation (log 19). -/
def State.hostReads (a : Addr) (s : State) : State := { s with part := Part.hostRead s.mem a s.part }

/-- What a host read of an address returns, and none while it waits on /WAIT (R160, R163, R171, R186). -/
def State.hostRead (s : State) (a : Addr) : Option Byte :=
  if s.part.held then some 0
  else if a.toNat < 0x100 then some (s.part.controlRead a.toNat)
  else if s.part.hostWait.isSome || s.part.covered a.toNat then none
  else some (Mem.read s.mem a.toNat)

/-- POWER_ON_RESET (R190). -/
def execPowerOnReset (s : State) : Host.Outcome State Fault Refusal := onBoth Part.powerOn s

/-- PIN_RESET_ASSERT (R186). -/
def execPinResetAssert (s : State) : Host.Outcome State Fault Refusal := onBoth Part.resetAssert s

/-- COMMIT_APPLICATION (R180). -/
def execCommitApplication (s : State) : Host.Outcome State Fault Refusal :=
  onBoth Part.commitApplication s

/-- HOST_WRITE (R160). -/
def execHostWrite (a : Addr) (v : Byte) (s : State) : Host.Outcome State Fault Refusal :=
  onBoth (Part.hostWrite a v) s

/-- STATION_EDIT (R44). -/
def execStationEdit (b : Branch) (n : StationNo) (v : Byte) (s : State) :
    Host.Outcome State Fault Refusal :=
  onBoth (Part.memoryWrite (stationTriggerAddr b n) v) s

/-- BAR (R37): byte 6 written with the bar flag set (log 12). -/
def execBar (b : Branch) (n : StationNo) (present : Bool) (s : State) :
    Host.Outcome State Fault Refusal :=
  onBoth (Part.memoryWrite (stationTriggerAddr b n) (controlByte present true false)) s

/-- UNBAR (R37): byte 6 written with the bar flag clear (log 12). -/
def execUnbar (b : Branch) (n : StationNo) (present : Bool) (s : State) :
    Host.Outcome State Fault Refusal :=
  onBoth (Part.memoryWrite (stationTriggerAddr b n) (controlByte present false false)) s

/-- CLEAR_CONFLICT (R39): byte 6 written with the clear-conflict action (log 12). -/
def execClearConflict (b : Branch) (n : StationNo) (present : Bool) (s : State) :
    Host.Outcome State Fault Refusal :=
  onBoth (Part.memoryWrite (stationTriggerAddr b n) (controlByte present false true)) s

/-- UNIT_MAP_EDIT (R48). -/
def execUnitMapEdit (u : Fin 256) (v : Byte) (s : State) : Host.Outcome State Fault Refusal :=
  onBoth (Part.memoryWrite (unitTriggerAddr u) v) s

/-- NODE_LIST_EDIT (R49). -/
def execNodeListEdit (n : Fin 64) (v : Byte) (s : State) : Host.Outcome State Fault Refusal :=
  onBoth (Part.memoryWrite (nodeTriggerAddr n) v) s

end Sys2Proof.Machine
end

