-- ==== Sys2Proof/Machine/Router.lean ====
section
/-! DEFINITION. The router (R58 to R66) and the job manager's decision of a trunk print frame (R81 to R85). -/

namespace Sys2Proof.Machine

/-- A verdict (R16); ACK carries the sequence bit of the received frame. -/
inductive RouterVerdict
  | taken (seq : Bool)
  | duplicate (seq : Bool)
  | hold
  | reject
  deriving DecidableEq, Repr

/-- The status code a verdict sends (R2, R16). -/
def RouterVerdict.status : RouterVerdict → Byte
  | .taken seq | .duplicate seq => if seq then 0x11 else 0x10
  | .hold => 0x20
  | .reject => 0x30

/-- The sequence bit of the frame (10.2). -/
def Offer.seq (o : Offer) : Bool := bitAt o.ctl 0
/-- FIRST of the frame. -/
def Offer.first (o : Offer) : Bool := bitAt o.ctl 1
/-- LAST of the frame. -/
def Offer.last (o : Offer) : Bool := bitAt o.ctl 2

namespace Part

/-- The offered buffer leaves the engine's reservation (R16, R26, R61). -/
def takeReservation (o : Offer) : Part → Part :=
  modEngine o.branch fun g => { g with reservation := if g.reservation = some o.buf then none else g.reservation }

/-- The engine still waits for the verdict on this offer: an abort would have ended the wait (R16, R26). -/
def awaits (p : Part) (o : Offer) : Bool :=
  decide ((p.engine o.branch).phase = .verdict) && decide ((p.engine o.branch).reservation = some o.buf)

/-- The effects of an ACK of a frame taken (R61). -/
def accept (o : Offer) (p : Part) : Part :=
  updStation o.branch o.station (fun st =>
    { st with rxLast := o.seq, rxValid := true, framesIn := satInc 65535 st.framesIn })
    (takeReservation o p)

/-- An unroutable frame (R60). -/
def countUnroutable (b : Branch) : Part → Part :=
  modRouter fun r => { r with unroutable := put r.unroutable b (satInc 65535 (r.unroutable.get b)) }

/-- Delivery on the from-trunk ring (R62, R63), `mark` being what the mark of the producer slot reads. -/
def deliver (mark : Byte) (o : Offer) (bridge : Bool) (dst : NodeAddr) (p : Part) : RouterVerdict × Part :=
  let i := p.router.producer
  if mark = 0 then
    let bytes := fromTrunkSlotBytes (!bridge) o.branch o.station (p.newSideAddr o.branch o.station) dst
      o.unit o.ctl (BitVec.ofNat 8 o.len) o.buf
    let p1 := accept o (modPool (fun l => { l with hostHeld := l.hostHeld ++ [o.buf] }) p)
    (.taken o.seq, modRouter (fun r => { r with producer := i + 1 })
      (writeWhole (.fromTrunk i) bytes Notice.fromTrunk.bit p1))
  else (.hold, p)

/-- A relay to a station or a branch (R64). -/
def relay (o : Offer) (b2 : Branch) (s2 : StationNo) (p : Part) : RouterVerdict × Part :=
  if b2 = o.branch ∧ s2 = o.station then (.reject, p)
  else if !(p.switch b2).state.running then (.reject, p)
  else if s2 ≠ 63 ∧ (p.station b2 s2).state ≠ .present then (.reject, p)
  else if !p.txRoom b2 then (.hold, p)
  else (.taken o.seq, appendEntry b2 { target := s2, buf := o.buf, origin := .relay o.branch o.station,
                                       hold := 0, first := o.first, last := o.last } (accept o p))

/-- A print frame's buffer joins a chain, unshifted unless it is empty, and the receive path will shift it
(R81). -/
def addFrame (o : Offer) (j : JobNo) (p : Part) : Part :=
  let q := addToChain j { buf := o.buf, fill := o.len, shifted := o.len == 0 } (accept o p)
  if o.len = 0 then q else modPath o.branch (fun l => l ++ [.shift o.buf o.len 0 none]) q

/-- A frame with FIRST set (R82). -/
def printFirst (o : Offer) (k : Port) (p : Part) : RouterVerdict × Part :=
  let old := p.assemblingOf o.branch o.station
  let count := (p.station o.branch o.station).openJobs - (if old.isSome then 1 else 0)
  match p.freeRecord with
  | some j =>
    if count < p.setup.stationJobLimit ∧ p.setup.reserve ≤ p.freeCount
        ∧ (!o.last || p.hasRoom (p.closeTarget k)) then
      let p1 := match old with
        | some i => abortJob i .incomplete p
        | none => p
      let p2 := addFrame o j (openJob j k (.trunk o.branch o.station) p1)
      (.taken o.seq, if o.last then closeJob j p2 else p2)
    else (.hold, p)
  | none => (.hold, p)

/-- A frame with FIRST clear (R83). -/
def printNext (o : Offer) (k : Port) (p : Part) : RouterVerdict × Part :=
  match p.assemblingOf o.branch o.station with
  | some j =>
    if (p.job j).printer ≠ k then (.reject, p)
    else if p.chainFull j then (.reject, abortJob j .tooLarge p)
    else if p.freeCount < p.setup.reserve then (.hold, p)
    else if o.last && !p.hasRoom (p.closeTarget k) then (.hold, p)
    else
      let p2 := addFrame o j p
      (.taken o.seq, if o.last then closeJob j p2 else p2)
  | none => (.reject, p)

/-- A trunk print frame (R65, R82). -/
def printFrame (o : Offer) (k : Port) (p : Part) : RouterVerdict × Part :=
  if !(p.printerSetup k).enable then (.reject, p)
  else if o.first then printFirst o k p
  else printNext o k p

/-- The entry of a unit is usable from a branch (R60). -/
def routable (p : Part) (b : Branch) (e : UnitEntry) : Bool :=
  e.mask.getLsbD b.val && (match e.kind with
    | .unassigned => false
    | .node i => (p.nodes.get i).valid
    | _ => true)

/-- The checks before R62 pass and the frame is for the host: the router needs the mark of the producer slot (R58,
R62). -/
def needsMark (o : Offer) (p : Part) : Bool :=
  let st := p.station o.branch o.station
  let e := p.units.get o.unit.toFin
  decide (st.state = .present) && !(st.rxValid && st.rxLast == o.seq) && p.routable o.branch e
    && (match e.kind with
      | .node _ | .localUnit => true
      | .station _ _ | .printer _ | .unassigned => false)

/-- The router's decision, made at one moment (R58 to R65); `mark` is what the mark of the producer slot reads, which
decides only a frame for the host. -/
def route (mark : Byte) (o : Offer) (p : Part) : RouterVerdict × Part :=
  let st := p.station o.branch o.station
  let e := p.units.get o.unit.toFin
  if st.state ≠ .present then (.reject, p)
  else if st.rxValid && st.rxLast == o.seq then (.duplicate o.seq, p)
  else if !p.routable o.branch e then (.reject, countUnroutable o.branch p)
  else match e.kind with
    | .node i => deliver mark o true (p.nodes.get i).addr p
    | .localUnit => deliver mark o false (Vector.replicate 6 0) p
    | .station b2 s2 => relay o b2 s2 p
    | .printer k => printFrame o k p
    | .unassigned => (.reject, p)

end Part

end Sys2Proof.Machine
end

