-- ==== Sys2Proof/Machine/Receive.lean ====
section
/-! DEFINITION. The receiver of a trunk engine (R1 to R7, R15 to R21, R125): a character is judged against the
exchange, goes to the noise gate, is stray or is discarded. -/

namespace Sys2Proof.Machine

namespace Part

/-- Change the reply of the exchange in progress. -/
def modReply (b : Branch) (f : Reply → Reply) : Part → Part :=
  modEngine b fun g => { g with exch := g.exch.map fun x => { x with reply := f x.reply } }

/-- The engine moves to a phase. -/
def setPhase (b : Branch) (ph : Phase) : Part → Part := modEngine b fun g => { g with phase := ph }

/-- A clean or discovering reply is reported (R15, R19). -/
def reportGood (b : Branch) (x : Exchange) (p : Part) : Part :=
  if x.kind = .sweep then reportDiscovery b x.station x.void p else reportClean b x.station x.void p

/-- A garbled reply (R6, R7, R15, R35): the error goes to the supervisor, the outcome with the score
before its weight to the directory, and the quiet wait begins. -/
def garbled (b : Branch) (x : Exchange) (k : ErrorKind) (p : Part) : Part :=
  let score := (p.sup b).score
  let r : ErrorReport :=
    { kind := k, station := x.station, chars := x.reply.chars, detail := 0, stamp := (p.engine b).round }
  reportGarble b x.station x.void score (handleError b r (setPhase b .quiet p))

/-- A byte of a frame goes into the reservation (R16). -/
def storeByte (b : Branch) (off : Nat) (v : Byte) (p : Part) : Part :=
  match (p.engine b).reservation with
  | some buf => modPath b (fun l => l ++ [.write buf off v]) p
  | none => p

/-- The engine sends the verdict as its status (R16). -/
def sendVerdict (o : Offer) (v : RouterVerdict) : Part → Part :=
  modEngine o.branch fun g =>
    { g with phase := .owed, sent := [ctlChar .status o.station, dataChar v.status] }

/-- A frame is offered (R16, R58): the router decides it at once, or, where it needs the mark of the producer slot,
once its read of it is made (R62, R168), and the engine waits for the verdict. -/
def offerFrame (o : Offer) (p : Part) : Part :=
  if p.needsMark o then
    setPhase o.branch .verdict (modRouter (fun r => { r with offers := r.offers ++ [o] })
      (askReads .router (ImgRecord.fromTrunk p.router.producer).base 1 p))
  else
    let (v, q) := p.route 0 o
    sendVerdict o v q

/-- The reservation that an aborted engine still holds for its offer returns to the tail of the free list (R26). -/
def returnOffered (o : Offer) (p : Part) : Part :=
  if (p.engine o.branch).reservation = some o.buf then freeBuffer o.buf (takeReservation o p) else p

/-- A frame has been taken after the abort of its engine. The relay of its branch has left LINE, so the branch is the
origin of no ASSEMBLING job (R145): one that a print frame has opened is aborted with SOURCE_LOST in the same act, its
buffer freed, as the flush aborts those it finds (R97; DEDUCED, log 55). -/
def abandonJob (o : Offer) (p : Part) : Part :=
  match (p.units.get o.unit.toFin).kind with
  | .printer _ => abortAssemblingOfBranch o.branch p
  | .unassigned | .node _ | .localUnit | .station _ _ => p

/-- The mark of the producer slot has been read: the oldest offer is decided as everything stands at that moment
(R58, R62). A stray run of the wait ends as the status goes out (R21). Where the engine has been aborted meanwhile the
verdict takes effect for the buffer alone: a reservation still held is returned (R26, R51), and a job that the frame
has left ASSEMBLING is aborted (R145, log 55). -/
def decideOffer (mark : Byte) (p : Part) : Part :=
  match p.router.offers with
  | [] => p
  | o :: r =>
    let (v, q) := (modRouter (fun x => { x with offers := r }) p).route mark o
    if p.awaits o then
      handleAll o.branch (q.endedStray o.branch)
        (modEngine o.branch (fun g => { g with arriving := none, strayRun := none }) (sendVerdict o v q))
    else match v with
      | .taken _ => abandonJob o q
      | .duplicate _ | .hold | .reject => returnOffered o q

/-- A good frame (R16): it is reported and offered. -/
def goodFrame (b : Branch) (x : Exchange) (p : Part) : Part :=
  let p1 := reportGood b x p
  match (p1.engine b).reservation with
  | some buf =>
    offerFrame { branch := b, station := x.station, buf := buf, unit := x.reply.unit, ctl := x.reply.ctl,
                 len := x.reply.len } p1
  | none => p1

/-- A matching acknowledge of a SEND (R17, R33). An entry already owed a code completes with that code at
the end of the exchange (R24). -/
def delivered (b : Branch) (x : Exchange) (p : Part) : Part :=
  let p1 := setPhase b .turnaround
    (reportDelivery b x.station x.void (reportClean b x.station x.void p))
  match x.endCode, (p1.engine b).queue.find? fun e => x.entry = some e.buf with
  | none, some e => completeEntry b e .delivered p1
  | _, _ => p1

/-- A HOLD in answer to a SEND (R17). -/
def heldBack (b : Branch) (x : Exchange) (p : Part) : Part :=
  let p1 := setPhase b .turnaround (reportClean b x.station x.void p)
  match x.endCode, (p1.engine b).queue.find? fun e => x.entry = some e.buf with
  | none, some e =>
    let e' := { e with hold := e.hold + 1 }
    let p2 := modEngine b (fun g => { g with queue := g.queue.map fun y => if y.buf = e.buf then e' else y }) p1
    if (p.branchSetup b).holdLimit ≤ e.hold + 1 then completeEntry b e' .refused p2 else p2
  | _, _ => p1

/-- A status code arrives (R6 condition 8, R15, R17, R19). -/
def statusCode (b : Branch) (x : Exchange) (v : Byte) (p : Part) : Part :=
  if x.kind = .send then
    if v = 0x10 ∨ v = 0x11 then
      if (v == 0x11) = x.seq then delivered b x p else garbled b x .wrongStation p
    else if v = 0x20 then heldBack b x p
    else garbled b x .wrongStation p
  else if v = 0 then setPhase b .turnaround (reportGood b x p)
  else garbled b x .wrongStation p

/-- The first character of a reply (R6 conditions 3 to 5). -/
def firstChar (b : Branch) (x : Exchange) (c : LineChar) (p : Part) : Part :=
  let kind := ctlKindOf c.data
  if !c.mark || decide (c.data.toNat % 64 ≠ x.station.val) then garbled b x .wrongStation p
  else if kind = .status then modReply b (fun r => { r with stage := .code }) p
  else if kind = .answer ∧ x.kind ≠ .send then modReply b (fun r => { r with stage := .unit }) p
  else garbled b x .wrongStation p

/-- The stage after `len` or a payload byte: more payload while some is due, then the check (R3). -/
def payloadStage (len got : Nat) : RxStage := if got < len then .payload else .checkHi

/-- A later character of a reply that has no error of its own (R3, R4, R6 conditions 8 to 10). A len above 240 garbles
the frame and is not written into the reservation (DESIGN CHOICE, log 49). -/
def nextChar (b : Branch) (x : Exchange) (v : Byte) (p : Part) : Part :=
  let r := x.reply
  match r.stage with
  | .first => p
  | .code => statusCode b x v p
  | .unit => storeByte b 0 v (modReply b (fun r =>
      { r with stage := .ctl, unit := v, crc := crcByte r.crc v }) p)
  | .ctl => storeByte b 1 v (modReply b (fun r =>
      { r with stage := .len, ctl := v, crc := crcByte r.crc v }) p)
  | .len =>
    if 240 < v.toNat then garbled b x .framing p
    else storeByte b 2 v (modReply b (fun r =>
      { r with stage := payloadStage v.toNat 0, len := v.toNat, got := 0, crc := crcByte r.crc v }) p)
  | .payload => storeByte b (3 + r.got) v (modReply b (fun r =>
      { r with stage := payloadStage r.len (r.got + 1), got := r.got + 1, crc := crcByte r.crc v }) p)
  | .checkHi => modReply b (fun r => { r with stage := .checkLo, checkHi := v }) p
  | .checkLo =>
    if r.crc = r.checkHi ++ v then goodFrame b x p else garbled b x .check p

/-- A character of a reply (R6): the first condition that holds decides. A character that garbles the frame as it
arrives is not written into the reservation (DESIGN CHOICE, log 49). -/
def judgeChar (b : Branch) (x : Exchange) (c : LineChar) (p : Part) : Part :=
  let chars := (x.reply.chars ++ [(c.data, c.mark)]).take 8
  let x' := { x with reply := { x.reply with chars := chars } }
  let q := modEngine b (fun g => { g with phase := .reply, exch := some x' }) p
  if !c.stop then garbled b x' .framing q
  else if x.reply.stage = .first then firstChar b x' c q
  else if c.mark then garbled b x' .framing q
  else nextChar b x' c.data q

/-- A complete character in an open gate (R125). -/
def gateChar (b : Branch) (c : LineChar) : Part → Part :=
  modSup b fun s => { s with gate := { s.gate with chars := (s.gate.chars ++ [(c.data, c.mark)]).take 8
                                                   complete := s.gate.complete + 1 } }

/-- A stray character begins or goes on a run (R21). -/
def strayChar (b : Branch) (c : LineChar) : Part → Part :=
  modEngine b fun g => { g with strayRun := some ((g.strayRun.getD [] ++ [(c.data, c.mark)]).take 8) }

/-- A character received by a branch (R1, R6, R7, R21, R125). A character that began in a listen slot and
ends after it, in a later slot or outside any, is nobody's (R125), and so is one that began before a slot and ends in
it (log 22). A character whose start bit the
engine did not see is not received (R1). One that began in a quiet wait and ends after it is stray (DESIGN CHOICE,
log 42). -/
def receiveChar (b : Branch) (c : LineChar) (p : Part) : Part :=
  let g := p.engine b
  let q := modEngine b (fun g => { g with arriving := none }) p
  if g.state = .stopped ∨ g.arriving = none then p
  else match g.phase with
    | .transmit | .owed => p
    | .listen => if g.arriving = some .slot then gateChar b c q else q
    | .window | .reply =>
      if g.arriving = some .elsewhere then
        match g.exch with
        | some x => judgeChar b x c q
        | none => q
      else q
    | .quiet => q
    | .verdict | .turnaround | .none | .padding => if g.arriving = some .elsewhere then strayChar b c q else q

/-- The reply window closes with no start bit (R5, R6, R15, R17, R19). A close while a start bit stands has no effect,
and where that start bit proves false (R1) the window stays open until the event comes again (DESIGN CHOICE, log 51). -/
def windowClose (b : Branch) (p : Part) : Part :=
  let g := p.engine b
  match g.phase, g.exch with
  | .window, some x =>
    if g.arriving.isSome then p
    else
      let q := setPhase b .turnaround p
      if x.kind = .sweep then q
      else handleError b { kind := .miss, station := x.station, chars := [], detail := 0, stamp := g.round }
        (reportMiss b x.station x.void q)
  | _, _ => p

/-- The gap inside a reply is too long (R5, R6 condition 6; log 23). A gap that ends while a start bit stands is decided
like a window that closes then (DESIGN CHOICE, log 51). -/
def gapTimeout (b : Branch) (p : Part) : Part :=
  let g := p.engine b
  match g.phase, g.exch with
  | .reply, some x => if g.arriving.isSome then p else garbled b x .framing p
  | _, _ => p

/-- The quiet wait ends (R7), also while a start bit stands (DESIGN CHOICE, log 51). -/
def quietEnd (b : Branch) (p : Part) : Part :=
  if (p.engine b).phase = .quiet then setPhase b .turnaround p else p

/-- A change of level on the filtered receive line (R1, R125): a fall begins a start bit where the
receiver is watching and no character is arriving. -/
def levelChange (b : Branch) (level : Bool) (p : Part) : Part :=
  let g := p.engine b
  if g.rxLevel = level then p
  else
    let p1 := if (p.sup b).gate.isOpen then
        modSup b (fun s => { s with gate := { s.gate with edges := satInc 255 s.gate.edges } }) p
      else p
    let watching := decide (g.state ≠ .stopped) && !p.txen b && !p.held
    modEngine b (fun g =>
      { g with rxLevel := level
               arriving := if !level && watching && g.arriving.isNone then
                   some (if g.phase = .listen then .slot else .elsewhere)
                 else g.arriving }) p1

/-- A false start bit (R1). -/
def falseStart (b : Branch) : Part → Part := modEngine b fun g => { g with arriving := none }

end Part

/-- RECEIVE_CHARACTER (R6). -/
def execReceiveCharacter (b : Branch) (c : LineChar) (s : State) : Host.Outcome State Fault Refusal :=
  onPart (Part.awake (Part.receiveChar b c)) s

/-- REPLY_WINDOW_CLOSE (R6). -/
def execReplyWindowClose (b : Branch) (s : State) : Host.Outcome State Fault Refusal :=
  onPart (Part.awake (Part.windowClose b)) s

/-- GAP_TIMEOUT (R5, R6). -/
def execGapTimeout (b : Branch) (s : State) : Host.Outcome State Fault Refusal :=
  onPart (Part.awake (Part.gapTimeout b)) s

/-- QUIET_WAIT_END (R7). -/
def execQuietWaitEnd (b : Branch) (s : State) : Host.Outcome State Fault Refusal :=
  onPart (Part.awake (Part.quietEnd b)) s

/-- RECEIVE_LINE_LEVEL_CHANGE (R125). While /RESET holds the part the level is still followed. -/
def execReceiveLineLevelChange (b : Branch) (level : Bool) (s : State) :
    Host.Outcome State Fault Refusal :=
  onPart (Part.levelChange b level) s

/-- FALSE_START_BIT (R1). -/
def execFalseStartBit (b : Branch) (s : State) : Host.Outcome State Fault Refusal :=
  onPart (Part.awake (Part.falseStart b)) s

end Sys2Proof.Machine
end

