-- ==== Sys2Proof/Machine/MemoryPort.lean ====
section
/-! DEFINITION. The part-side memory port (R168 to R170): the requesters, the arbiter and one memory cycle of
each requester; the image writer's begin and end; the end of a payload shift (R81). -/

namespace Sys2Proof.Machine

/-- The requesters in the cyclic order of R168. -/
inductive Requester
  | imageWriter | receive (b : Branch) | copy | printer (k : Port) | ring | loader
  deriving DecidableEq, Repr

/-- The requester at a place of the cyclic order (R168, R169). -/
def Requester.ofIndex (i : Fin 11) : Requester :=
  match i with
  | 0 => .imageWriter
  | 1 => .receive 0
  | 2 => .receive 1
  | 3 => .receive 2
  | 4 => .receive 3
  | 5 => .copy
  | 6 => .printer 0
  | 7 => .printer 1
  | 8 => .printer 2
  | 9 => .ring
  | 10 => .loader

/-- The pieces of work of the setup loader's requester (R168), in the order in which it takes them
(log 18). -/
inductive LoaderWork
  | initialise (soft : Bool) (pos : Nat) (entry : List Byte)
  | table (k : Port) (l : List Byte)
  | read (l : List Byte)
  | write (next : Setup) (pos : Nat)
  deriving DecidableEq, Repr

/-- The address of byte `off` of a pool buffer (3.1). -/
def bufferAddr (buf : BufNo) (off : Nat) : Nat := Config.poolBase + Config.bufferBytes * buf.val + off

/-- The byte in progress of a stopped shift or copy is written (R76, R81). -/
def LastByte.write (y : LastByte) (m : List Host.Cell) : List Host.Cell :=
  Mem.write m (bufferAddr y.buf y.off) y.value

/-- The offset of the next byte read for a SEND: unit, len, then the payload (R17). -/
def TxRead.offset (t : TxRead) : Nat :=
  match t.got.length with
  | 0 => 0
  | 1 => 2
  | n => n + 1

/-- Every byte of the frame has been read. -/
def TxRead.complete (l : List Byte) : Bool := decide (2 ≤ l.length) && decide ((byteAt l 1).toNat + 2 ≤ l.length)

namespace Part

/-- The port that waits longest in number order for its table to be read (R115). -/
def tableWork (p : Part) : Option LoaderWork :=
  match printerPorts.find? fun k => (p.port k).loading.isSome with
  | some k => (p.port k).loading.map fun l => .table k l
  | none => none

/-- The commit's work: reading, then write-back (R177, R179). -/
def commitWork (p : Part) : Option LoaderWork :=
  match p.loader.task with
  | .reading l => if l.length < Config.setupBytes then some (.read l) else none
  | .writing next pos => if pos < Config.setupBytes then some (.write next pos) else none
  | _ => none

/-- A host access waits on the setup block (R179). -/
def waitsOnSetup (p : Part) : Bool :=
  match p.hostWait with
  | some acc => p.setupWritten (accessAddr acc)
  | none => false

/-- What the setup loader asks for (log 18). -/
def loaderWork (p : Part) : Option LoaderWork :=
  match p.loader.task with
  | .initialise soft pos entry =>
    if pos < Config.initCycles soft then some (.initialise soft pos entry) else none
  | _ =>
    if p.waitsOnSetup then p.commitWork else p.tableWork.orElse fun _ => p.commitWork

/-- The path of a branch has a byte to write or to shift (R16, R81). -/
def pathAsks (p : Part) (b : Branch) : Bool :=
  match p.path b with
  | .write _ _ _ :: _ | .last _ :: _ => true
  | .shift _ len i byte :: _ => decide (i < len) || byte.isSome
  | [] => false

/-- A requester asks for a memory cycle (R168). -/
def asks (p : Part) : Requester → Bool
  | .imageWriter => p.writer.active.any fun w => !w.left.isEmpty
  | .receive b => p.pathAsks b || (p.engine b).txRead.isSome
  | .copy => p.copy.stopped.isSome
      || p.copy.current.any fun c => !c.head.isEmpty || c.byte.isSome || decide (0 < c.left)
  | .printer k => (p.readerWants k).isSome
  | .ring => !p.ring.isEmpty
  | .loader => p.loaderWork.isSome

/-- The image writer writes one byte (R170). -/
def writerCycle (x : Part × List Host.Cell) : Part × List Host.Cell :=
  match x.1.writer.active with
  | some w =>
    match w.left with
    | v :: r => (modWriter (fun q => { q with active := some { w with addr := w.addr + 1, left := r } }) x.1,
                 Mem.write x.2 w.addr v)
    | [] => x
  | none => x

/-- A byte of a frame has been read for a SEND; with the last the characters of the transmission are known
(R3, R4, R17). -/
def txCycle (b : Branch) (t : TxRead) (v : Byte) : Part → Part :=
  let l := t.got ++ [v]
  modEngine b fun g =>
    if TxRead.complete l then
      { g with txRead := none
               sent := g.sent ++ frameChars (byteAt l 0) t.ctl (byteAt l 1) (l.drop 2) }
    else { g with txRead := some { t with got := l } }

/-- A receive path makes one access (R16, R17, R81): its own writes and shifts in order, then the reads of a
SEND (log 18). -/
def receiveCycle (b : Branch) (x : Part × List Host.Cell) : Part × List Host.Cell :=
  let tx := match (x.1.engine b).txRead with
    | some t => (txCycle b t (Mem.read x.2 (bufferAddr t.buf t.offset)) x.1, x.2)
    | none => x
  match x.1.path b with
  | .write buf off v :: r => (modPath b (fun _ => r) x.1, Mem.write x.2 (bufferAddr buf off) v)
  | .last y :: r => (modPath b (fun _ => r) x.1, y.write x.2)
  | .shift buf len i (some v) :: r =>
    (modPath b (fun _ => .shift buf len (i + 1) none :: r) x.1, Mem.write x.2 (bufferAddr buf i) v)
  | .shift buf len i none :: r =>
    if i < len then
      (modPath b (fun _ => .shift buf len i (some (Mem.read x.2 (bufferAddr buf (3 + i)))) :: r) x.1, x.2)
    else tx
  | [] => tx

/-- The copy stands as `d` after one of its writes. With the last byte of a to-trunk copy the walk asks for the target
fields of its slot, which it reads again before the copy ends (R72, R74). -/
def copyWritten (d : Copy) (p : Part) : Part :=
  let q := modCopy (fun e => { e with current := some d }) p
  if d.walk = .toTrunk ∧ d.head = [] ∧ d.left = 0 ∧ d.byte = none then ttAskTarget q else q

/-- The copy engine makes one access (R71, R90): the byte in progress of a stopped copy goes first (R76). -/
def copyCycle (x : Part × List Host.Cell) : Part × List Host.Cell :=
  match x.1.copy.stopped, x.1.copy.current with
  | some y, _ => (modCopy (fun e => { e with stopped := none }) x.1, y.write x.2)
  | none, some c =>
    match c.head, c.byte with
    | v :: r, _ =>
      (copyWritten { c with head := r, off := c.off + 1 } x.1, Mem.write x.2 (bufferAddr c.buf c.off) v)
    | [], some v =>
      (copyWritten { c with byte := none, off := c.off + 1 } x.1, Mem.write x.2 (bufferAddr c.buf c.off) v)
    | [], none =>
      if 0 < c.left then
        let d : Copy := { c with byte := some (Mem.read x.2 c.src), src := c.src + 1, left := c.left - 1 }
        (modCopy (fun e => { e with current := some d }) x.1, x.2)
      else x
  | none, none => x

/-- The port holds its reader's byte and comes to step 4 of R102, which clears an abandoned-byte mark whose 1 ms has
passed (log 38). -/
def byteFetched (k : Port) (v : Byte) (p : Part) : Part :=
  let q := modPort k (fun t => { t with fetched := some v }) p
  if (p.port k).overdue then clearAbandoned k q else q

/-- A printer reader reads the byte at its job's position (R102 step 3). -/
def printerCycle (k : Port) (x : Part × List Host.Cell) : Part × List Host.Cell :=
  match x.1.readerWants k with
  | some a => (byteFetched k (Mem.read x.2 a) x.1, x.2)
  | none => x

/-- The reads that stand after one access for `r`, which read `v` (R168): its user has one access at a time to ask
for, so what it has left, of this read and of those it asked for later, comes after the accesses that the other users
ask for. -/
def readsAfter (r : RingRead) (v : Byte) (l : List RingRead) : List RingRead :=
  let rest := l.erase r
  rest.filter (fun x => !r.user.same x.user)
    ++ (if r.left ≤ 1 then []
        else [{ r with addr := r.addr + 1, left := r.left - 1, got := r.got ++ [v] }])
    ++ rest.filter (fun x => r.user.same x.user)

/-- The address a read reads: the router looks at the slot at the producer index as it stands then (R62). -/
def readAddr (r : RingRead) (p : Part) : Nat :=
  match r.user with
  | .router => (ImgRecord.fromTrunk p.router.producer).base
  | _ => r.addr

/-- The directory writes a table entry back once it has read it (R44, R48, R49, R167), with the values in force. -/
def writeBack (r : ImgRecord) (p : Part) : Part :=
  match r with
  | .station b n => writeStationLow b n p
  | .unit u => writeWhole (.unit u) (unitImage (p.units.get u)) 0 p
  | .node n => writeWhole (.node n) (nodeImage (p.nodes.get n)) 0 p
  | _ => p

/-- A user has the bytes it asked for: the router decides the oldest offer (R58), a walk goes on (R68, R88), and the
directory has its entry written back (R167). -/
def readDone (u : RingUser) (l : List Byte) : Part → Part :=
  match u with
  | .router => decideOffer (byteAt l 0)
  | .toTrunk => ttRead l
  | .submit => subRead l
  | .entry e => writeBack e

/-- One access of the ring and descriptor requester, for the first asked for of those `f` picks (R168): the byte is
read, and with the last byte of a read its user goes on. -/
def ringServe (f : RingRead → Bool) (x : Part × List Host.Cell) : Part × List Host.Cell :=
  match x.1.ring.find? f with
  | some r =>
    let v := Mem.read x.2 (readAddr r x.1)
    let q := modRing (readsAfter r v) x.1
    (if r.left ≤ 1 then readDone r.user (r.got ++ [v]) q else q, x.2)
  | none => x

/-- The ring and descriptor requester makes one access: the directory's reads of a watched entry that a host
access waits for go before the others' (R168, R169). -/
def ringCycle (x : Part × List Host.Cell) : Part × List Host.Cell :=
  match x.1.hostWait with
  | some acc =>
    if x.1.entryRead (accessAddr acc) then ringServe (fun r => r.watches (accessAddr acc)) x
    else ringServe (fun _ => true) x
  | none => ringServe (fun _ => true) x

/-- A grant table has been read whole and goes into force (R115). -/
def tableLoaded (k : Port) (l : List Byte) (p : Part) : Part :=
  servePort k (modPort k (fun t =>
    { t with table := readTable l, pointer := 0, loadPending := false, loading := none }) p)

/-- A byte of a grant table image has been read (R115). -/
def tableByte (k : Port) (l : List Byte) (v : Byte) (p : Part) : Part :=
  if 32 ≤ l.length + 1 then tableLoaded k (l ++ [v]) p
  else modPort k (fun t => { t with loading := some (l ++ [v]) }) p

/-- The setup loader makes one access. -/
def loaderCycle (x : Part × List Host.Cell) : Part × List Host.Cell :=
  let setTask (t : LoaderTask) : Part := modLoader (fun q => { q with task := t }) x.1
  match x.1.loaderWork with
  | some (.initialise soft pos entry) =>
    match x.1.initCycle soft pos with
    | some (.write a v) => (setTask (.initialise soft (pos + 1) []), Mem.write x.2 a v)
    | some (.read a) => (takeInitByte pos entry (Mem.read x.2 a) x.1, x.2)
    | none => x
  | some (.table k l) => (tableByte k l (Mem.read x.2 (Config.grantBase + 32 * k.val + l.length)) x.1, x.2)
  | some (.read l) => (setTask (.reading (l ++ [Mem.read x.2 (Config.setupBase + l.length)])), x.2)
  | some (.write next pos) =>
    (setTask (.writing next (pos + 1)), Mem.write x.2 (Config.setupBase + pos) (byteAt (setupImage next) pos))
  | none => x

/-- One memory cycle of a requester. -/
def cycle (r : Requester) (x : Part × List Host.Cell) : Part × List Host.Cell :=
  match r with
  | .imageWriter => writerCycle x
  | .receive b => receiveCycle b x
  | .copy => copyCycle x
  | .printer k => printerCycle k x
  | .ring => ringCycle x
  | .loader => loaderCycle x

/-- The first asking requester in cyclic order (R169). -/
def nextAsking (p : Part) : Option (Fin 11) :=
  ((List.finRange 11).map fun i => p.arbiter + i).find? fun i => p.asks (Requester.ofIndex i)

/-- The grant in cyclic order (R169). -/
def cyclicGrant (x : Part × List Host.Cell) : Part × List Host.Cell :=
  match x.1.nextAsking with
  | some i => cycle (Requester.ofIndex i) ({ x.1 with arbiter := i + 1 }, x.2)
  | none => x

/-- The requester that writes the record a host access waits on goes ahead of the others (R169), and for a watched
entry the directory's reads of it, which the model grants before the writes (log 7). -/
def favoured (p : Part) (a : Nat) : Option Requester :=
  if p.setupWritten a && p.asks .loader then some .loader
  else if p.entryRead a then some .ring
  else if p.imageWritten a && p.asks .imageWriter then some .imageWriter
  else none

/-- The arbiter grants the memory for one cycle (R161, R169). -/
def memoryGrant (x : Part × List Host.Cell) : Part × List Host.Cell :=
  if x.1.held then x
  else match x.1.hostWait with
    | none => cyclicGrant x
    | some acc =>
      if x.1.covered (accessAddr acc) then
        match x.1.favoured (accessAddr acc) with
        | some r => cycle r x
        | none => cyclicGrant x
      else makeAccess acc x

/-- The image writer takes the next record write and fixes its content (R170). -/
def imageBegin (p : Part) : Part :=
  match p.writer.active, p.writer.queue with
  | none, w :: r =>
    let (a, l) := w.bytes p
    modWriter (fun _ => { queue := r, active := some { write := w, addr := a, left := l } }) p
  | _, _ => p

/-- The last byte of a record write is done: its notices are set and the host accesses that waited for it
are made (R170, R171). -/
def imageComplete (x : Part × List Host.Cell) : Part × List Host.Cell :=
  if x.1.held then x
  else match x.1.writer.active with
    | some w =>
      if w.left.isEmpty then
        releaseHost (setNotices w.write.notices (modWriter (fun q => { q with active := none }) x.1), x.2)
      else x
    | none => x

/-- The chain entry of a buffer is shifted (R81). -/
def markShifted (buf : BufNo) (p : Part) : Part :=
  { p with jobs := p.jobs.map fun x => { x with chain := x.chain.map fun e =>
      if e.buf = buf then { e with shifted := true } else e } }

/-- The last byte of a payload has been moved (R81). -/
def shiftDone (b : Branch) (p : Part) : Part :=
  match p.path b with
  | .shift buf len i none :: r => if len ≤ i then markShifted buf (modPath b (fun _ => r) p) else p
  | _ => p

end Part

/-- MEMORY_PORT_GRANT (R169). -/
def execMemoryPortGrant (s : State) : Host.Outcome State Fault Refusal := onBoth Part.memoryGrant s

/-- IMAGE_WRITE_BEGIN (R170). -/
def execImageWriteBegin (s : State) : Host.Outcome State Fault Refusal :=
  onPart (Part.awake Part.imageBegin) s

/-- IMAGE_WRITE_COMPLETE (R170). -/
def execImageWriteComplete (s : State) : Host.Outcome State Fault Refusal :=
  onBoth Part.imageComplete s

/-- PAYLOAD_SHIFT_COMPLETE (R81). -/
def execPayloadShiftComplete (b : Branch) (s : State) : Host.Outcome State Fault Refusal :=
  onPart (Part.awake (Part.shiftDone b)) s

end Sys2Proof.Machine
end

