-- ==== Sys2Proof/Machine/Dispatch.lean ====
section
/-! DEFINITION. The meaning of each command: one arm per constructor. -/

namespace Sys2Proof.Machine

/-- What a command does to everything but the queue of waiting commands. -/
def exec (i : Instr) (s : State) : Host.Outcome State Fault Refusal :=
  match i with
  | .powerOnReset => Sys2Proof.Machine.execPowerOnReset s
  | .pinResetAssert => Sys2Proof.Machine.execPinResetAssert s
  | .pinResetRelease => Sys2Proof.Machine.execPinResetRelease s
  | .softReset v => Sys2Proof.Machine.execSoftReset v s
  | .initialisationComplete => Sys2Proof.Machine.execInitialisationComplete s
  | .commit v => Sys2Proof.Machine.execCommit v s
  | .commitReadComplete => Sys2Proof.Machine.execCommitReadComplete s
  | .commitApplication => Sys2Proof.Machine.execCommitApplication s
  | .postToTrunk v => Sys2Proof.Machine.execPostToTrunk v s
  | .toTrunkRetry => Sys2Proof.Machine.execToTrunkRetry s
  | .postSubmit v => Sys2Proof.Machine.execPostSubmit v s
  | .submissionRetry => Sys2Proof.Machine.execSubmissionRetry s
  | .copyEngineServe => Sys2Proof.Machine.execCopyEngineServe s
  | .toTrunkCopyComplete => Sys2Proof.Machine.execToTrunkCopyComplete s
  | .submissionCopyComplete => Sys2Proof.Machine.execSubmissionCopyComplete s
  | .returnBuffer v => Sys2Proof.Machine.execReturnBuffer v s
  | .jobRelease v => Sys2Proof.Machine.execJobRelease v s
  | .jobAbort v => Sys2Proof.Machine.execJobAbort v s
  | .jobMoveJob v => Sys2Proof.Machine.execJobMoveJob v s
  | .jobMovePrinter v => Sys2Proof.Machine.execJobMovePrinter v s
  | .loadGrant v => Sys2Proof.Machine.execLoadGrant v s
  | .branchSel v => Sys2Proof.Machine.execBranchSel v s
  | .isolate => Sys2Proof.Machine.execIsolate s
  | .restore => Sys2Proof.Machine.execRestore s
  | .probe => Sys2Proof.Machine.execProbe s
  | .captureRelease v => Sys2Proof.Machine.execCaptureRelease v s
  | .clearCounters v => Sys2Proof.Machine.execClearCounters v s
  | .snapKind v => Sys2Proof.Machine.execSnapKind v s
  | .snapIndex v => Sys2Proof.Machine.execSnapIndex v s
  | .senseNow v => Sys2Proof.Machine.execSenseNow v s
  | .summaryLoRead => Sys2Proof.Machine.execSummaryLoRead s
  | .liveWordFirstByteRead w => Sys2Proof.Machine.execLiveWordFirstByteRead w s
  | .senseMissedRead => Sys2Proof.Machine.execSenseMissedRead s
  | .snapshotWindowLastByteRead => Sys2Proof.Machine.execSnapshotWindowLastByteRead s
  | .hostWrite a v => Sys2Proof.Machine.execHostWrite a v s
  | .stationEdit b n v => Sys2Proof.Machine.execStationEdit b n v s
  | .bar b n present => Sys2Proof.Machine.execBar b n present s
  | .unbar b n present => Sys2Proof.Machine.execUnbar b n present s
  | .clearConflict b n present => Sys2Proof.Machine.execClearConflict b n present s
  | .unitMapEdit u v => Sys2Proof.Machine.execUnitMapEdit u v s
  | .nodeListEdit n v => Sys2Proof.Machine.execNodeListEdit n v s
  | .memoryPortGrant => Sys2Proof.Machine.execMemoryPortGrant s
  | .imageWriteBegin => Sys2Proof.Machine.execImageWriteBegin s
  | .imageWriteComplete => Sys2Proof.Machine.execImageWriteComplete s
  | .transmissionEnd b => Sys2Proof.Machine.execTransmissionEnd b s
  | .receiveCharacter b c => Sys2Proof.Machine.execReceiveCharacter b c s
  | .replyWindowClose b => Sys2Proof.Machine.execReplyWindowClose b s
  | .gapTimeout b => Sys2Proof.Machine.execGapTimeout b s
  | .quietWaitEnd b => Sys2Proof.Machine.execQuietWaitEnd b s
  | .strayRunEnd b => Sys2Proof.Machine.execStrayRunEnd b s
  | .turnaroundEnd b => Sys2Proof.Machine.execTurnaroundEnd b s
  | .listenSlotEnd b => Sys2Proof.Machine.execListenSlotEnd b s
  | .paddingEnd b => Sys2Proof.Machine.execPaddingEnd b s
  | .payloadShiftComplete b => Sys2Proof.Machine.execPayloadShiftComplete b s
  | .decayTimerExpiry b => Sys2Proof.Machine.execDecayTimerExpiry b s
  | .sensePeriodExpiry => Sys2Proof.Machine.execSensePeriodExpiry s
  | .sensePassStart => Sys2Proof.Machine.execSensePassStart s
  | .senseConversionComplete code => Sys2Proof.Machine.execSenseConversionComplete code s
  | .relaySettle b => Sys2Proof.Machine.execRelaySettle b s
  | .relayFault b low => Sys2Proof.Machine.execRelayFault b low s
  | .restoreTimerExpiry b => Sys2Proof.Machine.execRestoreTimerExpiry b s
  | .buttonPress => Sys2Proof.Machine.execButtonPress s
  | .indicatorFlashToggle b => Sys2Proof.Machine.execIndicatorFlashToggle b s
  | .probeStart => Sys2Proof.Machine.execProbeStart s
  | .probePulse => Sys2Proof.Machine.execProbePulse s
  | .probePulseEnd => Sys2Proof.Machine.execProbePulseEnd s
  | .echoCrossing tick rise => Sys2Proof.Machine.execEchoCrossing tick rise s
  | .captureWindowEnd => Sys2Proof.Machine.execCaptureWindowEnd s
  | .printerConditionChange p c asserted => Sys2Proof.Machine.execPrinterConditionChange p c asserted s
  | .bytePresent p => Sys2Proof.Machine.execBytePresent p s
  | .abandonedByteTimeout p => Sys2Proof.Machine.execAbandonedByteTimeout p s
  | .acknowledge p => Sys2Proof.Machine.execAcknowledge p s
  | .stallTimerExpiry p => Sys2Proof.Machine.execStallTimerExpiry p s
  | .stallEndBusyLow p => Sys2Proof.Machine.execStallEndBusyLow p s
  | .redirectTimerExpiry p => Sys2Proof.Machine.execRedirectTimerExpiry p s
  | .receiveLineLevelChange b level => Sys2Proof.Machine.execReceiveLineLevelChange b level s
  | .falseStartBit b => Sys2Proof.Machine.execFalseStartBit b s
  | .attentionButtonRelease => Sys2Proof.Machine.execAttentionButtonRelease s
  | .printerStrobeEnd p => Sys2Proof.Machine.execPrinterStrobeEnd p s

end Sys2Proof.Machine
end

