-- ==== Sys2Proof/Safety.lean ====
section
/-! DEFINITION. The words the statements use: when a command is taken, what a refusal leaves, what every reset
leaves, and the invariants that every step keeps. -/

namespace Sys2Proof.Machine

/-! ## When a command is taken -/

/-- The host bus carries a new access: /RESET is high and no earlier access waits on /WAIT. -/
def State.busReady (s : State) : Prop := s.part.held = false ∧ s.part.hostWait = none

/-- A command word is its owner's to take: the bus carries it and start-up initialisation is over (R189). -/
def State.takesCommands (s : State) : Prop := s.busReady ∧ s.part.loader.startState ≠ .init

/-- The code of a command word (10.4), for the rows that are a write to one; SOFT_RESET, which alone is never
refused with INIT (R189), is left out. -/
def commandCode : Instr → Option Byte
  | .commit _ => some 0x01
  | .postToTrunk _ => some 0x03
  | .postSubmit _ => some 0x04
  | .returnBuffer _ => some 0x05
  | .jobRelease _ => some 0x06
  | .jobAbort _ => some 0x07
  | .jobMoveJob _ => some 0x08
  | .jobMovePrinter _ => some 0x09
  | .loadGrant _ => some 0x0A
  | .branchSel _ => some 0x0B
  | .isolate => some 0x0C
  | .restore => some 0x0C
  | .probe => some 0x0C
  | .captureRelease _ => some 0x0D
  | .clearCounters _ => some 0x0E
  | .snapKind _ => some 0x0F
  | .snapIndex _ => some 0x10
  | .senseNow _ => some 0x11
  | _ => none

/-- The commands whose argument has a range of its own: the least value out of range, and the byte written. -/
def argumentLimit : Instr → Option (Nat × Byte)
  | .jobRelease v => some (32, v)
  | .jobAbort v => some (32, v)
  | .jobMoveJob v => some (32, v)
  | .jobMovePrinter v => some (3, v)
  | .loadGrant v => some (3, v)
  | .branchSel v => some (4, v)
  | .captureRelease v => some (4, v)
  | .clearCounters v => some (4, v)
  | .snapKind v => some (3, v)
  | _ => none

/-! ## Whose event a command is -/

/-- The branch whose line, engine, supervisor or switch an event belongs to. -/
def branchOf : Instr → Option Branch
  | .transmissionEnd b => some b
  | .receiveCharacter b _ => some b
  | .replyWindowClose b => some b
  | .gapTimeout b => some b
  | .quietWaitEnd b => some b
  | .strayRunEnd b => some b
  | .turnaroundEnd b => some b
  | .listenSlotEnd b => some b
  | .paddingEnd b => some b
  | .payloadShiftComplete b => some b
  | .decayTimerExpiry b => some b
  | .relaySettle b => some b
  | .relayFault b _ => some b
  | .restoreTimerExpiry b => some b
  | .indicatorFlashToggle b => some b
  | .receiveLineLevelChange b _ => some b
  | .falseStartBit b => some b
  | _ => none

/-- The printer port an event belongs to. -/
def portOf : Instr → Option Port
  | .printerConditionChange k _ _ => some k
  | .bytePresent k => some k
  | .abandonedByteTimeout k => some k
  | .acknowledge k => some k
  | .stallTimerExpiry k => some k
  | .stallEndBusyLow k => some k
  | .redirectTimerExpiry k => some k
  | .printerStrobeEnd k => some k
  | _ => none

/-! ## What a command leaves -/

/-- The state with another part; the buffer memory and the queue of commands stand. -/
def State.withPart (s : State) (p : Part) : State := { s with part := p }

/-- The part with a set of latches turned on (R182). -/
def Part.latch (p : Part) (bits : BitVec 16) : Part :=
  { p with notices := { p.notices with latches := p.notices.latches ||| bits } }

/-- The part with a refusal recorded: REFUSED, number 13, is on and LAST_REFUSAL holds the reason and the code
(R185). -/
def Part.refusedWith (p : Part) (r : Reason) (code : Byte) : Part :=
  { p with notices := { latches := p.notices.latches ||| 0x2000, reason := some r, code := code } }

/-- The part with an image write asked for (R170). -/
def Part.asksWrite (p : Part) (w : ImgWrite) : Part :=
  { p with writer := { p.writer with queue := enqueueWrite w p.writer.queue } }

/-- A write of a record that the image writer copies from inside the part, with its notices (R170). -/
def recordWrite (r : ImgRecord) (notices : BitVec 16) : ImgWrite :=
  { record := r, low := false, high := false, content := [], notices := notices }

/-- A whole write of a ring slot or a table entry (R170). -/
def slotWrite (r : ImgRecord) (content : List Byte) (notices : BitVec 16) : ImgWrite :=
  { record := r, low := false, high := false, content := content, notices := notices }

/-- Several memory cycles of one requester, one after another (R168). -/
def Part.cycles (r : Requester) : Nat → Part × List Host.Cell → Part × List Host.Cell
  | 0, x => x
  | n + 1, x => Part.cycles r n (Part.cycle r x)

/-- The read next made is the last of those that `u` has asked for, of the byte at `a`, `got` being the bytes before
it; no host access waits, and `rest` are the reads that others have asked for (R168). -/
def Part.lastRead (p : Part) (u : RingUser) (a : Nat) (got : List Byte) (rest : List RingRead) : Prop :=
  p.hostWait = none ∧ p.ring = { user := u, addr := a, left := 1, got := got } :: rest
    ∧ ∀ r ∈ rest, u.same r.user = false

/-! ## Rest (R190) -/

/-- A trunk engine after a reset (R8). -/
def Engine.atRest (g : Engine) : Prop :=
  g.state = .stopped ∧ g.reservation = none ∧ g.queue = [] ∧ g.pollList = [] ∧ g.cursor = none
    ∧ g.sweepCursor = 0 ∧ g.round = 0 ∧ g.pollSkipped = 0 ∧ g.relayDropped = 0 ∧ g.exch = none
    ∧ g.listen = none

/-- A station record after a reset (R30). -/
def Station.atRest (r : Station) : Prop :=
  r.state = .absent ∧ r.assigned = none ∧ r.miss = 0 ∧ r.garble = 0 ∧ r.txSeq = false ∧ r.rxLast = false
    ∧ r.rxValid = false ∧ r.openJobs = 0 ∧ r.queued = 0 ∧ r.lastHeard = 0 ∧ r.framesIn = 0 ∧ r.framesOut = 0

/-- A printer port after a reset (R99), with the default grant table (R111). -/
def PrinterPort.atRest (t : PrinterPort) : Prop :=
  t.state = .disabled ∧ t.job = none ∧ t.handshake = none ∧ t.abandoned = false ∧ t.overdue = false
    ∧ t.stall = none ∧ t.redirect = none ∧ t.redirected = false ∧ t.pointer = 0 ∧ t.loadPending = false
    ∧ t.data = 0 ∧ t.strobe = false
    ∧ ∀ i : Fin 32, (t.table.get i).map (fun c => c.val) = some (i.val % 5)

/-- A line supervisor after a reset (R120, R124, R125, R127). -/
def Supervisor.atRest (u : Supervisor) : Prop :=
  u.score = 0 ∧ u.warn = false ∧ u.clean = true ∧ u.decay = 100 ∧ u.capture.valid = false
    ∧ u.gate.isOpen = false ∧ ∀ k : Fin 8, u.kinds.get k = 0

/-- The sense sequencer after a reset (R134). -/
def Sense.atRest (q : Sense) : Prop :=
  q.state = .idle ∧ q.missed = 0 ∧ q.period = none
    ∧ ∀ b : Branch, q.codes.get b = 0 ∧ q.classes.get b = .terminated ∧ q.checks.get b = false
        ∧ q.firstRun.get b = false

/-- A branch switch after a reset (R140, R142). -/
def Switch.atRest (w : Switch) : Prop :=
  w.state = .disabled ∧ w.dest = none ∧ w.rline = false ∧ w.rprobe = false ∧ w.relay = .at .open
    ∧ w.isolations = 0 ∧ w.reason = none ∧ w.restore = none ∧ w.check = false ∧ w.verdict = .none
    ∧ w.trial = 0 ∧ w.enablePending = false ∧ w.lamp = false

/-- The memory path after a reset (R55, R96, R151, R164, R165, R169, R172, R175). -/
def Part.pathAtRest (p : Part) : Prop :=
  p.writer.queue = [] ∧ p.writer.active = none ∧ p.ring = [] ∧ p.arbiter = 0 ∧ p.lastBlocked = 0
    ∧ p.snap.held = false ∧ p.snap.kind = .station ∧ p.live.summary = 0 ∧ p.live.refusal = 0
    ∧ p.live.blocked = 0 ∧ p.live.free = 0 ∧ p.moveJob = 0 ∧ p.branchSel = 0
    ∧ ∀ b : Branch, p.live.score.get b = 0 ∧ p.live.branch.get b = 0 ∧ p.path b = []

/-- The walks, the copy engine and the job manager after a reset (R68, R75, R77, R88). -/
def Part.jobsAtRest (p : Part) : Prop :=
  p.toTrunk.state = .idle ∧ p.toTrunk.index = 0 ∧ p.toTrunk.pending = false
    ∧ p.submit.state = .idle ∧ p.submit.index = 0 ∧ p.submit.pending = false
    ∧ p.copy.current = none ∧ p.copy.last ≠ some .toTrunk ∧ p.copy.stopped = none ∧ p.stamp = 0
    ∧ (∀ j : JobNo, (p.job j).state = .free) ∧ ∀ k : Port, p.queue k = []

/-- Every block at its reset state but for the tables of units and nodes, which SOFT_RESET reloads (R190). -/
def Part.atRest (p : Part) : Prop :=
  p.setup = Setup.default ∧ p.notices.latches = 0 ∧ p.notices.reason = none ∧ p.notices.code = 0
    ∧ p.pool.free = List.finRange 256 ∧ p.pool.hostHeld = [] ∧ p.router.producer = 0
    ∧ p.router.offers = [] ∧ p.loader.startState = .init
    ∧ p.probe.state = .idle ∧ p.probe.queue = [] ∧ p.probe.ppulse = false
    ∧ p.pathAtRest ∧ p.jobsAtRest ∧ p.sense.atRest ∧ (∀ b n, (p.station b n).atRest)
    ∧ (∀ k : Port, (p.port k).atRest)
    ∧ ∀ b : Branch, (p.engine b).atRest ∧ (p.sup b).atRest ∧ (p.switch b).atRest
        ∧ (p.records.get b).valid = false ∧ p.router.unroutable.get b = 0

/-- The unit map and the node list after a power-on or pin reset (R47, R49). -/
def Part.tablesBlank (p : Part) : Prop :=
  (∀ u : Fin 256, (p.units.get u).kind = .unassigned ∧ (p.units.get u).mask = 0xF)
    ∧ ∀ n : Fin 64, (p.nodes.get n).valid = false ∧ (p.nodes.get n).addr = Vector.replicate 6 0

/-! ## Invariants -/

/-- The buffer memory is in its canonical form. -/
def State.memoryCanonical (s : State) : Prop := Mem.wf s.mem = true

/-- No switch asserts both of its drives (R141). -/
def State.drivesExclusive (s : State) : Prop :=
  ∀ b : Branch, ((s.part.switch b).rline && (s.part.switch b).rprobe) = false

/-- The thresholds of a setup lie where the clamping leaves them: TC below TW below TI, and TI at most 1023
(R133, R178). -/
def Setup.scoresBounded (u : Setup) : Prop :=
  ∀ b : Branch, (u.branch.get b).tc < (u.branch.get b).tw ∧ (u.branch.get b).tw < (u.branch.get b).ti
    ∧ (u.branch.get b).ti ≤ 1023

/-- Every fault score is at most 1023 (6.4). The thresholds in force and those of a commit in progress are part
of it, in their order, since entry to ON_TRIAL makes the score TC. -/
def State.scoresBounded (s : State) : Prop :=
  (∀ b : Branch, (s.part.sup b).score ≤ 1023) ∧ s.part.setup.scoresBounded
    ∧ ∀ next pos, s.part.loader.task = .writing next pos → next.scoresBounded

end Sys2Proof.Machine
end

