-- ==== Sys2Proof/Certificates/Slice0/Obligations.lean ====
section
/-! DEFINITION. The statements for the provers, in the order of OBLIGATIONS.json. Each is about one step on any
state; where a clause rests on a choice of the model its docstring names the log entry. -/

open Sys2Proof Sys2Proof.Machine

/-! ## The queue of commands and the resets -/

/-- A step takes the command at the front of the queue and runs it on the state with the queue's rest. -/
def Obligations.StepRunsTheFrontCommand : Prop :=
  ∀ (c : Instr) (rest : List Instr) (s : State), s.pending = c :: rest →
    step s = exec c { s with pending := rest }

/-- No command stops the part, in any state, and none touches the queue of waiting commands. On an empty queue
the part idles: the model's choice, log 2. -/
def Obligations.EveryCommandAnswersAndKeepsTheQueue : Prop :=
  (∀ (i : Instr) (s : State), ∃ t : State, exec i s = .next t ∧ t.pending = s.pending)
  ∧ (∀ s : State, s.pending = [] → step s = .next s)

/-- Right after a power-on reset every block is at the reset state its rule gives, the tables of units and nodes
are blank, start-up initialisation has begun with nothing written, and no command waits. The buffer memory lists
nothing (what an unlisted byte reads as is the model's choice, log 3). The state after a power-on reset has
every invariant below. -/
def Obligations.ResetStateIsAtRest : Prop :=
  (State.reset.part.atRest ∧ State.reset.part.tablesBlank
     ∧ State.reset.part.loader.task = .initialise false 0 [] ∧ State.reset.part.held = false
     ∧ State.reset.mem = [] ∧ State.reset.pending = [])
  ∧ (State.reset.memoryCanonical ∧ State.reset.drivesExclusive ∧ State.reset.scoresBounded)

/-- The three resets bring the whole part to rest whatever it was doing; the buffer memory is not touched where
no host access waits. A power-on reset begins INIT at once unless /RESET is low (log 25); while /RESET is low
the part is held and nothing begins; SOFT_RESET begins INIT at once and keeps the tables of units and nodes for
the reload (log 33). The input levels are not reset (log 4), nor is the count of free values drawn (log 34). A
host access that waits on /WAIT when a power-on reset comes is ended at once: a read returns the byte that
memory holds; a write is decided after the reset, which has begun INIT, so it is stored in the host area and
blocked in a region that INIT writes or that only the part writes (and in the pool, whose host-held set is then
empty). -/
def Obligations.ResetsBringThePartToRest : Prop :=
  (∀ s : State, s.part.hostWait = none →
     (∃ t, exec .powerOnReset s = .next t ∧ t.part.atRest ∧ t.part.tablesBlank ∧ t.mem = s.mem
       ∧ t.part.hostWait = none ∧ t.part.held = s.part.held
       ∧ t.part.loader.task = (if s.part.held then .idle else .initialise false 0 [])
       ∧ t.part.button = s.part.button ∧ t.part.draws = s.part.draws)
     ∧ (∃ t, exec .pinResetAssert s = .next t ∧ t.part.atRest ∧ t.part.tablesBlank ∧ t.mem = s.mem
       ∧ t.part.hostWait = none ∧ t.part.held = true ∧ t.part.loader.task = .idle
       ∧ t.part.button = s.part.button ∧ t.part.draws = s.part.draws)
     ∧ ∀ v : Byte, s.part.held = false →
       ∃ t, exec (.softReset v) s = .next t ∧ t.part.atRest ∧ t.mem = s.mem
         ∧ t.part.hostWait = none ∧ t.part.held = false
         ∧ t.part.loader.task = .initialise true 0 []
         ∧ t.part.units = s.part.units ∧ t.part.nodes = s.part.nodes
         ∧ t.part.button = s.part.button ∧ t.part.draws = s.part.draws)
  ∧ (∀ (s : State) (a : Addr) (v : Byte), s.part.held = false →
       (s.part.hostWait = some (.read a) →
         ∃ t, exec .powerOnReset s = .next t ∧ t.mem = s.mem ∧ t.part.atRest ∧ t.part.hostWait = none
           ∧ t.part.hostData = Mem.read s.mem a.toNat)
       ∧ (s.part.hostWait = some (.write a v) → 0x03000 ≤ a.toNat → a.toNat < 0x10000 →
         ∃ t, exec .powerOnReset s = .next t ∧ t.mem = Mem.write s.mem a.toNat v ∧ t.part.atRest
           ∧ t.part.hostWait = none)
       ∧ (s.part.hostWait = some (.write a v) →
           (0x00100 ≤ a.toNat ∧ a.toNat < 0x00E80 ∧ ¬ (0x00960 ≤ a.toNat ∧ a.toNat < 0x00980))
             ∨ (0x01000 ≤ a.toNat ∧ a.toNat < 0x02D00) ∨ 0x10000 ≤ a.toNat →
         ∃ t, exec .powerOnReset s = .next t ∧ t.mem = s.mem ∧ t.part.hostWait = none
           ∧ t.part.lastBlocked = a ∧ t.part.notices.reason = some .blockedWrite ∧ t.part.notices.code = 0xF2
           ∧ t.part.notices.latches = 0x2000))

/-- INIT begins when /RESET rises. It ends once every memory cycle of the initialisation is made: the state
becomes READY, READY_DONE (15) is latched and the sense period timer starts; nothing else changes, and before
that the command has no effect (log 1). -/
def Obligations.InitialisationBeginsAndEnds : Prop :=
  (∀ s : State, s.part.held = true →
    exec .pinResetRelease s =
      .next (s.withPart { s.part with
        held := false, loader := { s.part.loader with task := .initialise false 0 [] } }))
  ∧ (∀ s : State, s.part.held = false → exec .pinResetRelease s = .next s)
  ∧ ∀ (s : State) (soft : Bool) (pos : Nat) (entry : List Byte), s.part.held = false →
    s.part.loader.task = .initialise soft pos entry →
    (Config.initCycles soft ≤ pos →
      exec .initialisationComplete s =
        .next (s.withPart { s.part with
          loader := { startState := .ready, task := .idle }
          sense := { s.part.sense with
            period := if s.part.setup.sensePeriod = 0 then none else some s.part.setup.sensePeriod }
          notices := { s.part.notices with latches := s.part.notices.latches ||| 0x8000 } }))
    ∧ (pos < Config.initCycles soft → exec .initialisationComplete s = .next s)

/-! ## The command words and the reads that change the part -/

/-- During start-up initialisation every command word but SOFT_RESET is refused with INIT: REFUSED is set,
LAST_REFUSAL holds INIT and the command's code, and nothing else changes. An argument out of range is refused
with BAD_ARGUMENT: REFUSED is set, LAST_REFUSAL holds the reason and the command's code, and nothing else
changes (so a value held keeps its old value). That a refused BRANCH_SEL or JOB_MOVE_JOB records its own code,
and not that of BRANCH_ACTION or JOB_MOVE_PRINTER, is the model's choice (log 57). -/
def Obligations.CommandWordsAreRefused : Prop :=
  (∀ (i : Instr) (code : Byte) (s : State), commandCode i = some code → s.busReady →
     s.part.loader.startState = .init → exec i s = .next (s.withPart (s.part.refusedWith .init code)))
  ∧ (∀ (i : Instr) (code : Byte) (limit : Nat) (v : Byte) (s : State), commandCode i = some code →
       argumentLimit i = some (limit, v) → limit ≤ v.toNat → s.takesCommands →
       exec i s = .next (s.withPart (s.part.refusedWith .badArgument code)))

/-- JOB_MOVE_JOB, BRANCH_SEL and SNAP_KIND each hold their argument for the command that follows, and change
nothing else. CAPTURE_RELEASE empties the branch's capture and asks for its image; CLEAR_COUNTERS clears the
eight per-kind counters and the poll-skipped, relay-dropped and unroutable counters of the branch, and leaves
the score, the warn flag and the capture. -/
def Obligations.ValuesAreHeldAndCountersCleared : Prop :=
  (∀ s : State, s.takesCommands →
     (∀ j : JobNo, exec (.jobMoveJob (BitVec.ofNat 8 j.val)) s =
       .next (s.withPart { s.part with moveJob := j }))
     ∧ (∀ b : Branch, exec (.branchSel (BitVec.ofNat 8 b.val)) s =
       .next (s.withPart { s.part with branchSel := b }))
     ∧ exec (.snapKind 0) s = .next (s.withPart { s.part with snap := { s.part.snap with kind := .station } })
     ∧ exec (.snapKind 1) s = .next (s.withPart { s.part with snap := { s.part.snap with kind := .job } })
     ∧ exec (.snapKind 2) s = .next (s.withPart { s.part with snap := { s.part.snap with kind := .branch } }))
  ∧ (∀ (s : State) (b : Branch), s.takesCommands →
       exec (.captureRelease (BitVec.ofNat 8 b.val)) s =
         .next (s.withPart (Part.asksWrite
           { s.part with sups := put s.part.sups b { s.part.sup b with
               capture := { valid := false, kind := .miss, station := 0, stamp := 0, chars := [], detail := 0
                            further := 0 } } }
           (recordWrite (.capture b) 0)))
       ∧ exec (.clearCounters (BitVec.ofNat 8 b.val)) s =
         .next (s.withPart { s.part with
           sups := put s.part.sups b { s.part.sup b with kinds := Vector.replicate 8 0 }
           engines := put s.part.engines b { s.part.engine b with pollSkipped := 0, relayDropped := 0 }
           router := { s.part.router with unroutable := put s.part.router.unroutable b 0 } }))

/-- RETURN_BUFFER: a buffer of the host-held set leaves it and joins the tail of the free list, received bytes
still to be written to it are dropped (the model's choice, log 31) and a payload shift of it stops after the
byte in progress, which is still to be written, and a walk that waits is due a retry; any other buffer is
refused with NOT_OWNED. JOB_RELEASE: a job that is DONE or ABORTED becomes FREE, its image is written as a FREE
record and a submission walk that waits is due a retry; in any other state the command is refused with
BAD_STATE. -/
def Obligations.ReleasesFreeABufferOrAJob : Prop :=
  (∀ (s : State) (v : Byte), s.takesCommands →
     (v.toFin ∈ s.part.pool.hostHeld →
       exec (.returnBuffer v) s = .next (s.withPart { s.part with
         pool := { free := s.part.pool.free ++ [v.toFin]
                   hostHeld := s.part.pool.hostHeld.filter fun x => x != v.toFin }
         paths := s.part.paths.map fun l => l.filterMap (PathOp.afterFree v.toFin)
         toTrunk := if s.part.toTrunk.state = .waiting then { s.part.toTrunk with retryDue := true }
                    else s.part.toTrunk
         submit := if s.part.submit.state = .waiting then { s.part.submit with retryDue := true }
                   else s.part.submit }))
     ∧ (v.toFin ∉ s.part.pool.hostHeld →
       exec (.returnBuffer v) s = .next (s.withPart (s.part.refusedWith .notOwned 0x05))))
  ∧ (∀ (x y : BufNo) (off len i : Nat) (v : Byte) (byte : Option Byte) (z : LastByte),
       PathOp.afterFree x (.write x off v) = none
       ∧ PathOp.afterFree x (.shift x len i none) = none
       ∧ PathOp.afterFree x (.shift x len i (some v)) = some (.last { buf := x, off := i, value := v })
       ∧ PathOp.afterFree x (.last z) = some (.last z)
       ∧ (y ≠ x → PathOp.afterFree x (.write y off v) = some (.write y off v)
           ∧ PathOp.afterFree x (.shift y len i byte) = some (.shift y len i byte)))
  ∧ (∀ (s : State) (j : JobNo), s.takesCommands →
       ((s.part.job j).state = .done ∨ (s.part.job j).state = .aborted →
         ∃ t, exec (.jobRelease (BitVec.ofNat 8 j.val)) s = .next t
           ∧ (t.part.job j).state = .free ∧ (t.part.job j).chain = []
           ∧ t = s.withPart (Part.asksWrite { s.part with
               jobs := put s.part.jobs j (t.part.job j)
               submit := if s.part.submit.state = .waiting then { s.part.submit with retryDue := true }
                         else s.part.submit } (recordWrite (.job j) 0)))
       ∧ ((s.part.job j).state ≠ .done → (s.part.job j).state ≠ .aborted →
         exec (.jobRelease (BitVec.ofNat 8 j.val)) s = .next (s.withPart (s.part.refusedWith .badState 0x06))))

/-- SENSE_NOW and the expiry of the running period timer trigger a pass of an IDLE sequencer; in PENDING and
BUSY the trigger is missed and counted, up to 255. The timer starts again with the sense_period in force, and
stops where that is 0. -/
def Obligations.SenseTriggersStartAPassOrAreCounted : Prop :=
  ∀ s : State,
    let q := s.part.sense
    let triggered : Sense :=
      if q.state = .idle then { q with state := .pending }
      else { q with missed := if q.missed < 255 then q.missed + 1 else 255 }
    (∀ v : Byte, s.takesCommands →
      exec (.senseNow v) s = .next (s.withPart { s.part with sense := triggered }))
    ∧ (s.part.held = false → q.period.isSome = true →
      exec .sensePeriodExpiry s = .next (s.withPart { s.part with sense := { triggered with
        period := if s.part.setup.sensePeriod = 0 then none else some s.part.setup.sensePeriod } }))

/-- SNAP_INDEX copies the record named by the held kind and the index into an EMPTY window: 30 bytes of the
record, then the index and the kind code. While the window is HELD the request changes nothing, and an index out
of the kind's range is refused with BAD_ARGUMENT. -/
def Obligations.SnapshotRequestFillsAnEmptyWindow : Prop :=
  ∀ (s : State) (v : Byte), s.takesCommands →
    let window (l : List Byte) (k : Byte) : Vector Byte 32 :=
      Vector.ofFn fun i => if i.val = 30 then v else if i.val = 31 then k else l.getD i.val 0
    let filled (l : List Byte) (k : Byte) : State :=
      s.withPart { s.part with snap := { s.part.snap with held := true, content := window l k } }
    (s.part.snap.kind = .station → s.part.snap.held = false →
      exec (.snapIndex v) s = .next (filled
        (stationLow (s.part.stations.get v.toFin) ++ stationHigh (s.part.stations.get v.toFin)) 0))
    ∧ (∀ j : JobNo, v.toNat = j.val → s.part.snap.kind = .job → s.part.snap.held = false →
      exec (.snapIndex v) s = .next (filled (s.part.jobSnap j) 1))
    ∧ (∀ b : Branch, v.toNat = b.val → s.part.snap.kind = .branch → s.part.snap.held = false →
      exec (.snapIndex v) s = .next (filled (s.part.branchSnap b) 2))
    ∧ (s.part.snap.kind = .station ∨ (s.part.snap.kind = .job ∧ v.toNat < 32)
        ∨ (s.part.snap.kind = .branch ∧ v.toNat < 4) → s.part.snap.held = true →
      exec (.snapIndex v) s = .next s)
    ∧ ((s.part.snap.kind = .job ∧ 32 ≤ v.toNat) ∨ (s.part.snap.kind = .branch ∧ 4 ≤ v.toNat) →
      exec (.snapIndex v) s = .next (s.withPart (s.part.refusedWith .badArgument 0x10)))

/-- A read of SUMMARY_LO captures all sixteen latches into the copy, turns off exactly those captured on and
returns the low byte of the copy; SUMMARY_HI then reads the high byte of that copy and clears nothing;
afterwards /ATTN is asserted only by a latch set since, and a cause after the capture is on. After every reset
the copy reads 0. -/
def Obligations.SummaryReadCapturesAndClears : Prop :=
  (∀ s : State, s.busReady →
    ∃ t, exec .summaryLoRead s = .next t
      ∧ t = s.withPart { s.part with
          live := { s.part.live with summary := s.part.notices.latches }
          notices := { s.part.notices with latches := 0 }
          hostData := s.part.notices.latches.truncate 8 }
      ∧ t.hostRead 0x41 = some (byteOf s.part.notices.latches.toNat 1)
      ∧ t.part.attn = false
      ∧ ∀ n : Notice, (Part.notify n t.part).notices.latches = n.bit
          ∧ ((Part.notify n t.part).attn = true ↔ s.part.setup.noticeEnable &&& n.bit ≠ 0))
  ∧ (∀ n : Notice, ∀ s : State, s.busReady →
      ∃ t, exec .summaryLoRead (s.withPart (Part.notify n s.part)) = .next t
        ∧ t.part.live.summary &&& n.bit = n.bit ∧ t.part.notices.latches &&& n.bit = 0)
  ∧ (∀ s : State, s.part.held = false → s.part.live.summary = 0 → s.hostRead 0x41 = some 0)
  ∧ State.reset.part.live.summary = 0

/-- TOP_CAUSE reads the number of the lowest-numbered latch that is on and enabled, or 0xFF where there is none,
which is exactly while /ATTN is deasserted; so with an empty enable set it reads 0xFF whatever latches are on.
The read is no command and changes nothing. -/
def Obligations.TopCauseIsTheLowestEnabledLatch : Prop :=
  ∀ s : State, s.part.held = false →
    (∀ i : Fin 16, s.part.notices.latches.getLsbD i.val = true → s.part.setup.noticeEnable.getLsbD i.val = true →
      (∀ k : Fin 16, k < i →
        ¬ (s.part.notices.latches.getLsbD k.val = true ∧ s.part.setup.noticeEnable.getLsbD k.val = true)) →
      s.hostRead 0x42 = some (BitVec.ofNat 8 i.val) ∧ s.part.attn = true)
    ∧ ((∀ k : Fin 16,
        ¬ (s.part.notices.latches.getLsbD k.val = true ∧ s.part.setup.noticeEnable.getLsbD k.val = true)) →
      s.hostRead 0x42 = some 0xFF ∧ s.part.attn = false)
    ∧ (s.part.setup.noticeEnable = 0 → s.hostRead 0x42 = some 0xFF)
    ∧ (s.hostRead 0x42 = some 0xFF ↔ s.part.attn = false)

/-- A read of the first byte of LAST_REFUSAL, LAST_BLOCKED, FREE_COUNT, SCOREb or BRANCH_STATEb captures the
word's value into that word's own copy and returns its first byte; no other copy, and nothing else, changes. -/
def Obligations.FirstByteReadsCaptureTheWord : Prop :=
  ∀ s : State, s.busReady →
    let lr : BitVec 16 := s.part.notices.code ++ (BitVec.ofNat 8 (reasonCode s.part.notices.reason))
    exec (.liveWordFirstByteRead .lastRefusal) s =
      .next (s.withPart { s.part with
        live := { s.part.live with refusal := lr }, hostData := BitVec.ofNat 8 (reasonCode s.part.notices.reason) })
    ∧ exec (.liveWordFirstByteRead .lastBlocked) s =
      .next (s.withPart { s.part with
        live := { s.part.live with blocked := s.part.lastBlocked.zeroExtend 24 }
        hostData := s.part.lastBlocked.truncate 8 })
    ∧ exec (.liveWordFirstByteRead .freeCount) s =
      .next (s.withPart { s.part with
        live := { s.part.live with free := BitVec.ofNat 16 s.part.pool.free.length }
        hostData := BitVec.ofNat 8 s.part.pool.free.length })
    ∧ ∀ b : Branch,
      (let w := BitVec.ofNat 16 ((s.part.sup b).score + if (s.part.sup b).warn then 0x8000 else 0)
       exec (.liveWordFirstByteRead (.score b)) s =
        .next (s.withPart { s.part with
          live := { s.part.live with score := put s.part.live.score b w }, hostData := w.truncate 8 }))
      ∧ (let x := s.part.switch b
         let w := BitVec.ofNat 16 (x.state.code + 16 * x.relay.code
           + 256 * (x.isolations + 8 * isoReasonCode x.reason + 64 * x.verdict.code))
         exec (.liveWordFirstByteRead (.branchState b)) s =
          .next (s.withPart { s.part with
            live := { s.part.live with branch := put s.part.live.branch b w }, hostData := w.truncate 8 }))

/-- A read of SENSE_MISSED returns the count and clears it; while /RESET is low every read returns 0 and changes
nothing else. Each byte of the window reads as the content holds it; the read of byte 31 returns it and makes a
HELD window EMPTY, keeps the content, and changes nothing of an EMPTY window. -/
def Obligations.ReadsThatClearOrRelease : Prop :=
  ((∀ s : State, s.busReady → exec .senseMissedRead s =
     .next (s.withPart { s.part with
       sense := { s.part.sense with missed := 0 }, hostData := BitVec.ofNat 8 s.part.sense.missed }))
   ∧ ∀ s : State, s.part.held = true →
     exec .senseMissedRead s = .next (s.withPart { s.part with hostData := 0 })
     ∧ exec .summaryLoRead s = .next (s.withPart { s.part with hostData := 0 })
     ∧ exec .snapshotWindowLastByteRead s = .next (s.withPart { s.part with hostData := 0 })
     ∧ ∀ w : LiveWord, exec (.liveWordFirstByteRead w) s = .next (s.withPart { s.part with hostData := 0 }))
  ∧ (∀ s : State, s.busReady →
       (∀ i : Fin 32, s.hostRead (BitVec.ofNat 17 (0xE0 + i.val)) = some (s.part.snap.content.get i))
       ∧ exec .snapshotWindowLastByteRead s =
           .next (s.withPart { s.part with
             snap := { s.part.snap with held := false }, hostData := s.part.snap.content.get 31 }))

/-! ## Commit -/

/-- COMMIT is taken in READY and RUNNING with the commit state IDLE: the loader begins to read the 512 bytes.
While a commit is in progress it is refused with BUSY and changes nothing else. Once the 512 bytes are read the
clamped values wait for the write-back, nothing being in force yet. A new derived prefix is held at the old one
if an assigned address begins with it. The end of a commit: the clamped values are in force, the commit state is
IDLE, READY_DONE (15) is latched and READY becomes RUNNING. A host write to the setup block that waited is
stored over the written-back byte. A branch DISABLED whose enable is newly set enters CLOSING: its relay moves
to LINE for settle_ms with RLINEn asserted, its isolation count and verdict are cleared. Before the 512 bytes
are read, or written back, the command that ends the phase has no effect (the model's choice, log 1). Shown for
a branch whose fault input is high; what the commit does to the enables it changes otherwise is the next
statement. -/
def Obligations.CommitRunsItsPhases : Prop :=
  (∀ (s : State) (v : Byte), s.takesCommands →
     (s.part.loader.task = .idle →
       exec (.commit v) s = .next (s.withPart { s.part with
         loader := { s.part.loader with task := .reading [] } }))
     ∧ (s.part.loader.task ≠ .idle →
       exec (.commit v) s = .next (s.withPart (s.part.refusedWith .busy 0x01))))
  ∧ (∀ (s : State) (l : List Byte), s.part.held = false → s.part.loader.task = .reading l →
       (l.length < 512 → exec .commitReadComplete s = .next s)
       ∧ (512 ≤ l.length → ∃ (t : State) (next : Setup), exec .commitReadComplete s = .next t
         ∧ t = s.withPart { s.part with loader := { s.part.loader with task := .writing next 0 } }
         ∧ next.branchEnable = (l.getD 0 0).truncate 4
         ∧ next.noticeEnable = (l.getD 12 0) ++ (l.getD 11 0)
         ∧ next.sensePeriod = (l.getD 8 0).toNat
         ∧ next.reserve = min 128 (l.getD 5 0).toNat
         ∧ next.jobBufferLimit = max 1 (min 128 (l.getD 6 0).toNat)
         ∧ next.stationJobLimit = max 1 (min 8 (l.getD 7 0).toNat)
         ∧ next.shortLimit = min 254 (l.getD 9 0).toNat
         ∧ next.openLimit = max (next.shortLimit + 1) (l.getD 10 0).toNat
         ∧ ((∃ a ∈ s.part.assignedAddrs, ∀ k : Fin 4, a.get (k.castLE (by omega)) = l.getD (1 + k.val) 0) →
             next.derivedPrefix = s.part.setup.derivedPrefix)
         ∧ ((∀ a ∈ s.part.assignedAddrs, ∃ k : Fin 4, a.get (k.castLE (by omega)) ≠ l.getD (1 + k.val) 0) →
             ∀ k : Fin 4, next.derivedPrefix.get k = l.getD (1 + k.val) 0)))
  ∧ (∀ (s : State) (next : Setup) (pos : Nat), s.part.held = false → s.part.loader.task = .writing next pos →
       (pos < 512 → exec .commitApplication s = .next s)
       ∧ (512 ≤ pos → ∃ t, exec .commitApplication s = .next t
         ∧ t.part.setup = next ∧ t.part.loader.task = .idle
         ∧ (s.part.hostWait = none → t.mem = s.mem)
         ∧ (∀ (a : Addr) (v : Byte), s.part.hostWait = some (.write a v) → 0x100 ≤ a.toNat → a.toNat < 0x300 →
             s.part.loader.startState ≠ .init → t.mem = Mem.write s.mem a.toNat v ∧ t.part.hostWait = none)
         ∧ t.part.loader.startState =
             (if s.part.loader.startState = .ready then .running else s.part.loader.startState)
         ∧ t.part.notices.latches.getLsbD 15 = true
         ∧ ∀ b : Branch, (s.part.switch b).state = .disabled → (s.part.switch b).rflt = false →
             (next.branchEnable.getLsbD b.val = true → s.part.setup.branchEnable.getLsbD b.val = false →
               (t.part.switch b).state = .closing ∧ (t.part.switch b).rline = true
               ∧ (t.part.switch b).rprobe = false
               ∧ (t.part.switch b).relay = .moving .line (next.branch.get b).settleMs
               ∧ (t.part.switch b).isolations = 0 ∧ (t.part.switch b).verdict = .none)))

/-- Every field of a branch and of a printer is brought into its range, whatever the bytes: a value below
becomes the lowest of the range, a value above the highest, a value within is kept, and auto_probe and a
printer's enable are 1 for every value but 0. The thresholds are clamped in the order TI, TW, TC, each against
what the one before was given: so they keep their order, TC below TW below TI, and thresholds written in order
within range are kept. The four worked rows of the rule come out as it gives them. The end of the reading hands
on, for each branch and each printer, the values of its own bytes of the block. The end of the commit acts on
the enables that it changes. A branch disabled in ISOLATED or LOCKED_OUT is DISABLED at once with its timer,
counts, score, capture and PRESENT stations gone; so is one that waits for the probe unit; one in an exchange
drains, its engine stopping after the exchange, its verdict NONE and its trial count 0 (the model's choice, log
16); one in a sequence or being probed takes the destination DISABLED. A printer newly enabled takes the state
its conditions give, with PRINTER (7) and the redirect timer where that is trouble. A printer disabled aborts
its current job, its ASSEMBLING jobs and, without an alternate, its waiting jobs with PRINTER_GONE, and drives
its lines to rest; a byte in handshake sets the abandoned-byte mark (the model's choice, log 11); an alternate
with room takes the waiting jobs in order, whatever their moved flag. -/
def Obligations.CommitClampsEveryField : Prop :=
  ((∀ l : List Byte,
     let f := readBranchSetup l
     let b (i : Nat) : Nat := (l.getD i 0).toNat
     f.replyWindow = max 2 (min 64 (b 0)) ∧ f.gapLimit = max 1 (min 8 (b 1)) ∧ f.missLimit = max 1 (min 15 (b 2))
     ∧ f.conflictLimit = max 1 (min 15 (b 3)) ∧ f.sweepInterval = max 1 (b 4) ∧ f.holdLimit = max 1 (b 5)
     ∧ f.listenMs = min 16 (b 6) ∧ f.noiseLimit = b 7 ∧ f.deglitch = min 2 (b 8)
     ∧ f.immediateMask = l.getD 9 0 ||| 0x80 ∧ f.captureMask = l.getD 10 0
     ∧ f.autoProbe = decide (b 0x0B ≠ 0)
     ∧ f.d = b 0x1A ∧ f.decayPeriod = max 1 (b 0x1B) ∧ f.c = min 15 (b 0x1C) ∧ f.settleMs = max 5 (b 0x1D)
     ∧ f.restoreDelay = b 0x1E ∧ f.restoreLimit = max 1 (min 7 (b 0x1F)) ∧ f.trialRounds = max 1 (b 0x20)
     ∧ f.probeCount = max 1 (min 8 (b 0x21)) ∧ f.blankTicks = b 0x22 ∧ f.zeroOffset = b 0x23
     ∧ f.k = max 1 (min 2047 (b 0x24 + 256 * b 0x25))
     ∧ f.expectedLength = max 1 (min 2000 (b 0x26 + 256 * b 0x27)) ∧ f.tolerance = max 1 (b 0x28)
     ∧ ∀ k : Fin 8, f.weights.get k = b (0x0C + k.val))
   ∧ ∀ l : List Byte,
     let f := readPrinterSetup l
     f.enable = decide ((l.getD 0 0).toNat ≠ 0)
       ∧ f.stallS = max 1 (l.getD 1 0).toNat ∧ f.redirectS = (l.getD 2 0).toNat
       ∧ f.alternate = min 3 (l.getD 3 0).toNat)
  ∧ ((∀ l : List Byte,
       let f := readBranchSetup l
       let w (i : Nat) : Nat := (l.getD i 0).toNat + 256 * (l.getD (i + 1) 0).toNat
       f.ti = max 2 (min 1023 (w 0x14)) ∧ f.tw = max 1 (min (f.ti - 1) (w 0x16)) ∧ f.tc = min (f.tw - 1) (w 0x18)
       ∧ f.tc < f.tw ∧ f.tw < f.ti ∧ f.ti ≤ 1023)
     ∧ ∀ row ∈ [(640, 256, 128, 640, 256, 128), (700, 900, 950, 700, 699, 698), (1, 1, 1, 2, 1, 0),
         (1500, 300, 300, 1023, 300, 299)],
       let (ti, tw, tc, ti', tw', tc') := row
       let f := readBranchSetup (zeros 0x14 ++ le16 ti ++ le16 tw ++ le16 tc)
       f.ti = ti' ∧ f.tw = tw' ∧ f.tc = tc')
  ∧ (∀ (s : State) (l : List Byte), s.part.held = false → s.part.loader.task = .reading l → 512 ≤ l.length →
       ∃ (t : State) (next : Setup), exec .commitReadComplete s = .next t ∧ t.part.loader.task = .writing next 0
         ∧ (∀ b : Branch, next.branch.get b = readBranchSetup ((l.drop (0x20 + 0x60 * b.val)).take 0x60))
         ∧ ∀ k : Port, next.printer.get k = readPrinterSetup ((l.drop (0x1A0 + 8 * k.val)).take 8))
  ∧ (∀ (s : State) (next : Setup) (pos : Nat), s.part.held = false → s.part.loader.task = .writing next pos →
       512 ≤ pos → s.part.hostWait = none →
       ∃ t, exec .commitApplication s = .next t
         ∧ (∀ b : Branch, s.part.setup.branchEnable.getLsbD b.val = true → next.branchEnable.getLsbD b.val = false →
           let w := s.part.switch b
           let served := s.part.probe.state ≠ .idle ∧ s.part.probe.queue.head? = some b
           (w.state = .isolated ∨ w.state = .lockedOut ∨ (w.state = .probing ∧ ¬ served) →
             w.dest ≠ some .disabled → w.enablePending = false →
             (t.part.switch b).state = .disabled ∧ (t.part.switch b).dest = none
             ∧ (t.part.switch b).restore = none ∧ (t.part.switch b).isolations = 0
             ∧ (t.part.switch b).verdict = .none ∧ (t.part.sup b).score = 0 ∧ (t.part.sup b).warn = false
             ∧ (t.part.sup b).capture.valid = false
             ∧ ∀ n : StationNo, n ≠ 0 → n ≠ 63 → (t.part.station b n).state ≠ .present)
           ∧ (w.state = .inService ∨ w.state = .onTrial → w.dest ≠ some .disabled →
             ((s.part.engine b).state = .initialSweep ∨ (s.part.engine b).state = .rounds) →
             (s.part.engine b).phase.inExchange = true →
             (t.part.switch b).state = .draining ∧ (t.part.switch b).dest = some .disabled
             ∧ (t.part.switch b).verdict = .none ∧ (t.part.switch b).trial = 0
             ∧ (t.part.engine b).state = .stopping)
           ∧ (w.state = .draining ∨ w.state = .opening ∨ w.state = .closing ∨ (w.state = .probing ∧ served) →
             w.dest ≠ some .disabled →
             t.part.switch b = { w with dest := some .disabled }))
         ∧ ∀ k : Port, next.branchEnable = s.part.setup.branchEnable →
           (∀ i : Port, i ≠ k → (s.part.printerSetup i).enable = (next.printer.get i).enable) →
           let y := s.part.port k
           ((s.part.printerSetup k).enable = false → (next.printer.get k).enable = true →
             y.state = .disabled → y.job = none → y.loadPending = false → y.stalled = false →
             s.part.queue k = [] →
             (y.fault = false → y.paperOut = false → y.deselected = false → (t.part.port k).state = .idle)
             ∧ (y.fault = true ∨ y.paperOut = true ∨ y.deselected = true →
                 (t.part.port k).state = (if y.fault then .fault else if y.paperOut then .paperOut else .offline)
                 ∧ t.part.notices.latches.getLsbD 7 = true
                 ∧ (t.part.port k).redirect = (if (next.printer.get k).redirectS = 0 then none
                     else some (next.printer.get k).redirectS)))
           ∧ ((s.part.printerSetup k).enable = true → (next.printer.get k).enable = false →
             3 ≤ (next.printer.get k).alternate → s.part.submit.job = none →
             (∀ i ∈ s.part.queue k, (s.part.job i).state = .waiting ∧ (s.part.job i).printer = k) →
             (∀ j, y.job = some j → (s.part.job j).state = .printing ∨ (s.part.job j).state = .held) →
             (t.part.port k).state = .disabled ∧ (t.part.port k).job = none ∧ (t.part.port k).handshake = none
             ∧ (t.part.port k).data = 0 ∧ (t.part.port k).strobe = false ∧ (t.part.port k).stall = none
             ∧ (t.part.port k).redirect = none ∧ (t.part.port k).redirected = false
             ∧ (y.handshake.isSome = true → y.job.isSome = true → (t.part.port k).abandoned = true)
             ∧ t.part.queue k = []
             ∧ ∀ j : JobNo, y.job = some j ∨ j ∈ s.part.queue k
                 ∨ ((s.part.job j).state = .assembling ∧ (s.part.job j).printer = k) →
               (t.part.job j).state = .aborted ∧ (t.part.job j).result = some .printerGone
               ∧ (t.part.job j).chain = [])
           ∧ ((s.part.printerSetup k).enable = true → (next.printer.get k).enable = false →
             s.part.submit.job = none → (s.part.queue k).Nodup →
             (∀ i ∈ s.part.queue k, (s.part.job i).state = .waiting ∧ (s.part.job i).printer = k) →
             (∀ j, y.job = some j → (s.part.job j).state = .printing ∨ (s.part.job j).state = .held) →
             ∀ a : Port, (next.printer.get k).alternate = a.val → a ≠ k → (next.printer.get a).enable = true →
               (s.part.port a).state ≠ .idle → (s.part.queue a).length + (s.part.queue k).length ≤ 16 →
               t.part.queue k = [] ∧ t.part.queue a = s.part.queue a ++ s.part.queue k
               ∧ ∀ i ∈ s.part.queue k, t.part.job i = { s.part.job i with printer := a, moved := true }))

/-! ## The walks and the copy engine -/

/-- The checks of a to-trunk slot in their order, the first that fails giving the result: the length, the data
address, the target, its switch, its station (not checked for station 63, the broadcast). The target of a slot:
for BY_STATION the branch 0-3 and station 1-63 it names, for BY_ADDRESS the reverse lookup of its address, and
for any other addressing none. A reverse lookup gives the station whose assigned address it is, whatever its
state; else the station whose derived address it is, that has none assigned: the prefix in force, the branch and
the number; else none. POST_TO_TRUNK to an IDLE walk makes it WORKING and has it ask for the mark of the slot at
the consumer index; to any other walk it sets the pending flag. A mark read as POSTED has the walk ask for the
slot's fields; at any other mark the walk stops, or with the pending flag set clears it and reads the mark once
more. A retry of a WAITING walk that is due one asks for the fields again; of any other it has no effect (log
1). With the last of the fields read the checks are made on the slot as it was read: one that passes has the
walk ask for the copy engine where the target's queue has room and a buffer is free, and wait where not; one
that fails is written DONE with its result and TO_TRUNK_DONE (10), the index advances, and the next slot's mark
is asked for. The reads are the ring and descriptor requester's, each in its own memory cycle; that the checks
are made with the last of them is the model's choice (log 7). -/
def Obligations.ToTrunkWalkTakesTheSlotAtItsIndex : Prop :=
  (∀ (p : Part) (l : List Byte),
     let len := ttLength l
     let addr := ttData l
     let inArea := len = 0 ∨ (0x03000 ≤ addr ∧ addr + len ≤ 0x10000)
     (240 < len → p.ttCheck l = .error .tooLong)
     ∧ (len ≤ 240 → ¬ inArea → p.ttCheck l = .error .badAddress)
     ∧ (len ≤ 240 → inArea → p.ttTarget l = none → p.ttCheck l = .error .noRoute)
     ∧ ∀ (b : Branch) (n : StationNo), len ≤ 240 → inArea → p.ttTarget l = some (b, n) →
       ((p.switch b).state ≠ .inService → (p.switch b).state ≠ .onTrial → p.ttCheck l = .error .isolated)
       ∧ ((p.switch b).state = .inService ∨ (p.switch b).state = .onTrial →
         (n = 63 → p.ttCheck l = .ok (b, n))
         ∧ (n ≠ 63 →
           ((p.station b n).state = .present → p.ttCheck l = .ok (b, n))
           ∧ ((p.station b n).state = .absent → p.ttCheck l = .error .noStation)
           ∧ ((p.station b n).state = .barred → p.ttCheck l = .error .barred)
           ∧ ((p.station b n).state = .conflict → p.ttCheck l = .error .conflict))))
  ∧ (∀ (p : Part) (l : List Byte),
       (byteAt l 0x01 = 0 →
         (∀ (b : Branch) (n : StationNo), n ≠ 0 → (byteAt l 2).toNat = b.val → (byteAt l 3).toNat = n.val →
           p.ttTarget l = some (b, n))
         ∧ (4 ≤ (byteAt l 2).toNat ∨ 64 ≤ (byteAt l 3).toNat ∨ byteAt l 3 = 0 → p.ttTarget l = none))
       ∧ (byteAt l 0x01 = 1 → p.ttTarget l = p.reverseLookup (addrAt l 4))
       ∧ (2 ≤ (byteAt l 0x01).toNat → p.ttTarget l = none))
  ∧ (∀ (p : Part) (a : NodeAddr),
       let station (b : Branch) (n : StationNo) : Prop := n ≠ 0 ∧ n ≠ 63
         ∧ (p.station b n).assigned = none ∧ (∀ k : Fin 4, a.get (k.castLE (by omega)) = p.setup.derivedPrefix.get k)
         ∧ (a.get 4).toNat = b.val ∧ (a.get 5).toNat = n.val
       (∀ (b : Branch) (n : StationNo), n ≠ 0 → n ≠ 63 → (p.station b n).assigned = some a →
         (∀ (c : Branch) (m : StationNo), m ≠ 0 → m ≠ 63 → (p.station c m).assigned = some a → c = b ∧ m = n) →
         p.reverseLookup a = some (b, n))
       ∧ ((∀ (c : Branch) (m : StationNo), m ≠ 0 → m ≠ 63 → (p.station c m).assigned ≠ some a) →
         (∀ b n, station b n → p.reverseLookup a = some (b, n))
         ∧ ((∀ b n, ¬ station b n) → p.reverseLookup a = none)))
  ∧ (∀ (s : State) (v : Byte), s.takesCommands →
       (s.part.toTrunk.state ≠ .idle →
         exec (.postToTrunk v) s = .next (s.withPart { s.part with
           toTrunk := { s.part.toTrunk with pending := true } }))
       ∧ (s.part.toTrunk.state = .idle →
         exec (.postToTrunk v) s = .next (s.withPart { s.part with
           toTrunk := { s.part.toTrunk with state := .working }
           ring := s.part.ring ++
             [{ user := .toTrunk, addr := 0x02800 + 32 * s.part.toTrunk.index.val, left := 1, got := [] }] })))
  ∧ (∀ s : State, s.part.held = false →
       let due := s.part.toTrunk.state = .waiting ∧ s.part.toTrunk.retryDue = true
         ∧ ∀ r ∈ s.part.ring, r.user ≠ .toTrunk
       (¬ due → exec .toTrunkRetry s = .next s)
       ∧ (due → exec .toTrunkRetry s = .next (s.withPart { s.part with
           toTrunk := { s.part.toTrunk with retryDue := false }
           ring := s.part.ring ++
             [{ user := .toTrunk, addr := 0x02801 + 32 * s.part.toTrunk.index.val, left := 16, got := [] }] })))
  ∧ ∀ (p : Part) (m : List Host.Cell) (rest : List RingRead),
       let w := p.toTrunk
       let base := 0x02800 + 32 * w.index.val
       let mark (i : Fin 32) : RingRead := { user := .toTrunk, addr := 0x02800 + 32 * i.val, left := 1, got := [] }
       (w.state = .working → p.lastRead .toTrunk base [] rest →
         (Mem.read m base = 1 → Part.cycle .ring (p, m) =
           ({ p with ring := rest ++ [{ user := .toTrunk, addr := base + 1, left := 16, got := [] }] }, m))
         ∧ (Mem.read m base ≠ 1 → w.pending = true → Part.cycle .ring (p, m) =
           ({ p with toTrunk := { w with pending := false }, ring := rest ++ [mark w.index] }, m))
         ∧ (Mem.read m base ≠ 1 → w.pending = false → Part.cycle .ring (p, m) =
           ({ p with toTrunk := { w with state := .idle }, ring := rest }, m)))
       ∧ ∀ got : List Byte, w.state = .working ∨ w.state = .waiting → got.length = 15 →
         p.lastRead .toTrunk (base + 16) got rest →
         let l := 1 :: (got ++ [Mem.read m (base + 16)])
         (∀ t : Branch × StationNo, p.ttCheck l = .ok t →
           ((p.engine t.1).queue.length < 32 → p.pool.free ≠ [] → Part.cycle .ring (p, m) =
             ({ p with ring := rest
                       toTrunk := { w with state := .working, asking := true, retryDue := false, slot := l } }, m))
           ∧ (32 ≤ (p.engine t.1).queue.length ∨ p.pool.free = [] → Part.cycle .ring (p, m) =
             ({ p with ring := rest
                       toTrunk := { w with state := .waiting, asking := false, slot := l } }, m)))
         ∧ ∀ r : WalkResult, p.ttCheck l = .error r → Part.cycle .ring (p, m) =
           ({ p.asksWrite (slotWrite (.toTrunk w.index)
                (toTrunkSlotBytes l 3 (byteAt l 2) (byteAt l 3) r.code) 0x0400) with
                toTrunk := { w with state := .working, index := w.index + 1, retryDue := false, slot := [] }
                ring := rest ++ [mark (w.index + 1)] }, m)

/-- The idle copy engine serves the walk that asks; where both ask, the one not served by the copy just ended,
and the to-trunk walk first after a reset. The to-trunk walk may take any buffer; the submission walk is granted
one only while more than RESERVE are free and its job's chain is below job_buffer_limit. Where a COMMIT has
lowered the limit since the walk's check, so that the chain stands at it, no buffer is allocated: the job is
aborted with TOO_LARGE, the slot is written DONE with that result and SUBMIT_DONE (11), and the next slot's mark
is asked for (that the check is made again at this moment is DEDUCED, log 44). The buffer leaves the head of the
free list, POOL_LOW (12) is latched where the free count falls below RESERVE, and a walk that is not granted its
buffer waits. A busy engine, or no walk asking, leaves all as it is (log 1). Where both ask and no copy has just
ended, the choice is the model's (log 43). -/
def Obligations.CopyEngineServesTheWalksInTurn : Prop :=
  ∀ s : State, s.part.held = false →
    let toTrunk := s.part.toTrunk.asking = true
    let submit := s.part.submit.asking = true
    let w := s.part.submit
    let served := s.part.copy.current = none ∧ submit ∧ (¬ toTrunk ∨ s.part.copy.last = some .toTrunk)
    (s.part.copy.current.isSome = true ∨ (¬ toTrunk ∧ ¬ submit) →
      exec .copyEngineServe s = .next s)
    ∧ (s.part.copy.current = none → toTrunk → (¬ submit ∨ s.part.copy.last ≠ some .toTrunk) →
        (∀ (buf : BufNo) (rest : List BufNo), s.part.pool.free = buf :: rest →
          ∃ t, exec .copyEngineServe s = .next t
            ∧ t = s.withPart { s.part with
                pool := { s.part.pool with free := rest }
                notices := t.part.notices
                toTrunk := { s.part.toTrunk with state := .copying, asking := false }
                copy := { s.part.copy with current := t.part.copy.current } }
            ∧ t.part.notices = { s.part.notices with latches :=
                if rest.length + 1 = s.part.setup.reserve then s.part.notices.latches ||| 0x1000
                else s.part.notices.latches }
            ∧ ∃ c, t.part.copy.current = some c ∧ c.walk = .toTrunk ∧ c.buf = buf ∧ c.off = 0 ∧ c.byte = none
              ∧ c.src = ttData s.part.toTrunk.slot ∧ c.left = ttLength s.part.toTrunk.slot
              ∧ c.head = [byteAt s.part.toTrunk.slot 10,
                  ctlByte false (flagFirst (byteAt s.part.toTrunk.slot 11))
                    (flagLast (byteAt s.part.toTrunk.slot 11)),
                  byteAt s.part.toTrunk.slot 12])
        ∧ (s.part.pool.free = [] →
          exec .copyEngineServe s = .next (s.withPart { s.part with toTrunk :=
            { s.part.toTrunk with state := .waiting, asking := false, retryDue := false } })))
    ∧ (served → ∀ j : JobNo, w.job = some j → (s.part.job j).state = .assembling →
        s.part.setup.jobBufferLimit ≤ (s.part.job j).chain.length →
        ∃ t, exec .copyEngineServe s = .next t
          ∧ (t.part.job j).state = .aborted ∧ (t.part.job j).result = some .tooLarge ∧ (t.part.job j).chain = []
          ∧ t.part.pool.free = s.part.pool.free ++ (s.part.job j).chain.map (fun e => e.buf)
          ∧ t.part.copy = s.part.copy ∧ t.part.submit.asking = false ∧ t.part.submit.state = .working
          ∧ t.part.submit.index = w.index + 1
          ∧ t.part.ring = s.part.ring
              ++ [{ user := .submit, addr := 0x02C00 + 16 * (w.index + 1).val, left := 1, got := [] }]
          ∧ ((∀ d n, (s.part.job j).origin ≠ .trunk d n) →
            t.part.writer.queue = enqueueWrite (slotWrite (.submit w.index)
                (submitSlotBytes w.slot 3 (if subFirst w.slot then BitVec.ofNat 8 j.val else byteAt w.slot 3) 4) 0x0800)
              (enqueueWrite (recordWrite (.job j) 0x0100) s.part.writer.queue)))
    ∧ (served → (∀ j : JobNo, w.job = some j → (s.part.job j).chain.length < s.part.setup.jobBufferLimit) →
        (∀ (buf : BufNo) (rest : List BufNo), s.part.pool.free = buf :: rest →
          s.part.setup.reserve < rest.length + 1 →
          ∃ t, exec .copyEngineServe s = .next t
            ∧ t = s.withPart { s.part with
                pool := { s.part.pool with free := rest }
                submit := { s.part.submit with state := .copying, asking := false }
                copy := { s.part.copy with current := t.part.copy.current } }
            ∧ ∃ c, t.part.copy.current = some c ∧ c.walk = .submit ∧ c.buf = buf ∧ c.off = 0 ∧ c.byte = none
              ∧ c.head = [] ∧ c.src = subData s.part.submit.slot + s.part.submit.pos
              ∧ c.left = min 256 (subLength s.part.submit.slot - s.part.submit.pos) ∧ c.total = c.left)
        ∧ (s.part.pool.free.length ≤ s.part.setup.reserve →
          exec .copyEngineServe s = .next (s.withPart { s.part with submit :=
            { s.part.submit with state := .waiting, wait := .buffer, asking := false, retryDue := false } })))

/-- The write of a to-trunk copy's last byte has the walk ask for the target fields of its slot, and with the
last of them read they take the place of those in its copy of the slot (that they are asked for then is the
model's choice, log 7). The end of the copy, before which the command has no effect (log 1): the target is
resolved from them and checked again. Where it passes and its queue has room the frame joins the tail of the
queue, the station's queued count rises and its image is written (none for the broadcast, where every station
stands as it was), the slot is written TAKEN with the target the entry keeps, every other station and every
other engine stands, and the index advances; where a check fails the buffer is freed and the slot is written
DONE with the result; either way the next slot's mark is asked for. With a full queue the buffer is freed and
the walk waits. That the fields other than the target are those of the check before the copy is the model's
choice (log 9). -/
def Obligations.ToTrunkCopyEndAppendsTheFrame : Prop :=
  (∀ (p : Part) (m : List Host.Cell) (c : Copy) (rest : List RingRead) (got : List Byte),
     let base := 0x02800 + 32 * p.toTrunk.index.val
     (p.copy.current = some c → p.copy.stopped = none → c.walk = .toTrunk → c.left = 0 →
       (∃ v, c.head = [] ∧ c.byte = some v) ∨ (∃ v, c.head = [v] ∧ c.byte = none) →
       let q := (Part.cycle .copy (p, m)).1
       q.ring = p.ring ++ [{ user := .toTrunk, addr := base + 1, left := 9, got := [] }] ∧ q.toTrunk = p.toTrunk)
     ∧ (p.toTrunk.state = .copying → got.length = 8 → p.lastRead .toTrunk (base + 9) got rest →
       let slot := p.toTrunk.slot.take 1 ++ (got ++ [Mem.read m (base + 9)]) ++ p.toTrunk.slot.drop 10
       Part.cycle .ring (p, m) = ({ p with ring := rest, toTrunk := { p.toTrunk with slot := slot } }, m)))
  ∧ ∀ (s : State) (c : Copy), s.part.held = false → s.part.copy.current = some c → c.walk = .toTrunk →
    let x := s.part.toTrunk.index
    let l := s.part.toTrunk.slot
    let ended := c.head = [] ∧ c.left = 0 ∧ c.byte = none ∧ ∀ r ∈ s.part.ring, r.user ≠ .toTrunk
    let ring := s.part.ring ++ [{ user := .toTrunk, addr := 0x02800 + 32 * (x + 1).val, left := 1, got := [] }]
    (¬ ended → exec .toTrunkCopyComplete s = .next s)
    ∧ (∀ (b : Branch) (n : StationNo), ended → s.part.ttResolve l = .ok (b, n) →
      ((s.part.engine b).queue.length < 32 →
        ∃ t, exec .toTrunkCopyComplete s = .next t
          ∧ t = s.withPart { s.part with
              copy := { s.part.copy with current := none, last := some .toTrunk }, engines := t.part.engines
              stations := t.part.stations, writer := t.part.writer, ring := ring
              toTrunk := { s.part.toTrunk with state := .working, index := x + 1, slot := [] } }
          ∧ (∃ e, t.part.engine b = { s.part.engine b with queue := (s.part.engine b).queue ++ [e] }
              ∧ e.target = n ∧ e.buf = c.buf ∧ e.hold = 0
              ∧ e.first = flagFirst (byteAt l 11) ∧ e.last = flagLast (byteAt l 11)
              ∧ e.origin = .slot x (toTrunkSlotBytes l 2 (BitVec.ofNat 8 b.val) (BitVec.ofNat 8 n.val) 0))
          ∧ (∀ d : Branch, d ≠ b → t.part.engine d = s.part.engine d)
          ∧ (n ≠ 63 → t.part.station b n = { s.part.station b n with queued := (s.part.station b n).queued + 1 })
          ∧ (n = 63 → t.part.stations = s.part.stations)
          ∧ (∀ (d : Branch) (y : StationNo), (d, y) ≠ (b, n) → t.part.station d y = s.part.station d y)
          ∧ t.part.writer.active = s.part.writer.active
          ∧ t.part.writer.queue = enqueueWrite (slotWrite (.toTrunk x)
              (toTrunkSlotBytes l 2 (BitVec.ofNat 8 b.val) (BitVec.ofNat 8 n.val) 0) 0)
              (if n = 63 then s.part.writer.queue
                else enqueueWrite { recordWrite (.station b n) 0 with high := true } s.part.writer.queue))
      ∧ (32 ≤ (s.part.engine b).queue.length →
        ∃ t, exec .toTrunkCopyComplete s = .next t
          ∧ t.part.toTrunk.state = .waiting ∧ t.part.toTrunk.index = x
          ∧ t.part.pool.free = s.part.pool.free ++ [c.buf] ∧ t.part.copy.current = none
          ∧ t.part.engines = s.part.engines ∧ t.part.ring = s.part.ring))
    ∧ ∀ r : WalkResult, ended → s.part.ttResolve l = .error r →
      ∃ t, exec .toTrunkCopyComplete s = .next t
        ∧ t.part.pool.free = s.part.pool.free ++ [c.buf] ∧ t.part.copy.current = none
        ∧ t.part.engines = s.part.engines ∧ t.part.toTrunk.state = .working ∧ t.part.toTrunk.index = x + 1
        ∧ t.part.ring = ring
        ∧ t.part.writer.queue = enqueueWrite (slotWrite (.toTrunk x)
            (toTrunkSlotBytes l 3 (byteAt l 2) (byteAt l 3) r.code) 0x0400) s.part.writer.queue

/-- POST_SUBMIT to a walk that is not IDLE sets the pending flag; an IDLE walk becomes WORKING and asks for the
mark of the slot at its index. A mark read as POSTED has the walk ask for the slot's fields; at any other mark
the walk stops, or with the pending flag set clears it and reads the mark once more. With the last of the fields
read (the model's choice of the moment, log 7) the slot is checked in order; one that fails ends DONE with its
result and SUBMIT_DONE (11), the index advances and the next mark is asked for. A FIRST slot that passes opens
the lowest-numbered FREE record and writes its number into the slot, and the walk asks for the copy engine; with
no FREE record the walk waits. A slot with FIRST clear goes on with the job it names. The result byte of the
write that gives the job number is 0 (log 45). -/
def Obligations.SubmissionWalkTakesTheSlotAtItsIndex : Prop :=
  (∀ (s : State) (v : Byte), s.takesCommands →
     let w := s.part.submit
     (w.state ≠ .idle →
       exec (.postSubmit v) s = .next (s.withPart { s.part with submit := { w with pending := true } }))
     ∧ (w.state = .idle →
       exec (.postSubmit v) s = .next (s.withPart { s.part with
         submit := { w with state := .working }
         ring := s.part.ring ++ [{ user := .submit, addr := 0x02C00 + 16 * w.index.val, left := 1, got := [] }] })))
  ∧ ∀ (p : Part) (m : List Host.Cell) (rest : List RingRead),
    let w := p.submit
    let base := 0x02C00 + 16 * w.index.val
    let mark (i : Fin 16) : RingRead := { user := .submit, addr := 0x02C00 + 16 * i.val, left := 1, got := [] }
    w.state = .working →
    (p.lastRead .submit base [] rest →
      (Mem.read m base = 1 → Part.cycle .ring (p, m) =
        ({ p with ring := rest ++ [{ user := .submit, addr := base + 1, left := 10, got := [] }] }, m))
      ∧ (Mem.read m base ≠ 1 → w.pending = true → Part.cycle .ring (p, m) =
        ({ p with submit := { w with pending := false }, ring := rest ++ [mark w.index] }, m))
      ∧ (Mem.read m base ≠ 1 → w.pending = false → Part.cycle .ring (p, m) =
        ({ p with submit := { w with state := .idle }, ring := rest }, m)))
    ∧ ∀ got : List Byte, got.length = 9 → p.lastRead .submit (base + 10) got rest →
      let l := 1 :: (got ++ [Mem.read m (base + 10)])
      let inArea := subLength l = 0 ∨ (0x03000 ≤ subData l ∧ subData l + subLength l ≤ 0x10000)
      let endsWith (r : Nat) : Prop := Part.cycle .ring (p, m) =
        ({ p.asksWrite (slotWrite (.submit w.index)
             (submitSlotBytes l 3 (if subFirst l then 0xFF else byteAt l 3) r) 0x0800) with
           submit := { w with state := .working, index := w.index + 1, asking := false, retryDue := false
                              slot := [], job := none, pos := 0 }
           ring := rest ++ [mark (w.index + 1)] }, m)
      (32768 < subLength l → endsWith 5)
      ∧ (subLength l ≤ 32768 → ¬ inArea → endsWith 6)
      ∧ (subLength l ≤ 32768 → inArea → subFirst l = true →
          (subPrinter l = none ∨ ∃ k, subPrinter l = some k ∧ (p.printerSetup k).enable = false) → endsWith 2)
      ∧ (subLength l ≤ 32768 → inArea → subFirst l = false →
          (subJob l = none ∨ ∃ j, subJob l = some j ∧ ((p.job j).state ≠ .assembling
            ∨ ∀ tag, (p.job j).origin ≠ .submitted tag)) → endsWith 3)
      ∧ (∀ (j : JobNo) (tag : Nat), subLength l ≤ 32768 → inArea → subFirst l = false → subJob l = some j →
          (p.job j).state = .assembling → (p.job j).origin = .submitted tag → 0 < subLength l →
          (p.job j).chain.length < p.setup.jobBufferLimit → Part.cycle .ring (p, m) =
          ({ p with
             submit := { w with state := .working, asking := true, retryDue := false, slot := l, job := some j
                                pos := 0 }
             ring := rest }, m))
      ∧ ∀ k : Port, subLength l ≤ 32768 → inArea → subFirst l = true → subPrinter l = some k →
          (p.printerSetup k).enable = true →
        (p.freeRecord = none → Part.cycle .ring (p, m) =
          ({ p with
             submit := { w with state := .waiting, wait := .record, asking := false, retryDue := false
                                slot := l, job := none, pos := 0 }
             ring := rest }, m))
        ∧ ∀ j : JobNo, p.freeRecord = some j → 0 < subLength l → 0 < p.setup.jobBufferLimit →
          Part.cycle .ring (p, m) =
            ({ (p.asksWrite (recordWrite (.job j) 0)).asksWrite
                 (slotWrite (.submit w.index) (submitSlotBytes l 1 (BitVec.ofNat 8 j.val) 0) 0) with
               submit := { w with state := .working, asking := true, retryDue := false, slot := l, job := some j
                                  pos := 0 }
               ring := rest
               jobs := put p.jobs j
                 { Job.blank with state := .assembling, printer := k, origin := .submitted (subTag l) } }, m)

/-- A waiting submission walk that is due a retry goes on from the point where it stopped: with a FREE record it
opens its job, with a buffer to copy it asks for the copy engine, and with room in the target's queue it closes
the job and ends the slot ACCEPTED. A walk that is not due one is not moved (the model's choice, log 1). The end
of a submission copy: where the chain is below job_buffer_limit the buffer joins the tail of the job's chain,
shifted, with the bytes copied as its fill, bytes queued rises by it, and while data is left and the chain is
below its limit the walk asks again. With all the data of a slot without LAST in the chain the slot ends
ACCEPTED and the job stays ASSEMBLING. With data left and the chain at the limit the job is aborted with
TOO_LARGE, and the slot ends with that result. So it is too, whatever is left, where the chain stands at the
limit before the buffer could join it, a COMMIT having lowered the limit: nothing is added and the buffer is
freed after the chain (DEDUCED, logs 36 and 44). An ended slot is written DONE with its result and SUBMIT_DONE
(11), and the next slot's mark is asked for. The check of the limit is made at a retry as well (log 10). -/
def Obligations.SubmissionWalkGoesOn : Prop :=
  let ended (w : SubmitWalk) (j : JobNo) (r : Nat) : ImgWrite := slotWrite (.submit w.index)
    (submitSlotBytes w.slot 3 (if subFirst w.slot then BitVec.ofNat 8 j.val else byteAt w.slot 3) r) 0x0800
  let mark (i : Fin 16) : RingRead := { user := .submit, addr := 0x02C00 + 16 * i.val, left := 1, got := [] }
  (∀ s : State, s.part.held = false →
     let w := s.part.submit
     (¬ (w.state = .waiting ∧ w.retryDue = true) → exec .submissionRetry s = .next s)
     ∧ (w.state = .waiting → w.retryDue = true →
       (∀ j : JobNo, w.wait = .buffer → w.job = some j → w.pos < subLength w.slot →
         (s.part.job j).chain.length < s.part.setup.jobBufferLimit →
         exec .submissionRetry s = .next (s.withPart { s.part with
           submit := { w with state := .working, asking := true, retryDue := false } }))
       ∧ (∀ (j : JobNo) (k : Port), w.wait = .record → subPrinter w.slot = some k →
         (s.part.printerSetup k).enable = true → s.part.freeRecord = some j → w.pos < subLength w.slot →
         0 < s.part.setup.jobBufferLimit →
         ∃ t, exec .submissionRetry s = .next t
           ∧ t.part.jobs = put s.part.jobs j
               { Job.blank with state := .assembling, printer := k, origin := .submitted (subTag w.slot) }
           ∧ t.part.submit = { w with state := .working, job := some j, asking := true, retryDue := false }
           ∧ t.mem = s.mem)
       ∧ (∀ j : JobNo, w.wait = .room → w.job = some j → subLast w.slot = true →
         16 ≤ (s.part.queue (s.part.closeTarget (s.part.job j).printer)).length →
         exec .submissionRetry s = .next (s.withPart { s.part with
           submit := { w with asking := false, retryDue := false } }))
       ∧ ∀ j : JobNo, w.wait = .room → w.job = some j → subLast w.slot = true →
         (s.part.queue (s.part.closeTarget (s.part.job j).printer)).length < 16 →
         (s.part.port (s.part.closeTarget (s.part.job j).printer)).state ≠ .idle →
         ∃ t, exec .submissionRetry s = .next t
           ∧ (t.part.job j).state = .waiting ∧ (t.part.job j).stamp = s.part.stamp
           ∧ (t.part.job j).printer = s.part.closeTarget (s.part.job j).printer
           ∧ t.part.queue (s.part.closeTarget (s.part.job j).printer)
               = s.part.queue (s.part.closeTarget (s.part.job j).printer) ++ [j]
           ∧ t.part.stamp = (s.part.stamp + 1) % 65536
           ∧ t.part.submit.state = .working ∧ t.part.submit.index = w.index + 1
           ∧ t.part.ring = s.part.ring ++ [mark (w.index + 1)]
           ∧ t.part.writer.queue = enqueueWrite (ended w j 1)
               (enqueueWrite (recordWrite (.job j) 0) s.part.writer.queue)))
  ∧ (∀ (s : State) (c : Copy) (j : JobNo), s.part.held = false → s.part.copy.current = some c → c.walk = .submit →
       c.head = [] → c.left = 0 → c.byte = none → s.part.submit.job = some j →
       s.part.submit.pos + c.total < subLength s.part.submit.slot →
       ((s.part.job j).chain.length + 1 < s.part.setup.jobBufferLimit →
         exec .submissionCopyComplete s = .next (s.withPart (Part.asksWrite { s.part with
             copy := { s.part.copy with current := none, last := some .submit }
             jobs := put s.part.jobs j { s.part.job j with
               chain := (s.part.job j).chain ++ [{ buf := c.buf, fill := c.total, shifted := true }]
               queuedBytes := (s.part.job j).queuedBytes + c.total }
             submit := { s.part.submit with
               state := .working, asking := true, retryDue := false, pos := s.part.submit.pos + c.total } }
           (recordWrite (.job j) 0))))
       ∧ ((s.part.job j).chain.length < s.part.setup.jobBufferLimit →
         s.part.setup.jobBufferLimit ≤ (s.part.job j).chain.length + 1 → (s.part.job j).state = .assembling →
         ∃ t, exec .submissionCopyComplete s = .next t
           ∧ (t.part.job j).state = .aborted ∧ (t.part.job j).result = some .tooLarge ∧ (t.part.job j).chain = []
           ∧ t.part.pool.free
               = s.part.pool.free ++ (s.part.job j).chain.map (fun e => e.buf) ++ [c.buf]
           ∧ t.part.submit.state = .working ∧ t.part.submit.index = s.part.submit.index + 1
           ∧ t.part.ring = s.part.ring ++ [mark (s.part.submit.index + 1)]
           ∧ t.part.copy.current = none
           ∧ ((∀ d n, (s.part.job j).origin ≠ .trunk d n) →
             t.part.writer.queue = enqueueWrite (ended s.part.submit j 4)
               (enqueueWrite (recordWrite (.job j) 0x0100)
                 (enqueueWrite (recordWrite (.job j) 0) s.part.writer.queue)))))
  ∧ (∀ (s : State) (c : Copy) (j : JobNo), s.part.held = false → s.part.copy.current = some c → c.walk = .submit →
       c.head = [] → c.left = 0 → c.byte = none → s.part.submit.job = some j →
       subLength s.part.submit.slot ≤ s.part.submit.pos + c.total → subLast s.part.submit.slot = false →
       (s.part.job j).chain.length < s.part.setup.jobBufferLimit →
       ∃ t, exec .submissionCopyComplete s = .next t
         ∧ t.part.job j = { s.part.job j with
             chain := (s.part.job j).chain ++ [{ buf := c.buf, fill := c.total, shifted := true }]
             queuedBytes := (s.part.job j).queuedBytes + c.total }
         ∧ t.part.submit.state = .working ∧ t.part.submit.index = s.part.submit.index + 1
         ∧ t.part.ring = s.part.ring ++ [mark (s.part.submit.index + 1)]
         ∧ t.part.copy = { s.part.copy with current := none, last := some .submit } ∧ t.part.pool = s.part.pool
         ∧ t.part.writer.queue = enqueueWrite (ended s.part.submit j 1)
             (enqueueWrite (recordWrite (.job j) 0) s.part.writer.queue))
  ∧ (∀ (s : State) (c : Copy) (j : JobNo), s.part.held = false → s.part.copy.current = some c → c.walk = .submit →
       c.head = [] → c.left = 0 → c.byte = none → s.part.submit.job = some j → (s.part.job j).state = .assembling →
       s.part.setup.jobBufferLimit ≤ (s.part.job j).chain.length →
       ∃ t, exec .submissionCopyComplete s = .next t
         ∧ (t.part.job j).state = .aborted ∧ (t.part.job j).result = some .tooLarge ∧ (t.part.job j).chain = []
         ∧ (t.part.job j).queuedBytes = (s.part.job j).queuedBytes
         ∧ t.part.pool.free = s.part.pool.free ++ (s.part.job j).chain.map (fun e => e.buf) ++ [c.buf]
         ∧ t.part.submit.state = .working ∧ t.part.submit.index = s.part.submit.index + 1
         ∧ t.part.ring = s.part.ring ++ [mark (s.part.submit.index + 1)]
         ∧ t.part.copy = { s.part.copy with current := none, last := some .submit }
         ∧ ((∀ d n, (s.part.job j).origin ≠ .trunk d n) →
           t.part.writer.queue = enqueueWrite (ended s.part.submit j 4)
             (enqueueWrite (recordWrite (.job j) 0x0100) s.part.writer.queue)))

/-! ## The host's commands on jobs, tables and branches -/

/-- JOB_ABORT by the job's state. ASSEMBLING, WAITING and HELD, and PRINTING with no byte in handshake: the job
is ABORTED with ABORTED_BY_REQUEST, its chain is freed in order to the tail of the free list, it leaves its
queue or its port. PRINTING with a byte in handshake: the abort is pending and nothing else changes; already
pending: nothing changes. FREE, DONE, ABORTED: refused with BAD_STATE. A submission walk that works on the job
ends its slot, written DONE with JOB_ABORTED and SUBMIT_DONE (11), and asks for the next slot's mark; a copy in
progress for it stops, the copy engine is free at once, and its target buffer is freed after the chain (that
order is the model's choice, log 36). A byte the copy has read is still to be written (log 50 for its moment).
The shift of a buffer of the chain of an ASSEMBLING job stops after the byte in progress. -/
def Obligations.JobAbortFollowsTheStateOfTheJob : Prop :=
  ∀ (s : State) (j : JobNo), s.takesCommands →
    let x := s.part.job j
    let k := x.printer
    let c : Instr := .jobAbort (BitVec.ofNat 8 j.val)
    let aborted (t : State) : Prop :=
      (t.part.job j).state = .aborted ∧ (t.part.job j).result = some .abortedByRequest
        ∧ (t.part.job j).chain = [] ∧ (t.part.job j).abortPending = false ∧ t.mem = s.mem
        ∧ ∀ i : JobNo, i ≠ j → t.part.job i = s.part.job i
    let ended : ImgWrite := slotWrite (.submit s.part.submit.index)
      (submitSlotBytes s.part.submit.slot 3
        (if subFirst s.part.submit.slot then BitVec.ofNat 8 j.val else byteAt s.part.submit.slot 3) 7) 0x0800
    (x.state = .assembling → (∀ i, s.part.submit.job = some i → i ≠ j ∧ (s.part.job i).state = .assembling) →
      ∃ t, exec c s = .next t ∧ aborted t ∧ t.part.submit.job = s.part.submit.job ∧ t.part.copy = s.part.copy
        ∧ t.part.pool.free = s.part.pool.free ++ x.chain.map (fun e => e.buf)
        ∧ ∀ b : Branch, t.part.path b =
            x.chain.foldl (fun l e => l.filterMap (PathOp.afterFree e.buf)) (s.part.path b))
    ∧ (x.state = .assembling → s.part.submit.job = some j →
      ∃ t, exec c s = .next t ∧ aborted t ∧ t.part.submit.state = .working ∧ t.part.submit.job = none
        ∧ t.part.submit.index = s.part.submit.index + 1
        ∧ t.part.ring = s.part.ring ++ [{ user := .submit, addr := 0x02C00 + 16 * (s.part.submit.index + 1).val
                                          left := 1, got := [] }]
        ∧ ((∀ y, s.part.copy.current = some y → y.walk ≠ .submit) → t.part.copy = s.part.copy
            ∧ t.part.pool.free = s.part.pool.free ++ x.chain.map fun e => e.buf)
        ∧ (∀ y, s.part.copy.current = some y → y.walk = .submit →
            t.part.copy = { current := none, last := some .submit
                            stopped := match y.byte with
                              | some v => some { buf := y.buf, off := y.off, value := v }
                              | none => s.part.copy.stopped }
            ∧ t.part.pool.free = s.part.pool.free ++ x.chain.map (fun e => e.buf) ++ [y.buf])
        ∧ ((∀ d n, x.origin ≠ .trunk d n) → t.part.writer.queue = enqueueWrite ended
            (enqueueWrite (recordWrite (.job j) 0x0100) s.part.writer.queue)))
    ∧ (x.state = .waiting → (s.part.port k).state ≠ .idle → j ∈ s.part.queue k →
      ∃ t, exec c s = .next t ∧ aborted t
        ∧ t.part.queue k = (s.part.queue k).filter (fun i => i != j)
        ∧ t.part.pool.free = s.part.pool.free ++ x.chain.map fun e => e.buf)
    ∧ (x.state = .held → (s.part.port k).state ≠ .idle →
      ∃ t, exec c s = .next t ∧ aborted t ∧ (t.part.port k).job = none
        ∧ (t.part.port k).state = (s.part.port k).state
        ∧ t.part.pool.free = s.part.pool.free ++ x.chain.map fun e => e.buf)
    ∧ (x.state = .printing → x.abortPending = false → (s.part.port k).handshake = none →
        (s.part.port k).decide (s.part.printerSetup k).enable = .busy → (s.part.port k).state = .busy →
        s.part.queue k = [] →
      ∃ t, exec c s = .next t ∧ aborted t ∧ (t.part.port k).job = none ∧ (t.part.port k).state = .idle
        ∧ t.part.pool.free = s.part.pool.free ++ x.chain.map fun e => e.buf)
    ∧ (x.state = .printing → x.abortPending = false → (s.part.port k).handshake.isSome = true →
      exec c s = .next (s.withPart { s.part with jobs := put s.part.jobs j { x with abortPending := true } }))
    ∧ (x.state = .printing → x.abortPending = true → exec c s = .next s)
    ∧ (x.state = .free ∨ x.state = .done ∨ x.state = .aborted →
      exec c s = .next (s.withPart (s.part.refusedWith .badState 0x07)))

/-- JOB_MOVE_PRINTER moves the job held, after its checks in order: a job neither WAITING nor HELD and a printer
not enabled are refused with BAD_STATE, a full queue that does not hold the job with QUEUE_FULL. A WAITING job
joins the tail of the new printer's queue, a HELD job leaves its port; it is WAITING with the moved flag set and
no hold reason, its chain and bytes printed as they were. -/
def Obligations.JobMoveIsCheckedAndMade : Prop :=
  ∀ (s : State) (k : Port), s.takesCommands →
    let j := s.part.moveJob
    let x := s.part.job j
    let c : Instr := .jobMovePrinter (BitVec.ofNat 8 k.val)
    (x.state ≠ .waiting → x.state ≠ .held → exec c s = .next (s.withPart (s.part.refusedWith .badState 0x09)))
    ∧ (x.state = .waiting ∨ x.state = .held → (s.part.printerSetup k).enable = false →
      exec c s = .next (s.withPart (s.part.refusedWith .badState 0x09)))
    ∧ (x.state = .waiting ∨ x.state = .held → (s.part.printerSetup k).enable = true →
      j ∉ s.part.queue k → 16 ≤ (s.part.queue k).length →
      exec c s = .next (s.withPart (s.part.refusedWith .queueFull 0x09)))
    ∧ ((s.part.printerSetup k).enable = true → (j ∈ s.part.queue k ∨ (s.part.queue k).length < 16) →
      (s.part.port k).state ≠ .idle → (s.part.port x.printer).state ≠ .idle →
      (x.state = .waiting → (k = x.printer ∨ j ∉ s.part.queue k) →
        ∃ t, exec c s = .next t
          ∧ t.part.job j = { x with printer := k, moved := true, state := .waiting, hold := none }
          ∧ t.part.queue k = (s.part.queue k).filter (fun i => i != j) ++ [j]
          ∧ (x.printer ≠ k → t.part.queue x.printer = (s.part.queue x.printer).filter fun i => i != j)
          ∧ t.part.moveJob = j ∧ t.mem = s.mem)
      ∧ (x.state = .held → j ∉ s.part.queue k →
        ∃ t, exec c s = .next t
          ∧ t.part.job j = { x with printer := k, moved := true, state := .waiting, hold := none }
          ∧ t.part.queue k = s.part.queue k ++ [j]
          ∧ (t.part.port x.printer).job = none ∧ (t.part.port x.printer).handshake = none
          ∧ t.part.moveJob = j ∧ t.mem = s.mem))

/-- LOAD_GRANT sets the port's load pending flag; a port with no current job and an empty queue begins to read
the table image at once, and in any other state the load waits. A grant decision scans the table from the phase
pointer on, each phase once: the first phase whose class waits is found; where no class of the table waits the
scan finds nothing. With a load pending, a scan that has found nothing up to phase 31 stops there for the load,
unless it began at phase 0 (the model's choice, log 35). A class is the branch of a trunk job, and 4 for a
submitted one. An IDLE port with a queue grants at that moment, shown where the last condition of a port with no
job clears: the first job of the class of the phase found, and the pointer goes past that phase; or, where
nothing is found, the head of the queue, the pointer staying. The job leaves the queue and is PRINTING, the port
BUSY with it; a job with no bytes is DONE at once. The setup loader reads a table image a byte a cycle, that of
the lowest port first where several are loading (the model's choice, log 18), and with the last byte the table
is in force, the pointer 0 and the pending flag clear; bytes 0-4 load as classes and every other as an empty
phase. -/
def Obligations.GrantTablesAreLoadedAndScanned : Prop :=
  (∀ (s : State) (k : Port), s.takesCommands →
     let t := s.part.port k
     let c : Instr := .loadGrant (BitVec.ofNat 8 k.val)
     (t.job = none → s.part.queue k = [] → t.loading = none →
       exec c s = .next (s.withPart { s.part with
         ports := put s.part.ports k { t with loadPending := true, loading := some [] } }))
     ∧ (t.job.isSome = true ∨ s.part.queue k ≠ [] ∨ t.loading.isSome = true →
       exec c s = .next (s.withPart { s.part with ports := put s.part.ports k { t with loadPending := true } })))
  ∧ (∀ (table : Vector (Option (Fin 5)) 32) (waiting : Fin 5 → Bool) (start : Fin 32),
       let hit (i : Fin 32) : Prop := ∃ c, table.get i = some c ∧ waiting c = true
       (∀ i : Fin 32, hit i → (∀ k : Fin 32, (k - start).val < (i - start).val → ¬ hit k) →
         scanTable table waiting false 32 start = .found i)
       ∧ ((∀ i : Fin 32, ¬ hit i) → scanTable table waiting false 32 start = .nothing)
       ∧ (start ≠ 0 → (∀ i : Fin 32, start ≤ i → ¬ hit i) → scanTable table waiting true 32 start = .wrapped)
       ∧ ((∀ i : Fin 32, ¬ hit i) → scanTable table waiting true 32 0 = .nothing))
  ∧ ((∀ (b : Branch) (n : StationNo), (jobClass (.trunk b n)).map (fun c => c.val) = some b.val)
     ∧ ∀ tag : Nat, jobClass (.submitted tag) = some 4)
  ∧ (∀ (s : State) (k : Port), s.part.held = false → (s.part.printerSetup k).enable = true →
       let t := s.part.port k
       let c : Instr := .printerConditionChange k .paperOut false
       let waits (c : Fin 5) : Bool := (s.part.queue k).any fun j => jobClass (s.part.job j).origin = some c
       let scan := scanTable t.table waits false 32 t.pointer
       t.state = .paperOut → t.job = none → t.fault = false → t.deselected = false → t.stalled = false →
       t.handshake = none → t.loading = none → t.loadPending = false →
       ∀ j : JobNo, (s.part.job j).abortPending = false →
         (∀ e ∈ (s.part.job j).chain, e.fill ≠ 0) →
         let granted (u : State) : Prop := exec c s = .next u ∧ (u.part.port k).job = some j
           ∧ (u.part.port k).state = .busy ∧ (u.part.port k).stall = some (s.part.printerSetup k).stallS
           ∧ u.part.queue k = (s.part.queue k).filter (fun i => i != j)
           ∧ u.part.job j = { s.part.job j with state := .printing, hold := none } ∧ u.mem = s.mem
         ((s.part.job j).queuedBytes ≠ 0 → ∀ i : Fin 32, scan = .found i →
           (s.part.queue k).find? (fun j => jobClass (s.part.job j).origin = t.table.get i) = some j →
           ∃ u, granted u ∧ (u.part.port k).pointer = i + 1)
         ∧ ((s.part.job j).queuedBytes ≠ 0 → scan = .nothing → (s.part.queue k).head? = some j →
           ∃ u, granted u ∧ (u.part.port k).pointer = t.pointer)
         ∧ ((s.part.job j).queuedBytes = 0 → s.part.queue k = [j] →
           ∃ u, exec c s = .next u ∧ (u.part.job j).state = .done ∧ (u.part.job j).result = some .complete
             ∧ u.part.queue k = [] ∧ (u.part.port k).state = .idle ∧ (u.part.port k).job = none))
  ∧ (∀ (s : State) (k : Port) (l : List Byte), s.part.held = false → s.part.hostWait = none →
       s.part.arbiter = 10 → s.part.loader.task = .idle → (s.part.port k).loading = some l →
       (∀ i : Port, i < k → (s.part.port i).loading = none) →
       let t := s.part.port k
       let v := Mem.read s.mem (0x00900 + 32 * k.val + l.length)
       (l.length + 1 < 32 → exec .memoryPortGrant s = .next (s.withPart { s.part with
         arbiter := 0, ports := put s.part.ports k { t with loading := some (l ++ [v]) } }))
       ∧ (l.length + 1 = 32 → s.part.queue k = [] → exec .memoryPortGrant s = .next (s.withPart { s.part with
         arbiter := 0
         ports := put s.part.ports k
           { t with table := readTable (l ++ [v]), pointer := 0, loadPending := false, loading := none } })))
  ∧ (∀ (l : List Byte) (i : Fin 32),
       ((byteAt l i.val).toNat < 5 →
         ((readTable l).get i).map (fun c => c.val) = some (byteAt l i.val).toNat)
       ∧ (5 ≤ (byteAt l i.val).toNat → (readTable l).get i = none))

/-- ISOLATE of the branch held: IN_SERVICE and ON_TRIAL take it with reason HOST and destination LOCKED_OUT, the
verdict and the trial count are cleared. With an exchange in progress the switch drains while the engine
completes it; between exchanges the engine stops, the transmit queue is flushed and the relay begins to open,
both drives released. The states of a sequence refuse it with BUSY, the others with BAD_STATE. -/
def Obligations.IsolateOfTheBranchHeld : Prop :=
  ∀ s : State, s.takesCommands →
    let b := s.part.branchSel
    let w := s.part.switch b
    (w.state = .inService ∨ w.state = .onTrial →
      ((s.part.engine b).state = .initialSweep ∨ (s.part.engine b).state = .rounds →
        (s.part.engine b).phase.inExchange = true →
        ∃ t, exec .isolate s = .next t
          ∧ (t.part.switch b).state = .draining ∧ (t.part.switch b).dest = some .lockedOut
          ∧ (t.part.switch b).reason = some .host ∧ (t.part.switch b).verdict = .none
          ∧ (t.part.switch b).trial = 0 ∧ (t.part.engine b).state = .stopping
          ∧ t = s.withPart { s.part with
              switches := t.part.switches, engines := t.part.engines, toTrunk := t.part.toTrunk })
      ∧ ((s.part.engine b).state = .stopped ∨ (s.part.engine b).phase = .none
          ∨ (s.part.engine b).phase = .padding → (s.part.engine b).exch = none →
        (s.part.engine b).state ≠ .stopping →
        ∃ t, exec .isolate s = .next t
          ∧ (t.part.switch b).state = .opening ∧ (t.part.switch b).dest = some .lockedOut
          ∧ (t.part.switch b).reason = some .host ∧ (t.part.switch b).verdict = .none
          ∧ (t.part.switch b).trial = 0 ∧ (t.part.switch b).rline = false ∧ (t.part.switch b).rprobe = false
          ∧ (t.part.switch b).relay = .moving .open (s.part.branchSetup b).settleMs
          ∧ (t.part.engine b).state = .stopped ∧ (t.part.engine b).queue = []
          ∧ (t.part.engine b).reservation = (if (s.part.engine b).state = .stopped then
              (s.part.engine b).reservation else none)
          ∧ t.mem = s.mem))
    ∧ (w.state = .closing ∨ w.state = .draining ∨ w.state = .opening ∨ w.state = .probing →
      exec .isolate s = .next (s.withPart (s.part.refusedWith .busy 0x0C)))
    ∧ (w.state = .isolated ∨ w.state = .lockedOut ∨ w.state = .disabled →
      exec .isolate s = .next (s.withPart (s.part.refusedWith .badState 0x0C)))

/-- RESTORE of the branch held, in ISOLATED and LOCKED_OUT with the fault input high: CLOSING, RLINEn asserted,
the relay moving to LINE for settle_ms, the isolation count and the verdict cleared, the restore timer stopped
and an outstanding check discarded. The states of a sequence refuse it with BUSY, the others with BAD_STATE.
PROBE of the branch held, in ISOLATED and LOCKED_OUT: PROBING, the state it was in recorded as the return state,
the restore timer stopped, and the branch joins the probe unit's queue. The states of a sequence refuse it with
BUSY, the others with BAD_STATE. -/
def Obligations.RestoreAndProbeOfTheBranchHeld : Prop :=
  (∀ s : State, s.takesCommands →
     let b := s.part.branchSel
     let w := s.part.switch b
     (w.state = .isolated ∨ w.state = .lockedOut → w.rflt = false →
       ∃ t, exec .restore s = .next t
         ∧ (t.part.switch b).state = .closing ∧ (t.part.switch b).rline = true
         ∧ (t.part.switch b).rprobe = false
         ∧ (t.part.switch b).relay = .moving .line (s.part.branchSetup b).settleMs
         ∧ (t.part.switch b).isolations = 0 ∧ (t.part.switch b).verdict = .none
         ∧ (w.state = .isolated → (t.part.switch b).restore = none ∧ (t.part.switch b).check = false
             ∧ t.part.sense.checks.get b = false)
         ∧ t = s.withPart { s.part with
             switches := t.part.switches, sense := t.part.sense, toTrunk := t.part.toTrunk })
     ∧ (w.state = .closing ∨ w.state = .draining ∨ w.state = .opening ∨ w.state = .probing →
       exec .restore s = .next (s.withPart (s.part.refusedWith .busy 0x0C)))
     ∧ (w.state = .inService ∨ w.state = .onTrial ∨ w.state = .disabled →
       exec .restore s = .next (s.withPart (s.part.refusedWith .badState 0x0C))))
  ∧ (∀ s : State, s.takesCommands →
       let b := s.part.branchSel
       let w := s.part.switch b
       (w.state = .isolated ∨ w.state = .lockedOut →
         ∃ t, exec .probe s = .next t
           ∧ (t.part.switch b).state = .probing ∧ (t.part.switch b).restore = none
           ∧ (t.part.switch b).back = (if w.state = .isolated then some .isolated else some .lockedOut)
           ∧ (t.part.switch b).byHost = true ∧ t.part.probe.queue = s.part.probe.queue ++ [b]
           ∧ t.part.probe.state = s.part.probe.state
           ∧ t = s.withPart { s.part with
               switches := t.part.switches, sense := t.part.sense, toTrunk := t.part.toTrunk
               probe := t.part.probe })
       ∧ (w.state = .closing ∨ w.state = .draining ∨ w.state = .opening ∨ w.state = .probing →
         exec .probe s = .next (s.withPart (s.part.refusedWith .busy 0x0C)))
       ∧ (w.state = .inService ∨ w.state = .onTrial ∨ w.state = .disabled →
         exec .probe s = .next (s.withPart (s.part.refusedWith .badState 0x0C))))

/-! ## Host writes and edits of the tables -/

/-- The class of a host write follows its region: the control page takes a command or ignores it; capture, job
and probe images and bytes 7-15 of a station image are blocked; the images and rings that INIT writes are
blocked during INIT; a pool write passes only into a buffer of the host-held set; every other write passes. A
host write with no row of its own. One that passes is stored and changes nothing else; one that is blocked
stores nothing and is reported by LAST_BLOCKED, REFUSED and LAST_REFUSAL; one that is ignored changes nothing;
one to a byte of a record that the part is writing waits on /WAIT, and a watched entry is such a record as long
as the directory still has a byte of it to read. A BRANCH_ACTION with no action's code is refused with
BAD_ARGUMENT. While /RESET is low, or an earlier access waits, nothing happens (log 20). -/
def Obligations.HostWriteFollowsItsClass : Prop :=
  (∀ (p : Part) (a : Nat), a < 0x20000 →
     (0x01 ≤ a → a ≤ 0x11 → writeClass p a = .command)
     ∧ (a = 0 ∨ (0x11 < a ∧ a < 0x100) → writeClass p a = .ignored)
     ∧ (0x00980 ≤ a → a < 0x00E80 → writeClass p a = .blocked)
     ∧ (∀ (b : Branch) (n : StationNo) (i : Nat), 7 ≤ i → i < 16 →
         writeClass p (0x01000 + (64 * b.val + n.val) * 16 + i) = .blocked)
     ∧ ((0x00100 ≤ a ∧ a < 0x00960) ∨ (0x01000 ≤ a ∧ a < 0x02000 ∧ a % 16 < 7) ∨ (0x02000 ≤ a ∧ a < 0x02D00) →
         (p.loader.startState = .init → writeClass p a = .blocked)
         ∧ (p.loader.startState ≠ .init → writeClass p a = .passes))
     ∧ ((0x00960 ≤ a ∧ a < 0x00980) ∨ (0x00E80 ≤ a ∧ a < 0x01000) ∨ (0x02D00 ≤ a ∧ a < 0x10000) →
         writeClass p a = .passes)
     ∧ ∀ (n : BufNo) (i : Nat), i < 256 →
         (n ∈ p.pool.hostHeld → writeClass p (0x10000 + 256 * n.val + i) = .passes)
         ∧ (n ∉ p.pool.hostHeld → writeClass p (0x10000 + 256 * n.val + i) = .blocked))
  ∧ (∀ (p : Part) (r : RingRead) (i : Nat), r ∈ p.ring →
       (∀ u : Fin 256, r.user = .entry (.unit u) → i < 4 → p.covered (0x00300 + 4 * u.val + i) = true)
       ∧ (∀ n : Fin 64, r.user = .entry (.node n) → i < 8 → p.covered (0x00700 + 8 * n.val + i) = true)
       ∧ ∀ (b : Branch) (n : StationNo), r.user = .entry (.station b n) → i < 7 →
           p.covered (0x01000 + (64 * b.val + n.val) * 16 + i) = true)
  ∧ (∀ (s : State) (a : Addr) (v : Byte), (Instr.hostWrite a v).wellFormed = true →
       (s.busReady →
         (0x100 ≤ a.toNat → s.part.covered a.toNat = false → writeClass s.part a.toNat = .passes →
           exec (.hostWrite a v) s = .next { s with mem := Mem.write s.mem a.toNat v })
         ∧ (0x100 ≤ a.toNat → s.part.covered a.toNat = false → writeClass s.part a.toNat = .blocked →
           exec (.hostWrite a v) s =
             .next (s.withPart { s.part.refusedWith .blockedWrite 0xF2 with lastBlocked := a }))
         ∧ (0x100 ≤ a.toNat → s.part.covered a.toNat = true →
           exec (.hostWrite a v) s = .next (s.withPart { s.part with hostWait := some (.write a v) }))
         ∧ (a.toNat = 0 ∨ (0x11 < a.toNat ∧ a.toNat < 0x100) → exec (.hostWrite a v) s = .next s)
         ∧ (a.toNat = 0x0C → s.part.loader.startState ≠ .init →
           exec (.hostWrite a v) s = .next (s.withPart (s.part.refusedWith .badArgument 0x0C)))
         ∧ (a.toNat = 0x0C → s.part.loader.startState = .init →
           exec (.hostWrite a v) s = .next (s.withPart (s.part.refusedWith .init 0x0C))))
       ∧ (s.part.held = true ∨ s.part.hostWait.isSome = true → exec (.hostWrite a v) s = .next s))

/-- The bus's accesses and the commands agree. The write that a well-formed command stands for is decoded to
that command by its address, every operand kept (BAR, UNBAR and CLEAR_CONFLICT, which name a write of
STATION_EDIT, are decoded to that write: log 12), and the command does in every state what the host write of
that byte does. Each command that is a read does what the host read of its address does; every other read drives
the byte that the address then shows and changes nothing else (the operation of a plain read is the model's, the
table having no row for it: log 19). A read of a byte of a record that the part is writing waits on /WAIT. While
/RESET is low a read returns 0, and while an access waits there is no other (log 20). A waiting access is ended
by a fall of /RESET: a read returns the byte that memory holds, a write is decided as it is classed after the
reset (log 21). -/
def Obligations.EveryHostWriteDecodesToItsCommand : Prop :=
  (∀ (i : Instr) (a : Addr) (v : Byte), i.wellFormed = true → busWrite i = some (a, v) →
     ((∀ b n p, i ≠ .bar b n p ∧ i ≠ .unbar b n p ∧ i ≠ .clearConflict b n p) → ofHostWrite a v = i)
     ∧ (∀ (b : Branch) (n : StationNo) (p : Bool),
       i = .bar b n p ∨ i = .unbar b n p ∨ i = .clearConflict b n p → ofHostWrite a v = .stationEdit b n v)
     ∧ ∀ s : State, exec i s = exec (.hostWrite a v) s)
  ∧ (∀ s : State,
       exec .summaryLoRead s = .next (s.hostReads 0x40)
       ∧ exec .senseMissedRead s = .next (s.hostReads 0x65)
       ∧ exec .snapshotWindowLastByteRead s = .next (s.hostReads 0xFF)
       ∧ exec (.liveWordFirstByteRead .lastRefusal) s = .next (s.hostReads 0x44)
       ∧ exec (.liveWordFirstByteRead .lastBlocked) s = .next (s.hostReads 0x46)
       ∧ exec (.liveWordFirstByteRead .freeCount) s = .next (s.hostReads 0x4A)
       ∧ ∀ b : Branch,
         exec (.liveWordFirstByteRead (.score b)) s = .next (s.hostReads (BitVec.ofNat 17 (0x4C + 2 * b.val)))
         ∧ exec (.liveWordFirstByteRead (.branchState b)) s =
             .next (s.hostReads (BitVec.ofNat 17 (0x54 + 2 * b.val))))
  ∧ (∀ (s : State) (a : Addr),
       (s.part.held = true → s.hostReads a = s.withPart { s.part with hostData := 0 })
       ∧ (s.part.held = false → s.part.hostWait.isSome = true → s.hostReads a = s)
       ∧ (s.busReady →
         (∀ v : Byte, s.hostRead a = some v →
           (s.hostReads a).part.hostData = v ∧ (s.hostReads a).mem = s.mem
           ∧ (a.toNat ∉ [0x40, 0x44, 0x46, 0x4A, 0x4C, 0x4E, 0x50, 0x52, 0x54, 0x56, 0x58, 0x5A, 0x65, 0xFF] →
               s.hostReads a = s.withPart { s.part with hostData := v }))
         ∧ (0x100 ≤ a.toNat → s.part.covered a.toNat = false → s.hostRead a = some (Mem.read s.mem a.toNat))
         ∧ (0x100 ≤ a.toNat → s.part.covered a.toNat = true →
           s.hostRead a = none ∧ s.hostReads a = s.withPart { s.part with hostWait := some (.read a) })))
  ∧ (∀ (s : State) (a : Addr) (v : Byte), ∃ t, exec .pinResetAssert s = .next t
       ∧ t.part.hostWait = none ∧ t.part.held = true
       ∧ (s.part.hostWait = some (.read a) → t.mem = s.mem ∧ t.part.hostData = Mem.read s.mem a.toNat)
       ∧ (s.part.hostWait = some (.write a v) →
         (0x03000 ≤ a.toNat → a.toNat < 0x10000 → t.mem = Mem.write s.mem a.toNat v)
         ∧ ((0x00100 ≤ a.toNat ∧ a.toNat < 0x00E80 ∧ ¬ (0x00960 ≤ a.toNat ∧ a.toNat < 0x00980))
             ∨ (0x01000 ≤ a.toNat ∧ a.toNat < 0x02D00) ∨ 0x10000 ≤ a.toNat →
           t.mem = s.mem ∧ t.part.lastBlocked = a ∧ t.part.notices.reason = some .blockedWrite
           ∧ t.part.notices.code = 0xF2 ∧ t.part.notices.latches = 0x2000)))

/-- An edit of a station is checked in the rule's order over bytes 0-6 as they stand: a number 0 or 63, both
actions, clear-conflict outside CONFLICT, an address another record has, an address that begins with the derived
prefix in force or with the one a commit in progress has accepted. A write of byte 6 of a station image
(STATION_EDIT, or one of BAR, UNBAR, CLEAR_CONFLICT, which name such a write: log 12) stores the byte and
applies bytes 0-6 as one edit, whose reads the directory asks for (the edit is made within the write's step: log
7). The write-back follows its last read. Refused: REFUSED, the reason and the code of a station edit, the
record kept. Applied: the address is in force; the bar flag makes a record not BARRED BARRED with its counts
kept and takes it out of the poll list, a clear flag makes a BARRED record ABSENT with miss count 0, the clear-
conflict action makes a CONFLICT record ABSENT with both counts 0. Where the record is being written the write
waits. -/
def Obligations.StationEditStoresAndApplies : Prop :=
  (∀ (p : Part) (b : Branch) (n : StationNo) (l : List Byte),
     let present := (l.getD 6 0).getLsbD 0
     let bar := (l.getD 6 0).getLsbD 1
     let clear := (l.getD 6 0).getLsbD 2
     let a := addrAt l 0
     let taken := ∃ t ∈ Part.allStations, t ≠ (b, n) ∧ (p.station t.1 t.2).assigned = some a
     let reserved := hasPrefix p.setup.derivedPrefix a = true
       ∨ ∃ q, p.acceptedPrefix = some q ∧ hasPrefix q a = true
     (n = 0 ∨ n = 63 → p.editRefusal b n l = some .badArgument)
     ∧ (n ≠ 0 → n ≠ 63 →
       (clear = true → bar = true → p.editRefusal b n l = some .badState)
       ∧ (clear = true → bar = false → (p.station b n).state ≠ .conflict →
           p.editRefusal b n l = some .badState)
       ∧ (clear = false ∨ (bar = false ∧ (p.station b n).state = .conflict) →
         (present = true → taken → p.editRefusal b n l = some .dupAddress)
         ∧ (present = true → ¬ taken → reserved → p.editRefusal b n l = some .badArgument)
         ∧ (present = true → ¬ taken → ¬ reserved → p.editRefusal b n l = none)
         ∧ (present = false → p.editRefusal b n l = none))))
  ∧ (∀ (s : State) (i : Instr) (b : Branch) (n : StationNo) (v : Byte),
       (i = .stationEdit b n v ∨ ∃ q : Bool, (i = .bar b n q ∧ v = controlByte q true false)
         ∨ (i = .unbar b n q ∧ v = controlByte q false false)
         ∨ (i = .clearConflict b n q ∧ v = controlByte q false true)) →
       s.busReady → s.part.loader.startState ≠ .init →
       let a := 0x01006 + (64 * b.val + n.val) * 16
       let m := Mem.write s.mem a v
       let l := Mem.readList m (a - 6) 7
       let x := s.part.station b n
       let address : Option NodeAddr := if v.getLsbD 0 then some (addrAt l 0) else none
       let ring := s.part.ring ++ [{ user := .entry (.station b n), addr := a - 6, left := 7, got := [] }]
       let shown (t : State) (x' : Station) : Prop := t.part.station b n = x' ∧ t.mem = m ∧ t.part.ring = ring
       Mem.wf s.mem = true →
       (s.part.covered a = true →
         exec i s = .next (s.withPart { s.part with hostWait := some (.write (BitVec.ofNat 17 a) v) }))
       ∧ (∀ r, s.part.covered a = false → s.part.editRefusal b n l = some r →
         exec i s = .next { s with mem := m, part := Part.refusedWith { s.part with ring := ring } r 0xF0 })
       ∧ (s.part.covered a = false → s.part.editRefusal b n l = none →
         (v.getLsbD 1 = true → x.state ≠ .barred →
           ∃ t, exec i s = .next t ∧ (t.part.station b n).state = .barred
             ∧ (t.part.station b n).assigned = address ∧ (t.part.station b n).miss = x.miss
             ∧ (t.part.station b n).garble = x.garble ∧ t.mem = m ∧ t.part.ring = ring
             ∧ t.part.notices.latches.getLsbD 6 = true
             ∧ (x.state = .present → n ∉ (t.part.engine b).pollList))
         ∧ (v.getLsbD 1 = true → x.state = .barred →
           ∃ t, exec i s = .next t ∧ shown t { x with assigned := address }
             ∧ t.part.notices = s.part.notices)
         ∧ (v.getLsbD 1 = false → v.getLsbD 2 = false → x.state = .barred →
           ∃ t, exec i s = .next t ∧ shown t { x with assigned := address, state := .absent, miss := 0 }
             ∧ t.part.notices.latches.getLsbD 6 = true)
         ∧ (v.getLsbD 1 = false → v.getLsbD 2 = false → x.state ≠ .barred →
           ∃ t, exec i s = .next t ∧ shown t { x with assigned := address }
             ∧ t.part.notices = s.part.notices)
         ∧ (v.getLsbD 2 = true →
           ∃ t, exec i s = .next t
             ∧ shown t { x with assigned := address, state := .absent, miss := 0, garble := 0 }
             ∧ t.part.notices.latches.getLsbD 6 = true)))

/-- The checks of a unit map entry: kinds 0-4, a node 0-63, a printer 0-2, a station 1-63 of a branch 0-3; the
mask is the low four bits of the last byte. The write of the last byte of a unit map or node list entry stores
the byte and applies the entry as it then stands; a unit entry that fails its checks is refused with
BAD_ARGUMENT and the code of a unit map edit, the old entry kept. The directory asks for the entry's bytes
through the ring and descriptor requester, acts on those that stand when the trigger is stored (the model makes
the edit within the write's step: log 7), and writes the entry in force back after its last read
(MemoryCyclesAreGrantedAndMade). -/
def Obligations.TableEditsStoreAndApply : Prop :=
  (∀ k a b m : Byte,
     let mask : BitVec 4 := m.truncate 4
     (k = 0 → readUnit [k, a, b, m] = some { kind := .unassigned, mask := mask })
     ∧ (k = 1 → (∀ i : Fin 64, a.toNat = i.val → readUnit [k, a, b, m] = some { kind := .node i, mask := mask })
         ∧ (64 ≤ a.toNat → readUnit [k, a, b, m] = none))
     ∧ (k = 2 → (∀ i : Port, a.toNat = i.val → readUnit [k, a, b, m] = some { kind := .printer i, mask := mask })
         ∧ (3 ≤ a.toNat → readUnit [k, a, b, m] = none))
     ∧ (k = 3 →
         (∀ (c : Branch) (n : StationNo), b.toNat = c.val → a.toNat = n.val → n ≠ 0 →
           readUnit [k, a, b, m] = some { kind := .station c n, mask := mask })
         ∧ (4 ≤ b.toNat ∨ 64 ≤ a.toNat ∨ a = 0 → readUnit [k, a, b, m] = none))
     ∧ (k = 4 → readUnit [k, a, b, m] = some { kind := .localUnit, mask := mask })
     ∧ (4 < k.toNat → readUnit [k, a, b, m] = none))
  ∧ (∀ (s : State) (v : Byte), s.busReady → s.part.loader.startState ≠ .init →
       (∀ u : Fin 256,
         let a := 0x00303 + 4 * u.val
         let m := Mem.write s.mem a v
         let l := Mem.readList m (a - 3) 4
         let ring := s.part.ring ++ [{ user := .entry (.unit u), addr := a - 3, left := 4, got := [] }]
         s.part.covered a = false →
         (∀ e, readUnit l = some e → exec (.unitMapEdit u v) s = .next { s with
           mem := m
           part := { s.part with units := put s.part.units u e, ring := ring } })
         ∧ (readUnit l = none → exec (.unitMapEdit u v) s = .next { s with
           mem := m
           part := Part.refusedWith { s.part with ring := ring } .badArgument 0xF1 }))
       ∧ ∀ n : Fin 64,
         let a := 0x00707 + 8 * n.val
         let m := Mem.write s.mem a v
         let l := Mem.readList m (a - 7) 8
         let e : NodeEntry := { addr := addrAt l 0, valid := (l.getD 6 0).getLsbD 0 }
         let ring := s.part.ring ++ [{ user := .entry (.node n), addr := a - 7, left := 8, got := [] }]
         s.part.covered a = false →
         exec (.nodeListEdit n v) s = .next { s with
           mem := m
           part := { s.part with nodes := put s.part.nodes n e, ring := ring } })

/-! ## The part-side memory port and the image writer -/

/-- The arbiter grants one memory cycle to the first requester in the cyclic order that asks, counting from the
one after the last granted; the next grant counts from the one after it. A host access that waits has the
requester that writes its record go first, and the directory's reads of a watched entry before it (that order of
the two is the model's choice, log 7), and is made once the record is complete. With nobody asking, nothing
happens (log 1). What one memory cycle does for each kind of requester: the image writer writes its next byte; a
receive path writes a received byte, or moves one byte of a payload three places down, a read and then a write,
or with none of these reads a byte of the frame for a SEND (that order is the model's choice, log 18); the copy
engine writes a byte it holds, or reads the next; either writes the byte in progress of a stopped shift or copy,
the copy engine before all else (log 50); a printer reader reads the byte at its job's position, and so comes to
step 4 of R102, which clears an abandoned-byte mark whose 1 ms has passed (log 38); the ring and descriptor
requester reads one byte for the first user that asks (for the router the mark of the slot then at the producer
index), what it has left to ask for coming after the other users (the directory is one user), so that a read
alone has the bytes of memory at its cycles; after the directory's last read of an entry the entry in force is
written back; the setup loader reads or writes back the next byte of the setup block. Start-up initialisation
writes the images in their order, a byte a cycle, a probe record as zeros (log 56); after SOFT_RESET it reads
each entry of the unit map and the node list, takes it with its last byte, writes it back, then goes on alike.
Nothing else changes but the requester's own place. Once the last byte of a payload is moved, the chain entry of
its buffer is shifted and the receive path goes on to its next work; before that the command has no effect (log
1). -/
def Obligations.MemoryCyclesAreGrantedAndMade : Prop :=
  (∀ s : State, s.part.held = false →
     (s.part.hostWait = none → (∀ i : Fin 11, s.part.asks (Requester.ofIndex i) = false) →
       exec .memoryPortGrant s = .next s)
     ∧ (∀ i : Fin 11, s.part.hostWait = none → s.part.asks (Requester.ofIndex i) = true →
         (∀ k : Fin 11, (k - s.part.arbiter).val < (i - s.part.arbiter).val →
           s.part.asks (Requester.ofIndex k) = false) →
       ∃ t, exec .memoryPortGrant s = .next t ∧ t.part.arbiter = i + 1
         ∧ (t.part, t.mem) = Part.cycle (Requester.ofIndex i) ({ s.part with arbiter := i + 1 }, s.mem))
     ∧ (∀ a : Addr, s.part.hostWait = some (.read a) → s.part.setupWritten a.toNat = true →
         s.part.asks .loader = true →
       ∃ t, exec .memoryPortGrant s = .next t ∧ (t.part, t.mem) = Part.cycle .loader (s.part, s.mem))
     ∧ (∀ a : Addr, s.part.hostWait = some (.read a) → s.part.setupWritten a.toNat = false →
         s.part.imageWritten a.toNat = true → s.part.asks .imageWriter = true →
         (∀ r ∈ s.part.ring, r.watches a.toNat = false) →
       ∃ t, exec .memoryPortGrant s = .next t ∧ (t.part, t.mem) = Part.cycle .imageWriter (s.part, s.mem))
     ∧ (∀ (a : Addr) (r : RingRead), s.part.hostWait = some (.read a) → s.part.setupWritten a.toNat = false →
         (s.part.ring.find? fun r => r.watches a.toNat) = some r →
       exec .memoryPortGrant s = .next (s.withPart
         { (Part.cycle .ring ({ s.part with hostWait := none, ring := r :: s.part.ring.erase r }, s.mem)).1 with
             hostWait := some (.read a) }))
     ∧ (∀ a : Addr, s.part.hostWait = some (.read a) → s.part.covered a.toNat = false →
       exec .memoryPortGrant s = .next (s.withPart { s.part with
         hostWait := none, hostData := Mem.read s.mem a.toNat }))
     ∧ ∀ (a : Addr) (v : Byte), s.part.hostWait = some (.write a v) → s.part.covered a.toNat = false →
       (Instr.hostWrite a v).wellFormed = true → writeClass s.part a.toNat = .passes →
       exec .memoryPortGrant s = .next { s with
         part := { s.part with hostWait := none }, mem := Mem.write s.mem a.toNat v })
  ∧ (∀ (p : Part) (m : List Host.Cell),
       let target (c : Copy) : List RingRead := if c.walk = .toTrunk ∧ c.left = 0 then
         [{ user := .toTrunk, addr := 0x02801 + 32 * p.toTrunk.index.val, left := 9, got := [] }] else []
       (∀ (w : ImgActive) (v : Byte) (r : List Byte), p.writer.active = some w → w.left = v :: r →
         Part.cycle .imageWriter (p, m) =
           ({ p with writer := { p.writer with active := some { w with addr := w.addr + 1, left := r } } },
             Mem.write m w.addr v))
       ∧ (∀ (b : Branch) (buf : BufNo) (off : Nat) (v : Byte) (r : List PathOp), p.path b = .write buf off v :: r →
         Part.cycle (.receive b) (p, m) =
           ({ p with paths := put p.paths b r }, Mem.write m (0x10000 + 256 * buf.val + off) v))
       ∧ (∀ (b : Branch) (y : LastByte) (r : List PathOp), p.path b = .last y :: r →
         Part.cycle (.receive b) (p, m) =
           ({ p with paths := put p.paths b r }, Mem.write m (0x10000 + 256 * y.buf.val + y.off) y.value))
       ∧ (∀ y : LastByte, p.copy.stopped = some y →
         Part.cycle .copy (p, m) =
           ({ p with copy := { p.copy with stopped := none } },
             Mem.write m (0x10000 + 256 * y.buf.val + y.off) y.value))
       ∧ (∀ (b : Branch) (buf : BufNo) (len i : Nat) (r : List PathOp), p.path b = .shift buf len i none :: r →
           i < len →
         Part.cycle (.receive b) (p, m) =
           ({ p with paths := put p.paths b
                       (.shift buf len i (some (Mem.read m (0x10000 + 256 * buf.val + 3 + i))) :: r) }, m))
       ∧ (∀ (b : Branch) (buf : BufNo) (len i : Nat) (v : Byte) (r : List PathOp),
           p.path b = .shift buf len i (some v) :: r →
         Part.cycle (.receive b) (p, m) =
           ({ p with paths := put p.paths b (.shift buf len (i + 1) none :: r) },
             Mem.write m (0x10000 + 256 * buf.val + i) v))
       ∧ (∀ (b : Branch) (t : TxRead), p.path b = [] → (p.engine b).txRead = some t →
         let n := t.got.length
         let l := t.got ++ [Mem.read m (0x10000 + 256 * t.buf.val + if n = 0 then 0 else if n = 1 then 2 else n + 1)]
         (l.length < 2 ∨ l.length < (byteAt l 1).toNat + 2 → Part.cycle (.receive b) (p, m) =
           ({ p with engines := put p.engines b { p.engine b with txRead := some { t with got := l } } }, m))
         ∧ (2 ≤ l.length → (byteAt l 1).toNat + 2 ≤ l.length → Part.cycle (.receive b) (p, m) =
           ({ p with engines := put p.engines b { p.engine b with
                txRead := none
                sent := (p.engine b).sent ++ frameChars (byteAt l 0) t.ctl (byteAt l 1) (l.drop 2) } }, m)))
       ∧ (∀ (r : RingRead) (l : List RingRead), p.ring = r :: l → p.hostWait = none →
         let v := Mem.read m (if r.user = .router then 0x02000 + 32 * p.router.producer.val else r.addr)
         let others := l.filter fun x => !r.user.same x.user
         let own := l.filter fun x => r.user.same x.user
         (1 < r.left → Part.cycle .ring (p, m) =
           ({ p with ring := others ++ [{ r with addr := r.addr + 1, left := r.left - 1, got := r.got ++ [v] }]
                       ++ own }, m))
         ∧ (r.left ≤ 1 →
           let back (w : ImgWrite) : Prop :=
             Part.cycle .ring (p, m) = (Part.asksWrite { p with ring := others ++ own } w, m)
           (∀ u, r.user = .entry (.unit u) → back (slotWrite (.unit u) (unitImage (p.units.get u)) 0))
           ∧ (∀ n, r.user = .entry (.node n) → back (slotWrite (.node n) (nodeImage (p.nodes.get n)) 0))
           ∧ (∀ b n, r.user = .entry (.station b n) →
             back { recordWrite (.station b n) 0 with low := true })))
       ∧ (∀ (u : RingUser) (a n : Nat) (got : List Byte), u ≠ .router → p.hostWait = none →
         p.ring = [{ user := u, addr := a, left := n + 1, got := got }] →
         Part.cycles .ring (n + 1) (p, m) = Part.cycle .ring ({ p with
           ring := [{ user := u, addr := a + n, left := 1, got := got ++ Mem.readList m a n }] }, m))
       ∧ (∀ u v : RingUser, u.same v = true ↔ u = v ∨ ∃ e e', u = .entry e ∧ v = .entry e')
       ∧ (∀ (c : Copy) (v : Byte) (r : List Byte), p.copy.stopped = none → p.copy.current = some c →
           c.head = v :: r →
         Part.cycle .copy (p, m) =
           ({ p with copy := { p.copy with current := some { c with head := r, off := c.off + 1 } }
                     ring := p.ring ++ if r = [] ∧ c.byte = none then target c else [] },
             Mem.write m (0x10000 + 256 * c.buf.val + c.off) v))
       ∧ (∀ c : Copy, p.copy.stopped = none → p.copy.current = some c → c.head = [] → c.byte = none → 0 < c.left →
         Part.cycle .copy (p, m) =
           (let d : Copy := { c with byte := some (Mem.read m c.src), src := c.src + 1, left := c.left - 1 }
            ({ p with copy := { p.copy with current := some d } }, m)))
       ∧ (∀ (c : Copy) (v : Byte), p.copy.stopped = none → p.copy.current = some c → c.head = [] → c.byte = some v →
         Part.cycle .copy (p, m) =
           ({ p with copy := { p.copy with current := some { c with byte := none, off := c.off + 1 } }
                     ring := p.ring ++ target c },
             Mem.write m (0x10000 + 256 * c.buf.val + c.off) v))
       ∧ (∀ (k : Port) (a : Nat), p.readerWants k = some a →
         let t : PrinterPort := { p.port k with fetched := some (Mem.read m a) }
         let t' : PrinterPort := if t.overdue then { t with abandoned := false, overdue := false } else t
         Part.cycle (.printer k) (p, m) = ({ p with ports := put p.ports k t' }, m))
       ∧ ((∀ k : Port, (p.port k).loading = none) → p.hostWait = none →
         (∀ l : List Byte, p.loader.task = .reading l → l.length < 512 →
           Part.cycle .loader (p, m) =
             ({ p with loader := { p.loader with task := .reading (l ++ [Mem.read m (0x00100 + l.length)]) } }, m))
         ∧ ∀ (next : Setup) (pos : Nat), p.loader.task = .writing next pos → pos < 512 →
           Part.cycle .loader (p, m) =
             ({ p with loader := { p.loader with task := .writing next (pos + 1) } },
               Mem.write m (0x00100 + pos) ((setupImage next).getD pos 0))))
  ∧ (∀ (p : Part) (m : List Host.Cell) (pos i : Nat), p.loader.task = .initialise false pos [] →
       let writes (base : Nat) (v : Byte) : Prop := Part.cycle .loader (p, m) =
         ({ p with loader := { p.loader with task := .initialise false (pos + 1) [] } }, Mem.write m (base + i) v)
       (pos = i → i < 512 → writes 0x00100 ((setupImage Setup.default).getD i 0))
       ∧ (pos = 512 + i → i < 1024 → writes 0x00300 (if i % 4 = 3 then 0x0F else 0))
       ∧ (pos = 1536 + i → i < 512 → writes 0x00700 0)
       ∧ (pos = 2048 + i → i < 96 → writes 0x00900 (BitVec.ofNat 8 (i % 32 % 5)))
       ∧ (pos = 2144 + i → i < 4096 → writes 0x01000 0)
       ∧ (pos = 6240 + i → i < 1024 → writes 0x00A00 (if i % 32 = 17 then BitVec.ofNat 8 (i / 32) else 0))
       ∧ (pos = 7264 + i → i < 128 → writes 0x00980 0)
       ∧ (pos = 7392 + i → i < 128 → writes 0x00E00 0)
       ∧ (pos = 7520 + i → i < 2048 → writes 0x02000 0)
       ∧ (pos = 9568 + i → i < 1024 → writes 0x02800 0)
       ∧ (pos = 10592 + i → i < 256 → writes 0x02C00 0))
  ∧ (∀ (p : Part) (m : List Host.Cell) (pos k : Nat) (entry : List Byte), p.loader.task = .initialise true pos entry →
       let next (l : List Byte) : Loader := { p.loader with task := .initialise true (pos + 1) l }
       (∀ u : Fin 256, k < 4 →
         let a := 0x00300 + 4 * u.val + k
         let l := entry ++ [Mem.read m a]
         (pos = 8 * u.val + k → k < 3 → Part.cycle .loader (p, m) = ({ p with loader := next l }, m))
         ∧ (pos = 8 * u.val + 3 → k = 3 → Part.cycle .loader (p, m) =
             ({ p with units := put p.units u (reloadUnit l), loader := next [] }, m))
         ∧ (pos = 8 * u.val + 4 + k → Part.cycle .loader (p, m) =
             ({ p with loader := next [] }, Mem.write m a (byteAt (unitImage (p.units.get u)) k))))
       ∧ (∀ n : Fin 64, k < 8 →
         let a := 0x00700 + 8 * n.val + k
         let l := entry ++ [Mem.read m a]
         (pos = 2048 + 16 * n.val + k → k < 7 → Part.cycle .loader (p, m) = ({ p with loader := next l }, m))
         ∧ (pos = 2048 + 16 * n.val + 7 → k = 7 → Part.cycle .loader (p, m) =
             ({ p with nodes := put p.nodes n (readNode l), loader := next [] }, m))
         ∧ (pos = 2048 + 16 * n.val + 8 + k → Part.cycle .loader (p, m) =
             ({ p with loader := next [] }, Mem.write m a (byteAt (nodeImage (p.nodes.get n)) k))))
       ∧ ∀ q : Part, pos = 3072 + k → k < 8704 → q.loader.task = .initialise false (2144 + k) [] →
         Part.cycle .loader (p, m) =
           ({ p with loader := next [] }, (Part.cycle .loader (q, m)).2))
  ∧ (∀ l : List Byte, (∀ e, readUnit l = some e → reloadUnit l = e)
       ∧ (readUnit l = none → reloadUnit l = { kind := .unassigned, mask := (byteAt l 3).truncate 4 }))
  ∧ (∀ (s : State) (b : Branch) (buf : BufNo) (len i : Nat) (r : List PathOp), s.part.held = false →
       s.part.path b = .shift buf len i none :: r →
       (i < len → exec (.payloadShiftComplete b) s = .next s)
       ∧ (len ≤ i → exec (.payloadShiftComplete b) s = .next (s.withPart { s.part with
           paths := put s.part.paths b r
           jobs := s.part.jobs.map fun x => { x with chain := x.chain.map fun e =>
             if e.buf = buf then { e with shifted := true } else e } })))

/-- An idle image writer takes the write at the head of its queue and fixes its bytes: for a record the record
as it stands at that moment, for a ring slot the content asked for last. Once the last byte is written its
notices are latched and the writer is idle again; a host read that waited on it is made. An end with bytes still
to write has no effect (log 1). -/
def Obligations.ImageWritesBeginAndEnd : Prop :=
  (∀ (s : State) (w : ImgWrite) (r : List ImgWrite), s.part.held = false → s.part.writer.active = none →
    s.part.writer.queue = w :: r →
    (∃ (a : Nat) (l : List Byte), exec .imageWriteBegin s = .next (s.withPart { s.part with
        writer := { queue := r, active := some { write := w, addr := a, left := l } } })
      ∧ (∀ j, w.record = .job j → a = 0x00A00 + 32 * j.val ∧ l = jobImage j (s.part.job j))
      ∧ (∀ b, w.record = .capture b → a = 0x00980 + 32 * b.val ∧ l = captureImage (s.part.sup b).capture)
      ∧ (∀ b, w.record = .probe b → a = 0x00E00 + 32 * b.val ∧ l = probeImage (s.part.records.get b))
      ∧ (∀ i, w.record = .fromTrunk i → a = 0x02000 + 32 * i.val ∧ l = w.content)
      ∧ (∀ i, w.record = .toTrunk i → a = 0x02800 + 32 * i.val ∧ l = w.content)
      ∧ (∀ i, w.record = .submit i → a = 0x02C00 + 16 * i.val ∧ l = w.content)
      ∧ (∀ u, w.record = .unit u → a = 0x00300 + 4 * u.val ∧ l = w.content)
      ∧ (∀ n, w.record = .node n → a = 0x00700 + 8 * n.val ∧ l = w.content)
      ∧ ∀ b n, w.record = .station b n →
        let x := s.part.station b n
        let base := 0x01000 + (64 * b.val + n.val) * 16
        (w.low = true → w.high = true → a = base ∧ l = stationLow x ++ stationHigh x)
        ∧ (w.low = true → w.high = false → a = base ∧ l = stationLow x)
        ∧ (w.low = false → a = base + 7 ∧ l = stationHigh x)))
  ∧ ∀ (s : State) (w : ImgActive), s.part.held = false → s.part.writer.active = some w →
    let done : Part := { s.part with
      writer := { s.part.writer with active := none }
      notices := { s.part.notices with latches := s.part.notices.latches ||| w.write.notices } }
    (w.left = [] → s.part.hostWait = none → exec .imageWriteComplete s = .next (s.withPart done))
    ∧ (∀ a : Addr, w.left = [] → s.part.hostWait = some (.read a) → s.part.setupWritten a.toNat = false →
        (∀ x ∈ s.part.writer.queue, x.coversWatched a.toNat = false) →
        (∀ x ∈ s.part.ring, x.watches a.toNat = false) →
        exec .imageWriteComplete s =
          .next (s.withPart { done with hostWait := none, hostData := Mem.read s.mem a.toNat }))
    ∧ (w.left ≠ [] → exec .imageWriteComplete s = .next s)

/-! ## The trunk engines -/

/-- The last character has gone out. After a POLL or a SEND the reply window opens; after the owed status the
turnaround begins; after a broadcast the turnaround begins at once and the entry completes: it leaves the queue
and its buffer joins the tail of the free list; one that came from a to-trunk slot has the slot written DONE
with BROADCAST_SENT and TO_TRUNK_DONE (10), one that was relayed writes nothing. A frame that is still being
read is still being sent (log 1). -/
def Obligations.TransmissionEndOpensTheWindow : Prop :=
  ∀ (s : State) (b : Branch), s.part.held = false →
    let g := s.part.engine b
    let phase (ph : Phase) : State :=
      s.withPart { s.part with engines := put s.part.engines b { g with phase := ph } }
    (∀ x, g.phase = .transmit → g.exch = some x → g.txRead = none → x.kind ≠ .broadcast →
      exec (.transmissionEnd b) s = .next (phase .window))
    ∧ (g.phase = .owed → exec (.transmissionEnd b) s = .next (phase .turnaround))
    ∧ (∀ x, g.phase = .transmit → g.exch = some x → g.txRead.isSome = true →
      exec (.transmissionEnd b) s = .next s)
    ∧ ∀ (x : Exchange) (e : TxEntry) (r : List TxEntry), g.phase = .transmit → g.exch = some x → g.txRead = none →
      x.kind = .broadcast → x.entry = some e.buf → x.endCode = none → g.queue = e :: r → e.target = 63 →
      ∃ t, exec (.transmissionEnd b) s = .next t
        ∧ (∀ c n, e.origin = .relay c n → t.part.writer = s.part.writer)
        ∧ (∀ i copy, e.origin = .slot i copy → t.part.writer.active = s.part.writer.active
          ∧ t.part.writer.queue = enqueueWrite (slotWrite (.toTrunk i)
              (toTrunkSlotBytes copy 3 (byteAt copy 2) (byteAt copy 3) 2) 0x0400) s.part.writer.queue)
        ∧ (t.part.engine b).phase = .turnaround
        ∧ (t.part.engine b).queue = r.filter (fun y => y.buf != e.buf)
        ∧ t.part.pool.free = s.part.pool.free ++ [e.buf]
        ∧ (t.part.engine b).relayDropped = g.relayDropped
        ∧ t.part.stations = s.part.stations ∧ t.part.sups = s.part.sups ∧ t.mem = s.mem

/-- Where a received character goes that no reply is due for: a stopped or transmitting engine does not receive
it, nor one whose start bit the engine did not see; in a quiet wait it is discarded, in a listen slot that it
began in it goes to the noise gate, and elsewhere it begins or goes on a run of stray characters, of which the
first eight are kept. One that began in a listen slot and ends after it, be it in a later slot, goes nowhere,
nor does one that began before a slot and ends in it (the model's choice, log 22); one that began in a quiet
wait and ends after it is stray (log 42). A run of stray characters that a gap ends is one STRAY error with the
characters of the run; with no run the command has no effect (log 1), nor while a start bit stands, even where
it proves false (the model's choice, log 51). -/
def Obligations.CharactersOutsideAReply : Prop :=
  (∀ (s : State) (b : Branch) (c : LineChar), s.part.held = false →
     let g := s.part.engine b
     let u := s.part.sup b
     (g.state = .stopped ∨ g.phase = .transmit ∨ g.phase = .owed ∨ g.arriving = none →
       exec (.receiveCharacter b c) s = .next s)
     ∧ (g.state ≠ .stopped →
       (g.phase = .quiet → g.arriving.isSome = true → exec (.receiveCharacter b c) s =
         .next (s.withPart { s.part with engines := put s.part.engines b { g with arriving := none } }))
       ∧ (g.phase = .listen → g.arriving = some .slot → exec (.receiveCharacter b c) s =
         .next (s.withPart { s.part with
           engines := put s.part.engines b { g with arriving := none }
           sups := put s.part.sups b { u with gate := { u.gate with
             chars := (u.gate.chars ++ [(c.data, c.mark)]).take 8, complete := u.gate.complete + 1 } } }))
       ∧ ((g.phase = .listen ∧ (g.arriving = some .elsewhere ∨ g.arriving = some .past))
           ∨ ((g.phase = .verdict ∨ g.phase = .turnaround ∨ g.phase = .none ∨ g.phase = .padding ∨ g.phase = .window
                 ∨ g.phase = .reply)
               ∧ (g.arriving = some .slot ∨ g.arriving = some .past)) → exec (.receiveCharacter b c) s =
         .next (s.withPart { s.part with engines := put s.part.engines b { g with arriving := none } }))
       ∧ (g.phase = .verdict ∨ g.phase = .turnaround ∨ g.phase = .none ∨ g.phase = .padding →
           g.arriving = some .elsewhere →
         exec (.receiveCharacter b c) s =
         .next (s.withPart { s.part with engines := put s.part.engines b { g with
           arriving := none
           strayRun := some ((g.strayRun.getD [] ++ [(c.data, c.mark)]).take 8) } }))))
  ∧ (∀ (s : State) (b : Branch), s.part.held = false →
       let g := s.part.engine b
       (∀ cs, g.strayRun = some cs → g.arriving = none → g.phase ≠ .listen → ∃ t, exec (.strayRunEnd b) s = .next t
         ∧ (t.part.engine b).strayRun = none ∧ t.mem = s.mem
         ∧ (t.part.sup b).kinds.get 4 = satInc 65535 ((s.part.sup b).kinds.get 4)
         ∧ (t.part.sup b).score = min 1023 ((s.part.sup b).score + (s.part.branchSetup b).weights.get 4)
         ∧ ((s.part.sup b).capture.valid = false → (s.part.branchSetup b).captureMask.getLsbD 4 = true →
             (t.part.sup b).capture = { valid := true, kind := .stray, station := 0, stamp := g.round
                                        chars := cs.take 8, detail := 0, further := 0 }))
       ∧ (g.strayRun = none ∨ g.arriving.isSome = true → exec (.strayRunEnd b) s = .next s))

/-- A reply that begins well goes on: STATUS s from the station addressed is followed by its code, and ANSWER s
in answer to a POLL by the unit of a frame. Each data character of a frame up to the last payload byte is
written into the reservation buffer at its place and goes into the check. -/
def Obligations.RepliesAreTakenCharacterByCharacter : Prop :=
  ∀ (s : State) (b : Branch) (c : LineChar) (x : Exchange), s.part.held = false →
    let g := s.part.engine b
    let r := x.reply
    let chars := (r.chars ++ [(c.data, c.mark)]).take 8
    let taken (t : State) (r' : Reply) : Prop :=
      (t.part.engine b).phase = .reply ∧ (t.part.engine b).exch = some { x with reply := r' }
        ∧ t.mem = s.mem ∧ t.part.sups = s.part.sups ∧ t.part.stations = s.part.stations
    g.state ≠ .stopped → g.exch = some x → g.arriving = some .elsewhere → c.stop = true →
    (g.phase = .window → r.stage = .first → c.mark = true → c.data.toNat % 64 = x.station.val →
      (c.data.toNat / 64 = 3 →
        ∃ t, exec (.receiveCharacter b c) s = .next t ∧ taken t { r with chars := chars, stage := .code })
      ∧ (c.data.toNat / 64 = 2 → x.kind ≠ .send →
        ∃ t, exec (.receiveCharacter b c) s = .next t ∧ taken t { r with chars := chars, stage := .unit }))
    ∧ ∀ buf, g.phase = .reply → c.mark = false → g.reservation = some buf →
      (r.stage = .unit → ∃ t, exec (.receiveCharacter b c) s = .next t
        ∧ taken t { r with chars := chars, stage := .ctl, unit := c.data, crc := crcByte r.crc c.data }
        ∧ t.part.path b = s.part.path b ++ [.write buf 0 c.data])
      ∧ (r.stage = .ctl → ∃ t, exec (.receiveCharacter b c) s = .next t
        ∧ taken t { r with chars := chars, stage := .len, ctl := c.data, crc := crcByte r.crc c.data }
        ∧ t.part.path b = s.part.path b ++ [.write buf 1 c.data])
      ∧ (r.stage = .len → c.data.toNat ≤ 240 → ∃ t, exec (.receiveCharacter b c) s = .next t
        ∧ taken t { r with
            chars := chars, stage := if c.data = 0 then .checkHi else .payload, len := c.data.toNat, got := 0
            crc := crcByte r.crc c.data }
        ∧ t.part.path b = s.part.path b ++ [.write buf 2 c.data])
      ∧ (r.stage = .payload → ∃ t, exec (.receiveCharacter b c) s = .next t
        ∧ taken t { r with
            chars := chars, stage := if r.got + 1 < r.len then .payload else .checkHi, got := r.got + 1
            crc := crcByte r.crc c.data }
        ∧ t.part.path b = s.part.path b ++ [.write buf (3 + r.got) c.data])
      ∧ (r.stage = .checkHi → ∃ t, exec (.receiveCharacter b c) s = .next t
        ∧ taken t { r with chars := chars, stage := .checkLo, checkHi := c.data }
        ∧ t.part.path b = s.part.path b)

/-- The status codes. IDLE after a visit POLL is a clean reply: it clears the miss and garble counts of a
PRESENT station and stamps last heard, and nothing of a station barred meanwhile. The ACK that matches the
sequence bit sent is a clean reply and a delivery: tx_seq toggles, frames-out rises, the entry leaves the queue
and its buffer is freed. HOLD is a clean reply that raises the entry's hold count and completes it with REFUSED
at the limit. An entry that came from a to-trunk slot has the slot written DONE with its result and
TO_TRUNK_DONE (10); one that was relayed and not delivered is counted. IDLE in answer to a sweep POLL discovers
an ABSENT number: PRESENT with both counts 0, no sequence history, last heard stamped, at the tail of the poll
list, STATION (6) latched; a record in any other state stays. -/
def Obligations.StatusCodesEndTheReply : Prop :=
  ∀ (s : State) (b : Branch) (v : Byte) (x : Exchange), s.part.held = false →
    let g := s.part.engine b
    let c : Instr := .receiveCharacter b { data := v, mark := false, stop := true }
    let st := s.part.station b x.station
    g.state ≠ .stopped → g.exch = some x → g.arriving = some .elsewhere → g.phase = .reply →
    x.reply.stage = .code →
    (x.kind = .poll → v = 0x00 →
      ∃ t, exec c s = .next t ∧ (t.part.engine b).phase = .turnaround
        ∧ (x.void = false → st.state = .present →
          t.part.station b x.station = { st with miss := 0, garble := 0, lastHeard := g.round })
        ∧ (x.void = true ∨ st.state ≠ .present → t.part.stations = s.part.stations)
        ∧ t.part.sups = s.part.sups ∧ t.part.pool = s.part.pool ∧ t.mem = s.mem)
    ∧ (x.kind = .sweep → v = 0x00 → x.void = false →
      (st.state = .absent →
        ∃ t, exec c s = .next t ∧ (t.part.engine b).phase = .turnaround
          ∧ t.part.station b x.station = { st with
              state := .present, miss := 0, garble := 0, rxValid := false, txSeq := false, lastHeard := g.round }
          ∧ (t.part.engine b).pollList =
              (if x.station ∈ g.pollList then g.pollList else g.pollList ++ [x.station])
          ∧ t.part.notices.latches = s.part.notices.latches ||| 0x0040 ∧ t.part.sups = s.part.sups)
      ∧ (st.state ≠ .absent →
        ∃ t, exec c s = .next t ∧ (t.part.engine b).phase = .turnaround
          ∧ t.part.stations = s.part.stations ∧ (t.part.engine b).pollList = g.pollList))
    ∧ ∀ e r, x.kind = .send → x.entry = some e.buf → x.endCode = none → g.queue = e :: r →
      (∀ y ∈ r, y.buf ≠ e.buf) → e.target = x.station → x.station ≠ 63 → x.void = false →
      st.state = .present →
      let high := { recordWrite (.station b x.station) 0 with high := true }
      let ended (t : State) (code : Nat) (dropped : Nat) : Prop :=
        (∀ d n, e.origin = .relay d n → (t.part.engine b).relayDropped = dropped)
        ∧ ∀ i copy, e.origin = .slot i copy → (t.part.engine b).relayDropped = g.relayDropped
          ∧ t.part.writer.active = s.part.writer.active
          ∧ t.part.writer.queue = enqueueWrite (slotWrite (.toTrunk i)
              (toTrunkSlotBytes copy 3 (byteAt copy 2) (byteAt copy 3) code) 0x0400)
              (enqueueWrite high s.part.writer.queue)
      (v = (if x.seq then 0x11 else 0x10) →
        ∃ t, exec c s = .next t ∧ (t.part.engine b).phase = .turnaround
          ∧ (t.part.engine b).queue = r ∧ t.part.pool.free = s.part.pool.free ++ [e.buf]
          ∧ t.part.station b x.station = { st with
              miss := 0, garble := 0, lastHeard := g.round, txSeq := !st.txSeq
              framesOut := if st.framesOut < 65535 then st.framesOut + 1 else 65535
              queued := st.queued - 1 }
          ∧ t.part.sups = s.part.sups ∧ ended t 1 g.relayDropped)
      ∧ (v = 0x20 → e.hold + 1 < (s.part.branchSetup b).holdLimit →
        ∃ t, exec c s = .next t ∧ (t.part.engine b).phase = .turnaround
          ∧ (t.part.engine b).queue = { e with hold := e.hold + 1 } :: r
          ∧ t.part.station b x.station = { st with miss := 0, garble := 0, lastHeard := g.round }
          ∧ t.part.pool = s.part.pool ∧ t.part.sups = s.part.sups)
      ∧ (v = 0x20 → (s.part.branchSetup b).holdLimit ≤ e.hold + 1 → st.queued ≠ 0 →
        ∃ t, exec c s = .next t ∧ (t.part.engine b).phase = .turnaround
          ∧ (t.part.engine b).queue = r ∧ t.part.pool.free = s.part.pool.free ++ [e.buf]
          ∧ ended t 3 (if g.relayDropped < 65535 then g.relayDropped + 1 else 65535)
          ∧ t.part.station b x.station = { st with
              miss := 0, garble := 0, lastHeard := g.round, queued := st.queued - 1 })

/-- A garbled reply: the kind of error follows the first condition that holds (a bad stop bit FRAMING, a first
character that is data or names another number WRONG_STATION, a control character where data is due FRAMING, a
gap FRAMING, a check that does not agree CHECK). The supervisor counts and scores it, and a quiet wait begins.
That a gap begins the quiet wait is the model's choice (log 23). The directory keeps the garble count of a
PRESENT or ABSENT number: with the score below TW before the error's weight it advances, and at conflict_limit
the record enters CONFLICT, off the poll list, with STATION (6) latched; at TW or above the count is held (a
count that advances from 15 is a free value, log 34, of which nothing is said). -/
def Obligations.GarbledRepliesAreScored : Prop :=
  ∀ (s : State) (b : Branch) (x : Exchange), s.part.held = false →
    let g := s.part.engine b
    let st := s.part.station b x.station
    let scored (i : Instr) (k : ErrorKind) : Prop :=
      ∃ t, exec i s = .next t ∧ (t.part.engine b).phase = .quiet
        ∧ (t.part.sup b).kinds.get k.number = satInc 65535 ((s.part.sup b).kinds.get k.number)
        ∧ (t.part.sup b).score
            = min 1023 ((s.part.sup b).score + (s.part.branchSetup b).weights.get k.number)
        ∧ (t.part.sup b).clean = false ∧ t.mem = s.mem
        ∧ (x.void = true ∨ (s.part.branchSetup b).tw ≤ (s.part.sup b).score
            ∨ st.state = .conflict ∨ st.state = .barred → t.part.station b x.station = st)
        ∧ (x.void = false → (s.part.sup b).score < (s.part.branchSetup b).tw →
            st.state = .present ∨ st.state = .absent → st.garble < 15 →
          (st.garble + 1 < (s.part.branchSetup b).conflictLimit →
            t.part.station b x.station = { st with garble := st.garble + 1 })
          ∧ ((s.part.branchSetup b).conflictLimit ≤ st.garble + 1 →
            (t.part.station b x.station).state = .conflict
            ∧ (t.part.station b x.station).garble = st.garble + 1
            ∧ (st.state = .present → x.station ∉ (t.part.engine b).pollList)
            ∧ t.part.notices.latches.getLsbD 6 = true))
    g.state ≠ .stopped → g.exch = some x →
    (g.phase = .reply → g.arriving = none → scored (.gapTimeout b) .framing)
    ∧ (g.phase = .window ∨ g.phase = .reply → g.arriving = some .elsewhere →
      (∀ c : LineChar, c.stop = false → scored (.receiveCharacter b c) .framing)
      ∧ (∀ c : LineChar, c.stop = true → x.reply.stage = .first →
          (c.mark = false ∨ c.data.toNat % 64 ≠ x.station.val ∨ c.data.toNat / 64 < 2
            ∨ (c.data.toNat / 64 = 2 ∧ x.kind = .send)) →
          scored (.receiveCharacter b c) .wrongStation)
      ∧ (∀ c : LineChar, c.stop = true → x.reply.stage ≠ .first → c.mark = true →
          scored (.receiveCharacter b c) .framing)
      ∧ (∀ c : LineChar, c.stop = true → x.reply.stage = .code → c.mark = false →
          (x.kind ≠ .send → c.data ≠ 0x00 → scored (.receiveCharacter b c) .wrongStation)
          ∧ (x.kind = .send → c.data ≠ 0x20 → c.data ≠ (if x.seq then 0x11 else 0x10) →
              scored (.receiveCharacter b c) .wrongStation))
      ∧ (∀ c : LineChar, c.stop = true → x.reply.stage = .len → c.mark = false → 240 < c.data.toNat →
          scored (.receiveCharacter b c) .framing)
      ∧ (∀ c : LineChar, c.stop = true → x.reply.stage = .checkLo → c.mark = false →
          x.reply.crc ≠ x.reply.checkHi ++ c.data → scored (.receiveCharacter b c) .check))

/-- A good frame that answers a POLL is offered to the router, whose verdict, unless it is for the host, is sent
at once. From a sender that is not PRESENT, and so in an exchange a bar has made void: REJECT, nothing else. A
repeat of the frame last accepted: ACK with its sequence bit, nothing taken. For an unusable unit (unassigned,
masked for the branch, or an invalid node entry): REJECT, counted unroutable; so also for a number that the
frame itself discovers. For a NODE or the host itself the engine waits while the mark of the from-trunk slot at
the producer index is read, and with it the oldest offer is decided as all then stands (log 7): mark EMPTY, ACK,
the buffer in the host-held set, the slot written FULL with its fields and FROM_TRUNK (9), the index advanced;
else HOLD. Where the engine has been aborted meanwhile (R26) no status is sent, and a buffer not taken returns
to the free list; that it stays the reservation until the verdict and only then joins the list is DEDUCED (log
54). A stray run of the wait is counted STRAY as the status goes out (R21). For a STATION: REJECT to the sender
itself, to a branch not running or a station not PRESENT, HOLD for a full queue, else ACK and a relay at the
tail of that queue. For a PRINTER: REJECT where not enabled. Without FIRST it continues the station's job there:
REJECT with none, the job aborted TOO_LARGE and REJECT at the chain limit, HOLD below RESERVE or where the job
cannot close, else ACK and the buffer at the chain's tail. With FIRST it opens the lowest FREE record, aborting
the station's old job INCOMPLETE, or is held. With LAST the job closes, a frame with FIRST too; closed into an
IDLE port's empty queue it is granted at once. A frame taken has left the reservation, its sequence bit and
frames-in kept; after HOLD and REJECT the buffer stays. Unit, ctl and len are the reply's as received (the
model's choice, log 26). Not shown: a discovery with a usable unit; a wait that ends for a STATION or PRINTER
(log 55). -/
def Obligations.GoodFramesAreOfferedToTheRouter : Prop :=
  (∀ (s : State) (b : Branch) (v : Byte) (x : Exchange) (buf : BufNo), s.part.held = false →
     let g := s.part.engine b
     let r := x.reply
     let c : Instr := .receiveCharacter b { data := v, mark := false, stop := true }
     let n := x.station
     let st := s.part.station b n
     let e := s.part.units.get r.unit.toFin
     let i := s.part.router.producer
     let seq := r.ctl.getLsbD 0
     let last := r.ctl.getLsbD 2
     let answered (code : Byte) (t : State) : Prop :=
       exec c s = .next t ∧ (t.part.engine b).phase = .owed
         ∧ (t.part.engine b).sent = [(BitVec.ofNat 8 (192 + n.val), true), (code, false)] ∧ t.mem = s.mem
     let heard : Station := { st with miss := 0, garble := 0, lastHeard := g.round }
     let kept (code : Byte) (t : State) : Prop := answered code t ∧ (t.part.engine b).reservation = some buf
       ∧ t.part.station b n = heard ∧ t.part.pool = s.part.pool ∧ t.part.jobs = s.part.jobs
     let taken (t : State) : Prop := answered (if seq then 0x11 else 0x10) t
       ∧ (t.part.engine b).reservation = none ∧ (t.part.station b n).rxValid = true
       ∧ (t.part.station b n).rxLast = seq ∧ (t.part.station b n).framesIn = satInc 65535 st.framesIn
     let unusable := e.kind = .unassigned ∨ e.mask.getLsbD b.val = false
       ∨ ∃ k, e.kind = .node k ∧ (s.part.nodes.get k).valid = false
     g.state ≠ .stopped → g.exch = some x → g.arriving = some .elsewhere → g.phase = .reply →
     r.stage = .checkLo → r.crc = r.checkHi ++ v → g.reservation = some buf →
     (x.kind = .poll ∨ x.void = true → st.state ≠ .present →
       ∃ t, answered 0x30 t ∧ (t.part.engine b).reservation = some buf ∧ t.part.stations = s.part.stations
         ∧ t.part.pool = s.part.pool ∧ t.part.router = s.part.router ∧ t.part.jobs = s.part.jobs)
     ∧ (x.void = false → x.kind = .sweep → st.state = .absent → unusable →
       ∃ t, answered 0x30 t ∧ (t.part.engine b).reservation = some buf ∧ (t.part.station b n).state = .present
         ∧ t.part.router.unroutable.get b = satInc 65535 (s.part.router.unroutable.get b))
     ∧ (x.void = false → x.kind = .poll → st.state = .present → st.rxValid = true → st.rxLast = seq →
       ∃ t, kept (if seq then 0x11 else 0x10) t ∧ t.part.router = s.part.router)
     ∧ (x.void = false → x.kind = .poll → st.state = .present → ¬ (st.rxValid = true ∧ st.rxLast = seq) →
       (unusable →
         ∃ t, kept 0x30 t
           ∧ t.part.router.unroutable.get b = satInc 65535 (s.part.router.unroutable.get b))
       ∧ (¬ unusable →
         ((e.kind = .localUnit ∨ ∃ k, e.kind = .node k) →
           let offer : Offer := { branch := b, station := n, buf := buf, unit := r.unit, ctl := r.ctl, len := r.len }
           ∃ t, exec c s = .next t ∧ (t.part.engine b).phase = .verdict ∧ (t.part.engine b).reservation = some buf
             ∧ t.part.router = { s.part.router with offers := s.part.router.offers ++ [offer] }
             ∧ t.part.ring = s.part.ring ++ [{ user := .router, addr := 0x02000 + 32 * i.val, left := 1, got := [] }]
             ∧ t.part.station b n = heard ∧ t.part.pool = s.part.pool ∧ t.part.jobs = s.part.jobs ∧ t.mem = s.mem)
         ∧ (∀ (b2 : Branch) (s2 : StationNo), e.kind = .station b2 s2 →
           let running := (s.part.switch b2).state = .inService ∨ (s.part.switch b2).state = .onTrial
           let reaches := (b2 ≠ b ∨ s2 ≠ n) ∧ running ∧ (s2 = 63 ∨ (s.part.station b2 s2).state = .present)
           (¬ reaches → ∃ t, kept 0x30 t)
           ∧ (reaches → 32 ≤ (s.part.engine b2).queue.length → ∃ t, kept 0x20 t)
           ∧ (reaches → (s.part.engine b2).queue.length < 32 →
             ∃ t, taken t ∧ t.part.pool = s.part.pool ∧ (t.part.engine b2).queue = (s.part.engine b2).queue
               ++ [{ target := s2, buf := buf, origin := .relay b n, hold := 0, first := r.ctl.getLsbD 1, last := last }]))
         ∧ ∀ k : Port, e.kind = .printer k →
           let entry : ChainEntry := { buf := buf, fill := r.len, shifted := r.len == 0 }
           let closes := last = false ∨ (s.part.queue (s.part.closeTarget k)).length < 16
           ((s.part.printerSetup k).enable = false → ∃ t, kept 0x30 t)
           ∧ ((s.part.printerSetup k).enable = true → r.ctl.getLsbD 1 = false →
             (s.part.assemblingOf b n = none → ∃ t, kept 0x30 t)
             ∧ ∀ j : JobNo, s.part.assemblingOf b n = some j →
               let y := s.part.job j
               (y.printer ≠ k → ∃ t, kept 0x30 t)
               ∧ (y.printer = k → s.part.setup.jobBufferLimit ≤ y.chain.length →
                 ∃ t, answered 0x30 t ∧ (t.part.engine b).reservation = some buf
                   ∧ (t.part.job j).state = .aborted ∧ (t.part.job j).result = some .tooLarge
                   ∧ t.part.pool.free = s.part.pool.free ++ y.chain.map fun z => z.buf)
               ∧ (y.printer = k → y.chain.length < s.part.setup.jobBufferLimit →
                 (s.part.pool.free.length < s.part.setup.reserve ∨ ¬ closes → ∃ t, kept 0x20 t)
                 ∧ (s.part.setup.reserve ≤ s.part.pool.free.length →
                   (last = false → ∃ t, taken t ∧ t.part.pool = s.part.pool
                     ∧ t.part.job j = { y with chain := y.chain ++ [entry], queuedBytes := y.queuedBytes + r.len }
                     ∧ t.part.path b = s.part.path b ++ (if r.len = 0 then [] else [.shift buf r.len 0 none]))
                   ∧ (last = true → closes → (s.part.port (s.part.closeTarget k)).state ≠ .idle →
                     ∃ t, taken t ∧ (t.part.job j).state = .waiting ∧ (t.part.job j).stamp = s.part.stamp
                       ∧ (t.part.job j).chain = y.chain ++ [entry]
                       ∧ (t.part.job j).printer = s.part.closeTarget k
                       ∧ t.part.queue (s.part.closeTarget k) = s.part.queue (s.part.closeTarget k) ++ [j])
                   ∧ (last = true → s.part.queue (s.part.closeTarget k) = [] →
                     let z := s.part.port (s.part.closeTarget k)
                     z.state = .idle → z.loading = none → z.loadPending = false → z.handshake = none →
                     ({ z with job := some j } : PrinterPort).decide
                       (s.part.printerSetup (s.part.closeTarget k)).enable = .busy →
                     (∀ f ∈ y.chain ++ [entry], f.fill ≠ 0) → y.queuedBytes + r.len ≠ 0 → y.abortPending = false →
                     ∃ t, taken t ∧ (t.part.job j).state = .printing ∧ (t.part.job j).stamp = s.part.stamp
                       ∧ (t.part.job j).chain = y.chain ++ [entry]
                       ∧ (t.part.port (s.part.closeTarget k)).state = .busy
                       ∧ (t.part.port (s.part.closeTarget k)).job = some j
                       ∧ (t.part.port (s.part.closeTarget k)).stall
                           = some (s.part.printerSetup (s.part.closeTarget k)).stallS
                       ∧ t.part.queue (s.part.closeTarget k) = []))))
           ∧ ((s.part.printerSetup k).enable = true → r.ctl.getLsbD 1 = true →
             let old := s.part.assemblingOf b n
             let count := st.openJobs - (if old.isSome then 1 else 0)
             let opens := s.part.freeRecord.isSome = true ∧ count < s.part.setup.stationJobLimit
               ∧ s.part.setup.reserve ≤ s.part.pool.free.length ∧ closes
             (¬ opens → ∃ t, kept 0x20 t)
             ∧ (∀ j : JobNo, s.part.freeRecord = some j → opens → last = true →
               (s.part.port (s.part.closeTarget k)).state ≠ .idle →
               ∃ t, taken t
                 ∧ t.part.job j = { Job.blank with
                     state := .waiting, printer := s.part.closeTarget k, origin := .trunk b n, chain := [entry]
                     queuedBytes := r.len, stamp := s.part.stamp }
                 ∧ t.part.stamp = (s.part.stamp + 1) % 65536
                 ∧ t.part.queue (s.part.closeTarget k) = s.part.queue (s.part.closeTarget k) ++ [j])
             ∧ ∀ j : JobNo, s.part.freeRecord = some j → opens → last = false →
               ∃ t, taken t
                 ∧ t.part.job j = { Job.blank with
                     state := .assembling, printer := k, origin := .trunk b n, chain := [entry], queuedBytes := r.len }
                 ∧ (old = none → t.part.pool = s.part.pool
                     ∧ t.part.path b = s.part.path b ++ (if r.len = 0 then [] else [.shift buf r.len 0 none]))
                 ∧ ∀ o : JobNo, old = some o → (t.part.job o).state = .aborted
                     ∧ (t.part.job o).result = some .incomplete ∧ (t.part.job o).chain = []
                     ∧ t.part.pool.free = s.part.pool.free ++ (s.part.job o).chain.map fun z => z.buf))))
  ∧ (∀ (p : Part) (m : List Host.Cell) (o : Offer) (os : List Offer) (r : RingRead) (rest : List RingRead),
       p.hostWait = none → p.ring = r :: rest → r.user = .router → r.left ≤ 1 → r.got = [] →
       p.router.offers = o :: os →
       let i := p.router.producer
       let st := p.station o.branch o.station
       let e := p.units.get o.unit.toFin
       let seq := o.ctl.getLsbD 0
       let mark := Mem.read m (0x02000 + 32 * i.val)
       let g := p.engine o.branch
       let status (code : Byte) (y : Engine) : Engine := { y with
         phase := .owed, arriving := none
         sent := [(BitVec.ofNat 8 (192 + o.station.val), true), (code, false)] }
       let q : Part := { p with
         router := { p.router with offers := os }
         ring := rest.filter (fun x => !r.user.same x.user) ++ rest.filter (fun x => r.user.same x.user) }
       let waits := g.phase = .verdict ∧ g.reservation = some o.buf
       let forHost (host : Bool) (dst : NodeAddr) : Prop := e.mask.getLsbD o.branch.val = true
         ∧ ((host = true ∧ e.kind = .localUnit ∧ dst = Vector.replicate 6 0)
           ∨ (host = false ∧ ∃ k, e.kind = .node k ∧ (p.nodes.get k).valid = true ∧ dst = (p.nodes.get k).addr))
       let taken (host : Bool) (dst : NodeAddr) (t : Part) : Prop :=
         t.pool = { p.pool with hostHeld := p.pool.hostHeld ++ [o.buf] }
           ∧ t.router = { p.router with producer := i + 1, offers := os } ∧ t.ring = q.ring
           ∧ t.station o.branch o.station =
               { st with rxLast := seq, rxValid := true, framesIn := satInc 65535 st.framesIn }
           ∧ t.writer.queue = enqueueWrite (slotWrite (.fromTrunk i)
               (fromTrunkSlotBytes host o.branch o.station (p.newSideAddr o.branch o.station) dst o.unit o.ctl
                 (BitVec.ofNat 8 o.len) o.buf) 0x0200)
               (enqueueWrite { recordWrite (.station o.branch o.station) 0 with high := true } p.writer.queue)
       let returned (t : Part) : Prop := Part.cycle .ring (p, m) = (t, m) ∧ t.pool.free = p.pool.free ++ [o.buf]
         ∧ t.router = q.router ∧ t.engines = put p.engines o.branch { g with reservation := none }
       (st.state = .present → ¬ (st.rxValid = true ∧ st.rxLast = seq) →
         ∀ (host : Bool) (dst : NodeAddr), forHost host dst →
         (waits → g.strayRun = none →
           (mark = 0 → ∃ t, Part.cycle .ring (p, m) = (t, m) ∧ taken host dst t
             ∧ t.engine o.branch = { status (if seq then 0x11 else 0x10) g with reservation := none })
           ∧ (mark ≠ 0 → Part.cycle .ring (p, m) =
               ({ q with engines := put p.engines o.branch (status 0x20 g) }, m)))
         ∧ (g.phase ≠ .verdict → g.reservation = some o.buf →
           (mark = 0 → ∃ t, Part.cycle .ring (p, m) = (t, m) ∧ taken host dst t
             ∧ t.engines = put p.engines o.branch { g with reservation := none })
           ∧ (mark ≠ 0 → ∃ t, returned t ∧ t.pool.hostHeld = p.pool.hostHeld)))
       ∧ (st.state ≠ .present →
         (waits → g.strayRun = none → Part.cycle .ring (p, m) =
           ({ q with engines := put p.engines o.branch (status 0x30 g) }, m))
         ∧ (g.phase ≠ .verdict → g.reservation = some o.buf → ∃ t, returned t))
       ∧ (waits → ∀ cs : List (Byte × Bool), g.strayRun = some cs → ∃ t, Part.cycle .ring (p, m) = (t, m)
           ∧ (t.engine o.branch).strayRun = none
           ∧ (t.sup o.branch).kinds.get 4 = satInc 65535 ((p.sup o.branch).kinds.get 4)))

/-- The reply window closes in silence. After a visit POLL or a SEND that is a MISS for the supervisor and the
directory: the station's miss count rises, and at miss_limit the station goes ABSENT with miss count 0 and
leaves the poll list. A swept number's silence is nothing. While a start bit stands the close has no effect, the
window staying open even where it proves false (the model's choice, log 51). -/
def Obligations.SilenceIsAMiss : Prop :=
  ∀ (s : State) (b : Branch) (x : Exchange), s.part.held = false →
    let g := s.part.engine b
    let st := s.part.station b x.station
    g.phase = .window → g.exch = some x → g.state ≠ .stopped →
    (g.arriving.isSome = true → exec (.replyWindowClose b) s = .next s)
    ∧ (g.arriving = none → x.kind = .sweep →
      exec (.replyWindowClose b) s = .next (s.withPart { s.part with
        engines := put s.part.engines b { g with phase := .turnaround } }))
    ∧ (g.arriving = none → x.kind ≠ .sweep → x.void = false → st.state = .present →
      ∃ t, exec (.replyWindowClose b) s = .next t ∧ (t.part.engine b).phase = .turnaround
        ∧ (t.part.sup b).kinds.get 0 = satInc 65535 ((s.part.sup b).kinds.get 0)
        ∧ (t.part.sup b).score = min 1023 ((s.part.sup b).score + (s.part.branchSetup b).weights.get 0)
        ∧ (st.miss + 1 < (s.part.branchSetup b).missLimit →
            t.part.station b x.station = { st with miss := st.miss + 1 })
        ∧ ((s.part.branchSetup b).missLimit ≤ st.miss + 1 →
            (t.part.station b x.station).state = .absent ∧ (t.part.station b x.station).miss = 0
            ∧ x.station ∉ (t.part.engine b).pollList))

/-- The quiet wait ends in the turnaround, and a false start bit is no character; nothing else changes. A change
of level of the filtered receive line: an open noise gate counts it, up to 255; a fall begins a start bit where
the engine watches the line and no character is arriving. A character passes on the line as a start bit, its
eight data bits least significant first, its mark bit and its stop bit, the characters of a transmission back to
back; a good start bit and the ten bits after it are read back as that character. The end of a quiet wait
outside one has no effect (the model's choice, log 1). -/
def Obligations.LevelChangesAndQuietWaits : Prop :=
  (∀ (s : State) (b : Branch), s.part.held = false →
     let g := s.part.engine b
     (g.phase = .quiet → exec (.quietWaitEnd b) s = .next (s.withPart { s.part with
       engines := put s.part.engines b { g with phase := .turnaround } }))
     ∧ (g.phase ≠ .quiet → exec (.quietWaitEnd b) s = .next s)
     ∧ exec (.falseStartBit b) s = .next (s.withPart { s.part with
         engines := put s.part.engines b { g with arriving := none } }))
  ∧ (∀ (s : State) (b : Branch) (level : Bool),
       let g := s.part.engine b
       let u := s.part.sup b
       (g.rxLevel = level → exec (.receiveLineLevelChange b level) s = .next s)
       ∧ (g.rxLevel ≠ level → ∃ t, exec (.receiveLineLevelChange b level) s = .next t
         ∧ t = s.withPart { s.part with engines := put s.part.engines b (t.part.engine b), sups := t.part.sups }
         ∧ t.part.sups = (if u.gate.isOpen then put s.part.sups b { u with gate := { u.gate with
             edges := if u.gate.edges < 255 then u.gate.edges + 1 else 255 } } else s.part.sups)
         ∧ (level = false → s.part.held = false → g.state ≠ .stopped → g.phase ≠ .transmit → g.phase ≠ .owed →
             g.arriving = none →
             t.part.engine b = { g with
               rxLevel := level, arriving := some (if g.phase = .listen then .slot else .elsewhere) })
         ∧ (level = true ∨ g.state = .stopped ∨ g.phase = .transmit ∨ g.phase = .owed →
             t.part.engine b = { g with rxLevel := level })))
  ∧ (∀ c : LineChar, charOfBits (charBits c) = some c
       ∧ charBits c = [false, c.data.getLsbD 0, c.data.getLsbD 1, c.data.getLsbD 2, c.data.getLsbD 3,
           c.data.getLsbD 4, c.data.getLsbD 5, c.data.getLsbD 6, c.data.getLsbD 7, c.mark, c.stop])
  ∧ ∀ (v : Byte) (mark : Bool) (l : List (Byte × Bool)),
      lineBits [] = [] ∧ lineBits ((v, mark) :: l) = charBits { data := v, mark := mark, stop := true } ++ lineBits l

/-- The end of the turnaround. A stopping engine is STOPPED with nothing in progress and its reservation
returned. The exchange that begins takes the setup values in force. In the visits of a round the cursor names
the station after the one just visited, and the next station of the order is sent its oldest entry, its control
character and the frame read from the buffer, or is polled: with the reservation held, or with one taken from
the head of the free list, POOL_LOW (12) latched where the free count falls below RESERVE; with no buffer the
POLL is skipped and counted, which is a visit. After the visits, in a round that is a multiple of sweep_interval
or with an empty poll list, the next ABSENT number after the sweep cursor, cyclically, is polled, and the cursor
takes it as the POLL begins (the model's choice, log 46). The sweep slot, also with no number or no buffer, is
followed by the listen slot of listen_ms with the noise gate open and empty, unless listen_ms is 0. A round
without one ends, and the next begins with a broadcast where one is queued. In the initial sweep the next ABSENT
number is polled, the sweep cursor and the round counter standing; after the last the rounds begin. -/
def Obligations.TurnaroundEndGoesOn : Prop :=
  ∀ (s : State) (b : Branch) (x : Exchange), s.part.held = false →
    let g := s.part.engine b
    let u := s.part.sup b
    let c : Instr := .turnaroundEnd b
    g.phase = .turnaround → g.exch = some x → x.endCode = none →
    (g.state = .stopping → ∃ t, exec c s = .next t
      ∧ (t.part.engine b).state = .stopped ∧ (t.part.engine b).phase = .none
      ∧ (t.part.engine b).exch = none ∧ (t.part.engine b).reservation = none ∧ t.mem = s.mem
      ∧ (∀ buf, g.reservation = some buf → buf ∈ t.part.pool.free)
      ∧ ((s.part.switch b).state = .draining → (t.part.switch b).state = .opening))
    ∧ (g.strayRun = none →
      let setup := s.part.branchSetup b
      let engineOnly (t : State) : Prop := exec c s = .next t
        ∧ t = s.withPart { s.part with engines := put s.part.engines b (t.part.engine b) }
      let begins (t : State) (kind : ExchKind) (n : StationNo) (entry : Option BufNo) (seq : Bool) (ctl : Nat) : Prop :=
        (t.part.engine b).phase = .transmit ∧ (t.part.engine b).sent = [(BitVec.ofNat 8 (ctl + n.val), true)]
        ∧ (t.part.engine b).queue = g.queue
        ∧ ∃ w, (t.part.engine b).exch = some w ∧ w.kind = kind ∧ w.station = n ∧ w.entry = entry ∧ w.seq = seq
          ∧ w.replyWindow = setup.replyWindow ∧ w.gapLimit = setup.gapLimit ∧ w.deglitch = setup.deglitch
          ∧ w.void = false ∧ w.endCode = none
      let polls (t : State) (kind : ExchKind) (n : StationNo) : Prop :=
        begins t kind n none false 0 ∧ (t.part.engine b).txRead = none
      let sends (t : State) (kind : ExchKind) (e : TxEntry) (seq : Bool) : Prop :=
        begins t kind e.target (some e.buf) seq 64
        ∧ (t.part.engine b).txRead = some { buf := e.buf, ctl := ctlByte seq e.first e.last, got := [] }
      let sweeps := g.round % setup.sweepInterval = 0 ∨ g.pollList = []
      let absent (n : StationNo) : Prop := n ≠ 0 ∧ n ≠ 63 ∧ (s.part.station b n).state = .absent
      let listens (t : State) : Prop := (t.part.engine b).phase = .listen
        ∧ (t.part.engine b).listen = some setup.listenMs ∧ (t.part.engine b).spoke = true
        ∧ t.part.sup b = { u with gate := { isOpen := true, edges := 0, chars := [], complete := 0 } }
      (∀ y : VisitItem, g.state = .rounds → g.roundPart = .visits → g.visiting = some y → y.left = false →
        let next (n : StationNo) := (follower g.pollList n).orElse (fun _ => some n)
        (∀ (z : VisitItem) (r : List VisitItem), g.order = z :: r → z.left = false →
          let at_ (t : State) : Prop := (t.part.engine b).state = .rounds ∧ (t.part.engine b).order = r
            ∧ (t.part.engine b).visiting = some z ∧ (t.part.engine b).cursor = next y.station
          (∀ e, g.queue.find? (fun e => e.target = z.station) = some e → z.station ≠ 63 →
            ∃ t, engineOnly t ∧ at_ t ∧ sends t .send e (s.part.station b z.station).txSeq)
          ∧ ((∀ e ∈ g.queue, e.target ≠ z.station) →
            (∀ buf, g.reservation = some buf → ∃ t, engineOnly t ∧ at_ t ∧ polls t .poll z.station)
            ∧ (∀ buf rest, g.reservation = none → s.part.pool.free = buf :: rest →
              ∃ t, exec c s = .next t ∧ at_ t ∧ polls t .poll z.station
                ∧ (t.part.engine b).reservation = some buf ∧ t.part.pool.free = rest
                ∧ t.part.notices.latches = (if rest.length + 1 = s.part.setup.reserve
                    then s.part.notices.latches ||| 0x1000 else s.part.notices.latches))
            ∧ (∀ (z' : VisitItem) (r' : List VisitItem) (e : TxEntry), g.reservation = none → s.part.pool.free = [] →
              r = z' :: r' → z'.left = false → z'.station ≠ 63 →
              g.queue.find? (fun e => e.target = z'.station) = some e →
              ∃ t, engineOnly t ∧ sends t .send e (s.part.station b z'.station).txSeq
                ∧ (t.part.engine b).visiting = some z' ∧ (t.part.engine b).cursor = next z.station
                ∧ (t.part.engine b).pollSkipped = satInc 65535 g.pollSkipped)))
        ∧ (g.order = [] → sweeps →
          (∀ (n : StationNo) (buf : BufNo), g.reservation = some buf → g.sweepCursor ≤ 62 → absent n →
            (∀ m, absent m → (n.val + 61 - g.sweepCursor) % 62 ≤ (m.val + 61 - g.sweepCursor) % 62) →
            ∃ t, engineOnly t ∧ polls t .sweep n ∧ (t.part.engine b).sweepCursor = n.val
              ∧ (t.part.engine b).roundPart = .sweep)
          ∧ (setup.listenMs ≠ 0 → (∀ n, ¬ absent n) → ∃ t, exec c s = .next t ∧ listens t
              ∧ (t.part.engine b).pollSkipped = g.pollSkipped)
          ∧ (setup.listenMs ≠ 0 → (∃ n, absent n) → g.reservation = none → s.part.pool.free = [] →
            ∃ t, exec c s = .next t ∧ listens t ∧ (t.part.engine b).sweepCursor = g.sweepCursor
              ∧ (t.part.engine b).pollSkipped = satInc 65535 g.pollSkipped))
        ∧ (g.order = [] → ¬ sweeps → g.spoke = true →
          ∀ e, g.queue.find? (fun e => e.target = 63) = some e →
            ∃ t, exec c s = .next t ∧ sends t .broadcast e false ∧ (t.part.engine b).roundPart = .broadcast
              ∧ (t.part.engine b).round = (g.round + 1) % 65536))
      ∧ (g.state = .rounds → g.roundPart = .sweep → g.visiting = none →
        (setup.listenMs ≠ 0 → ∃ t, listens t ∧ exec c s = .next t ∧ t = s.withPart { s.part with
            engines := put s.part.engines b (t.part.engine b), sups := put s.part.sups b (t.part.sup b) })
        ∧ (setup.listenMs = 0 → g.spoke = true →
          ∃ t, exec c s = .next t ∧ (t.part.engine b).round = (g.round + 1) % 65536))
      ∧ (g.state = .initialSweep → g.visiting = none →
        (∀ (n : StationNo) (buf : BufNo), g.reservation = some buf → absent n → g.initNext ≤ n.val →
          (∀ m, absent m → g.initNext ≤ m.val → n.val ≤ m.val) →
          ∃ t, engineOnly t ∧ polls t .sweep n ∧ (t.part.engine b).state = .initialSweep
            ∧ (t.part.engine b).initNext = n.val + 1 ∧ (t.part.engine b).sweepCursor = g.sweepCursor
            ∧ (t.part.engine b).round = g.round)
        ∧ ((∀ m, absent m → m.val < g.initNext) →
          ∃ t, exec c s = .next t ∧ (t.part.engine b).state = .rounds ∧ (t.part.engine b).round = g.round)))

/-- The end of a listen slot closes the noise gate and judges it: an edge count above noise_limit is a NOISE
error with the count, a slot with a complete character a STRAY error with its characters. NOISE is handled first
and fills an empty capture, the STRAY after it being a further error; each is counted and scored. Where one of
them isolates the branch (IMMEDIATE, SCORE or TRIAL_FAILED by the test of its own handling, on the score before
any credit) the engine stops, its round does not end, and both weights stand without a credit; that the round
earns none is the model's reading of 11.1 (log 41). Otherwise the round ends as padding ends one, before they
are handled: the round counter advances and wraps; a round that was clean lowers the score by C, to 0 at least;
on trial a round is counted, and at trial_rounds the branch is IN_SERVICE with RESTORED (2) latched. Then the
score takes their weights, and the next round begins as not clean (log 41). After a slot with no error it begins
as clean. A premise has TW below TI, as the invariant of the scores keeps it (R133), and no stray run under way.
The end of a padding or of a slot that is not there has no effect (log 1). -/
def Obligations.ListenSlotsAndPaddingEndTheRound : Prop :=
  ∀ (s : State) (b : Branch), s.part.held = false →
    let g := s.part.engine b
    let u := s.part.sup b
    let w := s.part.switch b
    let set := s.part.branchSetup b
    let trials := set.trialRounds
    let c : Instr := .listenSlotEnd b
    let credit := if u.clean then u.score - set.c else u.score
    let counted (t : State) : Prop := (t.part.engine b).round = (g.round + 1) % 65536 ∧ t.mem = s.mem
      ∧ (g.strayRun = none → (w.state ≠ .onTrial → t.part.switch b = w)
        ∧ (w.state = .onTrial → (t.part.switch b).trial = w.trial + 1
          ∧ (w.trial + 1 < trials → (t.part.switch b).state = .onTrial)
          ∧ (trials ≤ w.trial + 1 → (t.part.switch b).state = .inService
              ∧ t.part.notices.latches.getLsbD 2 = true)))
    let credited (t : State) : Prop := counted t
      ∧ (g.strayRun = none → (t.part.sup b).clean = true ∧ (t.part.sup b).score = credit)
    let noise := decide (set.noiseLimit < u.gate.edges)
    let stray := decide (0 < u.gate.complete)
    let first := u.score + if noise then set.weights.get 5 else 0
    let weight := (if noise then set.weights.get 5 else 0) + if stray then set.weights.get 4 else 0
    let test (k score : Nat) : Option IsoReason :=
      if w.state ≠ .inService ∧ w.state ≠ .onTrial then none
      else if set.immediateMask.getLsbD k then some .immediate
      else if w.state = .inService ∧ set.ti ≤ score then some .score
      else if w.state = .onTrial ∧ set.tw ≤ score then some .trialFailed
      else none
    let request := if noise ∧ (test 5 (min 1023 first)).isSome then test 5 (min 1023 first)
      else if stray then test 4 (min 1023 (u.score + weight)) else none
    let handled (t : State) : Prop := (t.part.sup b).clean = false ∧ t.mem = s.mem
      ∧ (t.part.sup b).kinds.get 5 = (if noise then satInc 65535 (u.kinds.get 5) else u.kinds.get 5)
      ∧ (t.part.sup b).kinds.get 4 = (if stray then satInc 65535 (u.kinds.get 4) else u.kinds.get 4)
      ∧ (set.captureMask.getLsbD 5 = true → set.captureMask.getLsbD 4 = true → u.capture.valid = false →
        (t.part.sup b).capture = if noise then
            { valid := true, kind := .noise, station := 0, stamp := g.round, chars := [], detail := u.gate.edges
              further := if stray then 1 else 0 }
          else
            { valid := true, kind := .stray, station := 0, stamp := g.round, chars := u.gate.chars.take 8
              detail := 0, further := 0 })
    (g.phase = .listen → g.state = .rounds →
      (noise = false → stray = false → ∃ t, exec c s = .next t ∧ credited t)
      ∧ (noise = true ∨ stray = true → g.strayRun = none →
        (∀ r : IsoReason, request = some r →
          ∃ t, exec c s = .next t ∧ handled t ∧ (t.part.sup b).gate.isOpen = false
            ∧ (t.part.sup b).score = min 1023 (u.score + weight)
            ∧ (t.part.switch b).reason = some r ∧ (t.part.engine b).state = .stopped
            ∧ (t.part.engine b).round = g.round)
        ∧ (request = none → set.tw < set.ti →
          ∃ t, exec c s = .next t ∧ handled t ∧ counted t
            ∧ (t.part.sup b).score = min 1023 (credit + weight))))
    ∧ (g.phase = .padding → ∃ t, exec (.paddingEnd b) s = .next t ∧ credited t)
    ∧ (g.phase ≠ .padding → exec (.paddingEnd b) s = .next s)
    ∧ (g.phase ≠ .listen → exec c s = .next s)

/-! ## Line supervision -/

/-- What handling one error does to its supervisor: the counter of its kind advances to at most 65535, the score
takes the kind's weight to at most 1023, the clean-round flag clears; the first error of a captured kind fills
an empty capture, a later one advances only its further-errors count, and one of another kind leaves the
capture. The isolation test after an error: an immediate kind asks with IMMEDIATE in IN_SERVICE and ON_TRIAL;
otherwise TI decides in IN_SERVICE with SCORE and TW in ON_TRIAL with TRIAL_FAILED; in any other state, and
below the threshold, nothing is asked. Each request has the destination ISOLATED. At each expiry of the decay
timer the score becomes the greater of 0 and S - D, the warn test is made with the thresholds in force, and the
timer starts again with the decay_period in force. No isolation is asked for: the supervisor and the WARN latch
(4) are all that can change. -/
def Obligations.ScoresRiseAndDecay : Prop :=
  (∀ (p : Part) (b : Branch) (r : ErrorReport),
     let u := p.sup b
     let v := (Part.scoreError b r p).sup b
     let captured := (p.branchSetup b).captureMask.getLsbD r.kind.number.val
     (∀ k : Fin 8, v.kinds.get k = (if k = r.kind.number then satInc 65535 (u.kinds.get k) else u.kinds.get k))
     ∧ v.score = min 1023 (u.score + (p.branchSetup b).weights.get r.kind.number)
     ∧ v.clean = false ∧ v.decay = u.decay ∧ v.gate = u.gate
     ∧ (captured = true → u.capture.valid = false →
         v.capture = { valid := true, kind := r.kind, station := r.station, stamp := r.stamp
                       chars := r.chars.take 8, detail := r.detail, further := 0 })
     ∧ (captured = true → u.capture.valid = true →
         v.capture = { u.capture with
           further := if u.capture.further < 255 then u.capture.further + 1 else u.capture.further })
     ∧ (captured = false → v.capture = u.capture)
     ∧ ∀ c : Branch, c ≠ b → (Part.scoreError b r p).sup c = p.sup c)
  ∧ (∀ (p : Part) (b : Branch) (k : ErrorKind),
       let st := (p.switch b).state
       let x := p.branchSetup b
       let score := (p.sup b).score
       let immediate := x.immediateMask.getLsbD k.number.val
       (st = .inService ∨ st = .onTrial → immediate = true →
         Part.isolationTest b k p = Part.requestIsolation b .immediate .isolated p)
       ∧ (st = .inService → immediate = false →
         Part.isolationTest b k p = if x.ti ≤ score then Part.requestIsolation b .score .isolated p else p)
       ∧ (st = .onTrial → immediate = false →
         Part.isolationTest b k p = if x.tw ≤ score then Part.requestIsolation b .trialFailed .isolated p else p)
       ∧ (st ≠ .inService → st ≠ .onTrial → Part.isolationTest b k p = p))
  ∧ (∀ (s : State) (b : Branch), s.part.held = false →
       let u := s.part.sup b
       let x := s.part.branchSetup b
       let score := u.score - x.d
       let rises := u.warn = false ∧ x.tw ≤ score
       ∃ t, exec (.decayTimerExpiry b) s = .next t
         ∧ t = s.withPart { s.part with
             sups := put s.part.sups b { u with score := score, warn := (t.part.sup b).warn, decay := x.decayPeriod }
             notices := { s.part.notices with latches := t.part.notices.latches } }
         ∧ (rises → (t.part.sup b).warn = true ∧ t.part.notices.latches = s.part.notices.latches ||| 0x0010)
         ∧ (u.warn = true → score ≤ x.tc →
             (t.part.sup b).warn = false ∧ t.part.notices.latches = s.part.notices.latches)
         ∧ (¬ rises → ¬ (u.warn = true ∧ score ≤ x.tc) →
             (t.part.sup b).warn = u.warn ∧ t.part.notices.latches = s.part.notices.latches))

/-- A pass begins when no relay is moving: the sequencer enters BUSY and reaches the first branch that is not at
PROBE. A conversion gives branch b its code and its class by the limits in force, and the sequencer reaches the
next branch that is neither at PROBE nor moving; after the last the pass ends in IDLE, or in PENDING while
checks are held. A running branch whose loop leaves TERMINATED, or is found not TERMINATED at its first
conversion, is a LOOP_CHANGE. A conversion answers a restore check held for its branch: an ISOLATED branch whose
check is outstanding begins its restore where the class is TERMINATED and the verdict not ECHO, and otherwise
starts its restore timer again with the restore_delay in force. A pass start outside PENDING has no effect (the
model's choice, log 1). -/
def Obligations.SensePassConvertsTheBranches : Prop :=
  ∀ s : State, s.part.held = false →
    let q := s.part.sense
    let ended : SenseState := if (∃ c : Branch, q.checks.get c = true) then .pending else .idle
    let skipped (c : Branch) : Prop :=
      (s.part.switch c).relay = .at .probe ∨ ∃ x ms, (s.part.switch c).relay = .moving x ms
    (q.state = .pending → (∀ b : Branch, ∃ x, (s.part.switch b).relay = .at x) →
      (∀ c : Branch, ¬ skipped c → (∀ d : Branch, d < c → skipped d) →
        exec .sensePassStart s = .next (s.withPart { s.part with sense :=
          { q with state := .busy, current := some c, converted := Vector.replicate 4 false } }))
      ∧ ((∀ c : Branch, skipped c) →
        exec .sensePassStart s = .next (s.withPart { s.part with sense :=
          { q with state := ended, current := none, converted := Vector.replicate 4 false } })))
    ∧ (q.state = .pending → (∃ b : Branch, ∃ x ms, (s.part.switch b).relay = .moving x ms) →
      exec .sensePassStart s = .next s)
    ∧ (q.state ≠ .pending → exec .sensePassStart s = .next s)
    ∧ ∀ (b : Branch) (code : Byte), q.state = .busy → q.current = some b →
      let cls : LoopClass := if code.toNat < s.part.setup.shortLimit then .shorted
        else if s.part.setup.openLimit < code.toNat then .open else .terminated
      ((s.part.switch b).state = .disabled → q.checks.get b = false →
        ∃ t, exec (.senseConversionComplete code) s = .next t
          ∧ t = s.withPart { s.part with sense := t.part.sense }
          ∧ t.part.sense.codes = put q.codes b code ∧ t.part.sense.classes = put q.classes b cls
          ∧ t.part.sense.missed = q.missed ∧ t.part.sense.checks = q.checks
          ∧ ((∀ c : Branch, b < c → skipped c) → t.part.sense.current = none ∧ t.part.sense.state = ended)
          ∧ (∀ c : Branch, b < c → ¬ skipped c → (∀ d : Branch, b < d → d < c → skipped d) →
              t.part.sense.current = some c ∧ t.part.sense.state = .busy))
      ∧ ((s.part.switch b).state = .isolated → (s.part.switch b).check = true → q.checks.get b = true →
        ∃ t, exec (.senseConversionComplete code) s = .next t
          ∧ t.part.sense.codes = put q.codes b code ∧ t.part.sense.classes = put q.classes b cls
          ∧ t.part.sense.checks = put q.checks b false ∧ (t.part.switch b).check = false
          ∧ (cls = .terminated → (s.part.switch b).verdict ≠ .echo → (s.part.switch b).rflt = false →
              (t.part.switch b).state = .closing ∧ (t.part.switch b).rline = true
              ∧ (t.part.switch b).relay = .moving .line (s.part.branchSetup b).settleMs
              ∧ (t.part.switch b).restore = none)
          ∧ (cls ≠ .terminated ∨ (s.part.switch b).verdict = .echo →
              (t.part.switch b).state = .isolated
              ∧ (t.part.switch b).restore = (if (s.part.branchSetup b).restoreDelay = 0 then none
                  else some (s.part.branchSetup b).restoreDelay)))
      ∧ ((s.part.switch b).state = .inService → cls ≠ .terminated →
          (q.classes.get b = .terminated ∨ q.firstRun.get b = true) → q.checks.get b = false →
          (s.part.engine b).phase ≠ .listen → (s.part.engine b).strayRun = none →
        ∃ t, exec (.senseConversionComplete code) s = .next t
          ∧ t.part.sense.codes = put q.codes b code ∧ t.part.sense.classes = put q.classes b cls
          ∧ t.part.sense.firstRun.get b = false
          ∧ (t.part.sup b).kinds.get 6 = satInc 65535 ((s.part.sup b).kinds.get 6)
          ∧ ((s.part.branchSetup b).immediateMask.getLsbD 6 = true →
              (t.part.switch b).reason = some .immediate ∧ (t.part.switch b).dest = some .isolated))

/-! ## Branch switches, the button and the probe unit -/

/-- The end of a relay movement. At LINE a CLOSING switch enters IN_SERVICE with score 0 and no warn flag, or
after a restore ON_TRIAL with trial count 0 and score TC, and its engine begins the initial sweep. Under a
disable a CLOSING switch opens again instead, its engine not started. At OPEN an isolation settles by its
destination; with the destination DISABLED the branch is DISABLED, its score, counts, verdict, timer, capture
and PRESENT stations gone, and a pending enable begins at once. At PROBE the first pulse of the branch served
rises and its window opens. A relay at rest is not moved (log 1), and a movement to LINE does not end while a
frame that the branch's engine offered before an abort is undecided (the model's choice, log 54). -/
def Obligations.RelayMovementsEnd : Prop :=
  ∀ (s : State) (b : Branch), s.part.held = false →
    let w := s.part.switch b
    let x := s.part.branchSetup b
    let decided := ∀ o ∈ s.part.router.offers, o.branch ≠ b
    (∀ r, w.relay = .at r → exec (.relaySettle b) s = .next s)
    ∧ (∀ ms, w.relay = .moving .line ms → ¬ decided → exec (.relaySettle b) s = .next s)
    ∧ (∀ ms, w.relay = .moving .line ms → decided → w.state = .closing → w.dest ≠ some .disabled → w.closingFor = .enable →
        (s.part.engine b).state = .stopped → (s.part.engine b).strayRun = none →
        (s.part.station b 1).state = .absent → s.part.pool.free ≠ [] →
      ∃ t, exec (.relaySettle b) s = .next t
        ∧ (t.part.switch b).state = .inService ∧ (t.part.switch b).relay = .at .line
        ∧ (t.part.sup b).score = 0 ∧ (t.part.sup b).warn = false ∧ t.part.sense.firstRun.get b = true
        ∧ (t.part.engine b).state = .initialSweep ∧ (t.part.engine b).phase = .transmit
        ∧ (t.part.engine b).sent = [(1, true)])
    ∧ (∀ ms, w.relay = .moving .line ms → decided → w.state = .closing → w.dest ≠ some .disabled → w.closingFor = .restore →
        (s.part.engine b).state = .stopped → (s.part.engine b).strayRun = none →
        (s.part.station b 1).state = .absent → s.part.pool.free ≠ [] → x.tc < x.tw →
      ∃ t, exec (.relaySettle b) s = .next t
        ∧ (t.part.switch b).state = .onTrial ∧ (t.part.switch b).relay = .at .line
        ∧ (t.part.switch b).trial = 0 ∧ (t.part.sup b).score = x.tc ∧ (t.part.sup b).warn = false
        ∧ (t.part.engine b).state = .initialSweep)
    ∧ (∀ ms, w.relay = .moving .open ms → w.state = .opening → x.autoProbe = false →
        (w.dest = some .isolated → w.isolations < 7 → w.isolations + 1 < x.restoreLimit →
          ∃ t, exec (.relaySettle b) s = .next t
            ∧ (t.part.switch b).state = .isolated ∧ (t.part.switch b).relay = .at .open
            ∧ (t.part.switch b).dest = none ∧ (t.part.switch b).isolations = w.isolations + 1
            ∧ (t.part.switch b).restore = (if x.restoreDelay = 0 then none else some x.restoreDelay)
            ∧ t.part.notices.latches = s.part.notices.latches ||| 0x0002)
        ∧ (w.dest = some .isolated → x.restoreLimit ≤ satInc 7 w.isolations →
          ∃ t, exec (.relaySettle b) s = .next t
            ∧ (t.part.switch b).state = .lockedOut ∧ (t.part.switch b).dest = none
            ∧ (t.part.switch b).isolations = satInc 7 w.isolations
            ∧ t.part.notices.latches = s.part.notices.latches ||| 0x0002)
        ∧ (w.dest = some .lockedOut →
          ∃ t, exec (.relaySettle b) s = .next t
            ∧ (t.part.switch b).state = .lockedOut ∧ (t.part.switch b).dest = none
            ∧ (t.part.switch b).isolations = w.isolations
            ∧ t.part.notices.latches = s.part.notices.latches ||| 0x0002))
    ∧ (∀ ms, w.relay = .moving .open ms → w.state = .opening → x.autoProbe = true → w.dest = some .lockedOut →
      ∃ t, exec (.relaySettle b) s = .next t
        ∧ (t.part.switch b).state = .probing ∧ (t.part.switch b).back = some .lockedOut
        ∧ (t.part.switch b).restore = none ∧ t.part.probe.queue = s.part.probe.queue ++ [b])
    ∧ (∀ ms r, w.relay = .moving .probe ms → s.part.probe.state ≠ .idle → s.part.probe.queue = b :: r →
      exec (.relaySettle b) s = .next (s.withPart { s.part with
        switches := put s.part.switches b { w with relay := .at .probe }
        probe := { s.part.probe with state := .pulsing, pulses := s.part.probe.pulses + 1, ppulse := true
                                     window := some [], lastTick := none } }))
    ∧ (∀ ms, w.relay = .moving .line ms → decided → w.state = .closing → w.dest = some .disabled →
        (s.part.engine b).state = .stopped →
      ∃ t, exec (.relaySettle b) s = .next t
        ∧ (t.part.switch b).state = .opening ∧ (t.part.switch b).dest = some .disabled
        ∧ (t.part.switch b).relay = .moving .open x.settleMs ∧ (t.part.switch b).rline = false
        ∧ (t.part.engine b).state = .stopped)
    ∧ ∀ ms, w.relay = .moving .open ms → w.state = .opening → w.dest = some .disabled →
        w.enablePending = false ∨ w.rflt = false →
      ∃ t, exec (.relaySettle b) s = .next t
        ∧ (t.part.switch b).dest = none ∧ (t.part.switch b).isolations = 0 ∧ (t.part.switch b).verdict = .none
        ∧ (t.part.switch b).restore = none ∧ (t.part.switch b).check = false
        ∧ (t.part.switch b).enablePending = false
        ∧ (t.part.sup b).score = 0 ∧ (t.part.sup b).warn = false ∧ (t.part.sup b).capture.valid = false
        ∧ (∀ n : StationNo, n ≠ 0 → n ≠ 63 → (t.part.station b n).state ≠ .present)
        ∧ (w.enablePending = false → (t.part.switch b).state = .disabled ∧ (t.part.switch b).relay = .at .open)
        ∧ (w.enablePending = true → (t.part.switch b).state = .closing
            ∧ (t.part.switch b).rline = true ∧ (t.part.switch b).relay = .moving .line x.settleMs)

/-- A fault input that goes low while a drive is asserted locks the branch out at once, outside a disable: both
drives released, the relay OPEN with no settle, the engine stopped with nothing in progress, its reservation
returned or, where a verdict on it is awaited, held until then (log 54), the queue flushed, the reason
RELAY_FAULT, the verdict NONE, no destination, RELAY_FAULT (0) and ISOLATED (1) latched and a RELAY_FAULT error
counted. With no drive asserted the level alone is followed. That the command carries a level, which is stored
and followed, is the model's choice (log 14). A fault during a disable is not shown. -/
def Obligations.RelayFaultsLockTheBranchOut : Prop :=
  ∀ (s : State) (b : Branch),
    let w := s.part.switch b
    (w.rline = true ∨ w.rprobe = true → w.dest ≠ some .disabled →
      ∃ t, exec (.relayFault b true) s = .next t
        ∧ (t.part.switch b).state = .lockedOut ∧ (t.part.switch b).dest = none
        ∧ (t.part.switch b).rline = false ∧ (t.part.switch b).rprobe = false
        ∧ (t.part.switch b).relay = .at .open ∧ (t.part.switch b).reason = some .relayFault
        ∧ (t.part.switch b).verdict = .none ∧ (t.part.switch b).restore = none
        ∧ (t.part.switch b).isolations = w.isolations
        ∧ (t.part.engine b).state = .stopped
        ∧ ((s.part.engine b).state ≠ .stopped →
            (t.part.engine b).exch = none ∧ (t.part.engine b).queue = []
            ∧ (t.part.engine b).reservation = if (s.part.engine b).phase = .verdict then
                (s.part.engine b).reservation else none)
        ∧ t.part.notices.latches &&& 0x0003 = 0x0003
        ∧ (t.part.sup b).kinds.get 7 = satInc 65535 ((s.part.sup b).kinds.get 7) ∧ t.mem = s.mem)
    ∧ (w.rline = false → w.rprobe = false →
      exec (.relayFault b true) s =
        .next (s.withPart { s.part with switches := put s.part.switches b { w with rflt := true } }))
    ∧ exec (.relayFault b false) s =
        .next (s.withPart { s.part with switches := put s.part.switches b { w with rflt := false } })

/-- The restore timer's expiry in ISOLATED makes the pre-check: a check of the branch is outstanding and an IDLE
sequencer enters PENDING; a BUSY one that has converted the branch in its pass answers at once, with the restore
or a restart of the timer, and one that has not holds the check. With restore_delay 0 the timer only stops. The
flash timer turns the lamp of a flashing mode over and does nothing in the steady modes. The expiry of a stopped
timer or outside ISOLATED, and a toggle in a steady mode, have no effect (the model's choice, log 1). -/
def Obligations.SwitchTimersAct : Prop :=
  (∀ (s : State) (b : Branch), s.part.held = false →
     let w := s.part.switch b
     let q := s.part.sense
     (w.restore.isSome = true → w.state = .isolated →
       ((s.part.branchSetup b).restoreDelay = 0 →
         exec (.restoreTimerExpiry b) s = .next (s.withPart { s.part with
           switches := put s.part.switches b { w with restore := none } }))
       ∧ ((s.part.branchSetup b).restoreDelay ≠ 0 → q.state = .idle ∨ q.state = .pending →
         exec (.restoreTimerExpiry b) s = .next (s.withPart { s.part with
           switches := put s.part.switches b { w with restore := none, check := true }
           sense := { q with checks := put q.checks b true, state := .pending } }))
       ∧ ((s.part.branchSetup b).restoreDelay ≠ 0 → q.state = .busy → q.converted.get b = false →
         exec (.restoreTimerExpiry b) s = .next (s.withPart { s.part with
           switches := put s.part.switches b { w with restore := none, check := true }
           sense := { q with checks := put q.checks b true } }))
       ∧ ((s.part.branchSetup b).restoreDelay ≠ 0 → q.state = .busy → q.converted.get b = true →
         (q.classes.get b ≠ .terminated ∨ w.verdict = .echo →
           exec (.restoreTimerExpiry b) s = .next (s.withPart { s.part with
             switches := put s.part.switches b
               { w with restore := some (s.part.branchSetup b).restoreDelay, check := false }
             sense := { q with checks := put q.checks b false } }))
         ∧ (q.classes.get b = .terminated → w.verdict ≠ .echo → w.rflt = false →
           ∃ t, exec (.restoreTimerExpiry b) s = .next t
             ∧ (t.part.switch b).state = .closing ∧ (t.part.switch b).rline = true
             ∧ (t.part.switch b).relay = .moving .line (s.part.branchSetup b).settleMs
             ∧ (t.part.switch b).restore = none ∧ (t.part.switch b).check = false
             ∧ t.part.sense.checks.get b = false)))
     ∧ (w.restore = none ∨ w.state ≠ .isolated → exec (.restoreTimerExpiry b) s = .next s))
  ∧ (∀ (s : State) (b : Branch), s.part.held = false →
       let w := s.part.switch b
       (w.state = .inService ∨ w.state = .disabled → exec (.indicatorFlashToggle b) s = .next s)
       ∧ (w.state ≠ .inService → w.state ≠ .disabled →
         exec (.indicatorFlashToggle b) s = .next (s.withPart { s.part with
           switches := put s.part.switches b { w with lamp := !w.lamp } })))

/-- A press of the armed button sets BUTTON (14) once and acts on each switch by its state: a branch DISABLED or
in a sequence is not touched, an ISOLATED or LOCKED_OUT one is restored, a running one isolated to LOCKED_OUT
with reason BUTTON. A further press is taken only after a release, which re-arms the button. -/
def Obligations.ButtonActsOnEverySwitch : Prop :=
  (∀ s : State, s.part.held = false → s.part.button = true →
    ∃ t, exec .buttonPress s = .next t ∧ t.part.button = false ∧ t.mem = s.mem
      ∧ t.part.notices.latches.getLsbD 14 = true
      ∧ ∀ b : Branch,
        ((s.part.switch b).state = .disabled ∨ (s.part.switch b).state = .closing
          ∨ (s.part.switch b).state = .draining ∨ (s.part.switch b).state = .opening
          ∨ (s.part.switch b).state = .probing → t.part.switch b = s.part.switch b)
        ∧ ((s.part.switch b).state = .isolated ∨ (s.part.switch b).state = .lockedOut →
            (s.part.switch b).rflt = false →
            (t.part.switch b).state = .closing ∧ (t.part.switch b).isolations = 0
              ∧ (t.part.switch b).rline = true)
        ∧ ((s.part.switch b).state = .inService ∨ (s.part.switch b).state = .onTrial →
            (t.part.switch b).reason = some .button ∧ (t.part.switch b).dest = some .lockedOut
              ∧ ((t.part.switch b).state = .draining ∨ (t.part.switch b).state = .opening)))
  ∧ (∀ s : State, s.part.held = false → s.part.button = false → exec .buttonPress s = .next s)
  ∧ ∀ s : State, exec .attentionButtonRelease s = .next (s.withPart { s.part with button := true })

/-- The idle unit takes the branch at the head of its queue: the values of the probe are taken from the setup in
force and RPROBEn is asserted, the relay moving to PROBE for settle_ms. Each later pulse rises while fewer than
P have been sent and no window is open, opening a window; the pulse ends after its 10 ticks; a window's end
closes its list, and after the last the relay goes back to OPEN. A crossing in an open window: none before
blank_ticks; the first four are recorded in time order with their polarity, positive where both comparators
rise; a fifth sets the overflow flag and is not recorded. A start of a busy unit or with an empty queue has no
effect (the model's choice, log 1). A start with the fault input low, the first pulse at the arrival of the
relay and a second crossing at one tick are not shown. -/
def Obligations.ProbesRunTheirCourse : Prop :=
  (∀ s : State, s.part.held = false →
     let u := s.part.probe
     (∀ (b : Branch) (r : List Branch), u.state = .idle → u.queue = b :: r → (s.part.switch b).rflt = false →
       let w : Switch := { s.part.switch b with
         rline := false, rprobe := true, relay := .moving .probe (s.part.branchSetup b).settleMs }
       ∃ t, exec .probeStart s = .next t
         ∧ t = s.withPart { s.part with probe := t.part.probe, switches := put s.part.switches b w }
         ∧ t.part.probe.state = .arming ∧ t.part.probe.queue = u.queue ∧ t.part.probe.lists = []
         ∧ t.part.probe.overflow = false ∧ t.part.probe.pulses = 0
         ∧ t.part.probe.values.count = (s.part.branchSetup b).probeCount
         ∧ t.part.probe.values.blank = (s.part.branchSetup b).blankTicks
         ∧ t.part.probe.values.zero = (s.part.branchSetup b).zeroOffset
         ∧ t.part.probe.values.k = (s.part.branchSetup b).k
         ∧ t.part.probe.values.expected = (s.part.branchSetup b).expectedLength
         ∧ t.part.probe.values.tolerance = (s.part.branchSetup b).tolerance)
     ∧ (u.state ≠ .idle ∨ u.queue = [] → exec .probeStart s = .next s)
     ∧ (u.state = .pulsing → u.window = none → u.pulses < u.values.count →
       exec .probePulse s = .next (s.withPart { s.part with probe :=
         { u with pulses := u.pulses + 1, ppulse := true, window := some [], lastTick := none } }))
     ∧ exec .probePulseEnd s = .next (s.withPart { s.part with probe := { u with ppulse := false } })
     ∧ ∀ (l : List Echo) (b : Branch) (r : List Branch), u.window = some l → u.queue = b :: r → u.ppulse = false →
       (u.pulses < u.values.count →
         exec .captureWindowEnd s = .next (s.withPart { s.part with probe :=
           { u with lists := u.lists ++ [l], window := none, lastTick := none } }))
       ∧ (u.values.count ≤ u.pulses →
         let w : Switch := { s.part.switch b with
           rline := false, rprobe := false, relay := .moving RelayRest.open (s.part.branchSetup b).settleMs }
         exec .captureWindowEnd s = .next (s.withPart { s.part with
           probe := { u with lists := u.lists ++ [l], window := none, lastTick := none, state := .releasing }
           switches := put s.part.switches b w })))
  ∧ (∀ (s : State) (tick : BitVec 12) (rise : EchoRise) (l : List Echo), s.part.held = false →
       let u := s.part.probe
       let c : Instr := .echoCrossing tick rise
       (u.window = none → exec c s = .next s)
       ∧ (u.window = some l → tick.toNat < u.values.blank → exec c s = .next s)
       ∧ (u.window = some l → u.values.blank ≤ tick.toNat → (∀ x, u.lastTick = some x → x < tick.toNat) →
         (l.length < 4 → exec c s = .next (s.withPart { s.part with probe := { u with
           window := some (l ++ [{ positive := decide (rise ≠ .negative), tick := tick.toNat }])
           lastTick := some tick.toNat } }))
         ∧ (4 ≤ l.length → exec c s = .next (s.withPart { s.part with probe := { u with
           overflow := true, lastTick := some tick.toNat } }))))

/-- The distance of a slot in decimetres: the averaged tick less the zero offset, or 0 where it is less, times
K, plus 8, divided by 16. For K up to 2047 and ticks up to 4095 it is at most 523,904, which is reached; a tick
of 2 with an offset of 3 gives 0. The record of a probe holds that distance for each slot of the echo list. -/
def Obligations.DistanceOfAnEcho : Prop :=
  (∀ k z tavg : Nat,
    (z ≤ tavg → echoDistance k z tavg = ((tavg - z) * k + 8) / 16)
    ∧ (tavg < z → echoDistance k z tavg = 0)
    ∧ (k ≤ 2047 → tavg ≤ 4095 → echoDistance k z tavg ≤ 523904))
  ∧ echoDistance 2047 0 4095 = 523904 ∧ (∀ k : Nat, k ≤ 2047 → echoDistance k 3 2 = 0)
  ∧ ∀ (u : ProbeUnit) (byHost : Bool) (round : Nat),
    (probeResult u byHost round).echoes
      = (echoList u.lists).map fun e => (e, echoDistance u.values.k u.values.zero e.tick)

/-- The relay back at OPEN after a probe: the record is written with its classification and the verdict taken
from it, PROBE_DONE (5) carried by the write; the switch returns to the state it came from and the unit is idle.
Shown for a stable result with no echo, for one echo of a single probe, positive or negative (SHORT_AT), and for
an unstable result. A result is STABLE where every list of a pulse has as many echoes as the first, with the
same polarity in each slot and ticks within 2 of the first's; then each slot has the average of its ticks,
rounded half up; otherwise the echoes are the first list's and the verdict is ECHO. -/
def Obligations.ProbeEndsWithItsRecord : Prop :=
  (∀ (first : List Echo) (rest : List (List Echo)),
     let lists := first :: rest
     let tick (l : List Echo) (i : Nat) : Nat := ((l[i]?).map fun e => e.tick).getD 0
     let positive (l : List Echo) (i : Nat) : Option Bool := (l[i]?).map fun e => e.positive
     let agree := ∀ l ∈ rest, l.length = first.length ∧ ∀ i : Nat, i < first.length →
       positive l i = positive first i ∧ tick l i ≤ tick first i + 2 ∧ tick first i ≤ tick l i + 2
     (probeStable lists = true ↔ agree)
     ∧ (agree → (echoList lists).length = first.length ∧ ∀ (i : Nat) (e : Echo), first[i]? = some e →
         let average := ((lists.map fun l => tick l i).sum + lists.length / 2) / lists.length
         (echoList lists)[i]? = some { positive := e.positive, tick := average })
     ∧ (¬ agree → echoList lists = first))
  ∧ ∀ (s : State) (b : Branch) (ms : Nat) (r : List Branch), s.part.held = false →
    let w := s.part.switch b
    let u := s.part.probe
    let x := s.part.branchSetup b
    w.relay = .moving .open ms → w.state = .probing → w.dest ≠ some .disabled → u.queue = b :: r →
    let settled (t : State) : Prop :=
      exec (.relaySettle b) s = .next t ∧ t.part.probe.state = .idle ∧ t.part.probe.queue = r
        ∧ (t.part.switch b).relay = .at .open ∧ (t.part.switch b).back = none
        ∧ (w.back = some .lockedOut → (t.part.switch b).state = .lockedOut)
        ∧ (w.back = some .isolated → (t.part.switch b).state = .isolated
            ∧ (t.part.switch b).restore = if x.restoreDelay = 0 then none else some x.restoreDelay)
        ∧ t.part.writer.queue = enqueueWrite (recordWrite (.probe b) 0x0020) s.part.writer.queue
        ∧ t.mem = s.mem
    ((∀ l ∈ u.lists, l = []) → ∃ t, settled t ∧ (t.part.switch b).verdict = .clear
      ∧ (t.part.records.get b).valid = true ∧ (t.part.records.get b).cls = .noEcho
      ∧ (t.part.records.get b).stable = true ∧ (t.part.records.get b).echoes = []
      ∧ (t.part.records.get b).round = (s.part.engine b).round)
    ∧ (∀ (tick : Nat), u.lists = [[{ positive := false, tick := tick }]] →
      ∃ t, settled t ∧ (t.part.switch b).verdict = .echo ∧ (t.part.records.get b).valid = true
        ∧ (t.part.records.get b).cls = .shortAt ∧ (t.part.records.get b).stable = true
        ∧ (t.part.records.get b).distance = echoDistance u.values.k u.values.zero tick)
    ∧ (∀ (first : List Echo) (rest : List (List Echo)), u.lists = first :: rest → probeStable u.lists = false →
      ∃ t, settled t ∧ (t.part.switch b).verdict = .echo ∧ (t.part.records.get b).valid = true
        ∧ (t.part.records.get b).stable = false
        ∧ (t.part.records.get b).echoes = first.map fun e => (e, echoDistance u.values.k u.values.zero e.tick))
    ∧ ∀ tick : Nat, u.lists = [[{ positive := true, tick := tick }]] →
      let d := echoDistance u.values.k u.values.zero tick
      ∃ t, settled t ∧ (t.part.switch b).verdict = .echo ∧ (t.part.records.get b).valid = true
        ∧ (t.part.records.get b).distance = d
        ∧ (d + 10 * u.values.tolerance < 10 * u.values.expected → (t.part.records.get b).cls = .openAt)
        ∧ (10 * u.values.expected ≤ d + 10 * u.values.tolerance →
            d ≤ 10 * u.values.expected + 10 * u.values.tolerance →
            (t.part.records.get b).cls = .endUnterminated)
        ∧ (10 * u.values.expected + 10 * u.values.tolerance < d → (t.part.records.get b).cls = .long)

/-! ## The printer ports -/

/-- The port state follows the situation in the rule's order, whatever the port was doing. A condition takes its
new level in every state of the port, the other two keeping theirs; at a DISABLED port nothing else changes. A
condition that brings an enabled port to OFFLINE, PAPER_OUT or FAULT, from running or from another trouble
state: PRINTER (7) is latched, a byte in handshake is given up with its acknowledge owed, the redirect timer
runs on from another trouble state and otherwise starts unless redirect_s is 0, and the current job is HELD with
the reason that names the state and its bytes printed unchanged. When a change leaves no condition at a port
that is not stalled, the port with its job is BUSY again, the job PRINTING, the stall timer started, the
redirect timer cancelled and the redirected flag cleared; a port in trouble with no job and an empty queue is
IDLE again. -/
def Obligations.ConditionsHoldAndResumeTheJob : Prop :=
  (∀ (t : PrinterPort) (enabled : Bool),
     (enabled = false → t.decide enabled = .disabled)
     ∧ (enabled = true → t.fault = true → t.decide enabled = .fault)
     ∧ (enabled = true → t.fault = false → t.paperOut = true → t.decide enabled = .paperOut)
     ∧ (enabled = true → t.fault = false → t.paperOut = false → t.deselected = true →
         t.decide enabled = .offline)
     ∧ (enabled = true → t.fault = false → t.paperOut = false → t.deselected = false →
       (t.stalled = true → t.decide enabled = .stalled)
       ∧ (t.stalled = false → t.job.isSome = true → t.decide enabled = .busy)
       ∧ (t.stalled = false → t.job = none → t.decide enabled = .idle)))
  ∧ (∀ (s : State) (k : Port) (c : PrinterCondition) (on : Bool),
       ∃ u, exec (.printerConditionChange k c on) s = .next u
         ∧ (u.part.port k).deselected = (if c = .deselected then on else (s.part.port k).deselected)
         ∧ (u.part.port k).paperOut = (if c = .paperOut then on else (s.part.port k).paperOut)
         ∧ (u.part.port k).fault = (if c = .fault then on else (s.part.port k).fault))
  ∧ ((∀ (s : State) (k : Port) (on : Bool), (s.part.port k).state = .disabled →
       let t := s.part.port k
       exec (.printerConditionChange k .deselected on) s = .next (s.withPart { s.part with
           ports := put s.part.ports k { t with deselected := on } })
       ∧ exec (.printerConditionChange k .paperOut on) s = .next (s.withPart { s.part with
           ports := put s.part.ports k { t with paperOut := on } })
       ∧ exec (.printerConditionChange k .fault on) s = .next (s.withPart { s.part with
           ports := put s.part.ports k { t with fault := on } }))
     ∧ ∀ (s : State) (k : Port) (c : PrinterCondition) (on : Bool),
       let t := s.part.port k
       let set := s.part.printerSetup k
       let t' : PrinterPort := { t with
         deselected := if c = .deselected then on else t.deselected
         paperOut := if c = .paperOut then on else t.paperOut
         fault := if c = .fault then on else t.fault }
       let trouble : Bool := t.state == .stalled || t.state == .offline || t.state == .paperOut || t.state == .fault
       let enters (st : PortState) (u : State) : Prop :=
         (u.part.port k).state = st ∧ (u.part.port k).job = t.job ∧ (u.part.port k).handshake = none
         ∧ (u.part.port k).abandoned = (t.abandoned || t.handshake.isSome)
         ∧ (u.part.port k).overdue = (t.overdue && t.handshake.isNone)
         ∧ (u.part.port k).redirect =
             (if trouble then t.redirect else if set.redirectS = 0 then none else some set.redirectS)
         ∧ u.part.notices.latches = s.part.notices.latches ||| 0x0080 ∧ u.mem = s.mem
       set.enable = true → t.state ≠ .disabled →
       (∀ (st : PortState) (r : HoldReason),
           st = .offline ∧ r = .offline ∨ st = .paperOut ∧ r = .paperOut ∨ st = .fault ∧ r = .fault →
           t'.decide true = st → t.state ≠ st →
         (∀ j : JobNo, t.job = some j → (s.part.job j).abortPending = false →
           ∃ u, exec (.printerConditionChange k c on) s = .next u ∧ enters st u
             ∧ u.part.job j = { s.part.job j with state := .held, hold := some r })
         ∧ (t.job = none → t.loadPending = false →
           ∃ u, exec (.printerConditionChange k c on) s = .next u ∧ enters st u ∧ u.part.jobs = s.part.jobs))
       ∧ (∀ j : JobNo, t.job = some j → t'.decide true = .busy → t.state ≠ .busy →
           (∀ e ∈ (s.part.job j).chain, e.fill ≠ 0) →
         ∃ u, exec (.printerConditionChange k c on) s = .next u
           ∧ (u.part.port k).state = .busy ∧ (u.part.port k).redirect = none
           ∧ (u.part.port k).redirected = false ∧ (u.part.port k).job = some j
           ∧ (u.part.port k).stall = some set.stallS
           ∧ u.part.job j = { s.part.job j with state := .printing, hold := none } ∧ u.mem = s.mem)
       ∧ (t.job = none → t'.decide true = .idle → t.state ≠ .idle → t.loadPending = false → s.part.queue k = [] →
         ∃ u, exec (.printerConditionChange k c on) s = .next u
           ∧ (u.part.port k).state = .idle ∧ (u.part.port k).redirect = none
           ∧ (u.part.port k).redirected = false ∧ u.part.jobs = s.part.jobs ∧ u.mem = s.mem))

/-- The port drives the byte it has read and strobes it: from then on the byte is in handshake, and the strobe
ends by itself. While an acknowledge is still owed for an abandoned byte nothing is presented; 1 ms after the
byte was given up a port that waits with its next byte clears the mark, and any other keeps it until it comes
there, that is when it has read its byte (log 38). The stall timer's expiry in BUSY stalls the port: STALLED,
PRINTER (7) latched, the job HELD with that reason and the byte in handshake kept. A STALLED port with a job and
no byte in handshake returns to BUSY when busy is seen low, and one with no job returns to IDLE at the expiry of
the timer restarted when the job left. That a presentation with a byte in handshake or outside BUSY, a timeout
with no mark, the expiry of a stopped timer and a low busy elsewhere have no effect is the model's choice (log
1), and so is the busy level as the command's own moment (log 27). -/
def Obligations.BytesArePresentedAndStallsEnd : Prop :=
  (∀ (s : State) (k : Port), s.part.held = false →
     let t := s.part.port k
     (∀ (j : JobNo) (v : Byte), t.state = .busy → t.job = some j → t.handshake = none → t.fetched = some v →
         (s.part.job j).abortPending = false →
       (t.abandoned = false → exec (.bytePresent k) s = .next (s.withPart { s.part with
         ports := put s.part.ports k { t with data := v, strobe := true, handshake := some v, fetched := none } }))
       ∧ (t.abandoned = true → exec (.bytePresent k) s = .next s))
     ∧ (t.handshake.isSome = true → exec (.bytePresent k) s = .next s)
     ∧ (t.state ≠ .busy → exec (.bytePresent k) s = .next s)
     ∧ exec (.printerStrobeEnd k) s = .next (s.withPart { s.part with
         ports := put s.part.ports k { t with strobe := false } })
     ∧ (t.abandoned = false → exec (.abandonedByteTimeout k) s = .next s)
     ∧ (t.abandoned = true →
       (t.state = .busy → t.job.isSome = true → t.handshake = none → t.fetched.isSome = true →
         exec (.abandonedByteTimeout k) s = .next (s.withPart { s.part with
           ports := put s.part.ports k { t with abandoned := false, overdue := false } }))
       ∧ (t.state ≠ .busy ∨ t.job = none ∨ t.handshake.isSome = true ∨ t.fetched = none →
         exec (.abandonedByteTimeout k) s = .next (s.withPart { s.part with
           ports := put s.part.ports k { t with overdue := true } }))))
  ∧ (∀ (s : State) (k : Port), s.part.held = false → (s.part.printerSetup k).enable = true →
       let t := s.part.port k
       (t.stall = none → exec (.stallTimerExpiry k) s = .next s)
       ∧ (t.fault = false → t.paperOut = false → t.deselected = false →
         (∀ j, t.state = .busy → t.stall.isSome = true → t.job = some j → (s.part.job j).abortPending = false →
           t.loadPending = false →
           ∃ u, exec (.stallTimerExpiry k) s = .next u ∧ (u.part.port k).state = .stalled
             ∧ (u.part.port k).handshake = t.handshake ∧ (u.part.port k).job = some j
             ∧ (u.part.port k).stall = none
             ∧ u.part.job j = { s.part.job j with state := .held, hold := some .stalled }
             ∧ u.part.notices.latches = s.part.notices.latches ||| 0x0080 ∧ u.mem = s.mem)
         ∧ (t.state = .stalled → t.stall.isSome = true → t.job = none → s.part.queue k = [] →
           ∃ u, exec (.stallTimerExpiry k) s = .next u ∧ (u.part.port k).state = .idle
             ∧ (u.part.port k).job = none ∧ (u.part.port k).stall = none
             ∧ u.part.jobs = s.part.jobs ∧ u.mem = s.mem)
         ∧ (∀ j, t.state = .stalled → t.job = some j → t.handshake = none →
             (∀ e ∈ (s.part.job j).chain, e.fill ≠ 0) →
           ∃ u, exec (.stallEndBusyLow k) s = .next u ∧ (u.part.port k).state = .busy
             ∧ (u.part.port k).job = some j ∧ (u.part.port k).stall = some (s.part.printerSetup k).stallS
             ∧ u.part.job j = { s.part.job j with state := .printing, hold := none } ∧ u.mem = s.mem))
       ∧ (t.state ≠ .stalled ∨ t.job = none ∨ t.handshake.isSome = true →
         exec (.stallEndBusyLow k) s = .next s))

/-- An acknowledge by the port's state. In BUSY with a byte in handshake it is counted: bytes printed rises by
1, the byte leaves the handshake and the stall timer restarts; with the last byte of the job the job is DONE
with COMPLETE, its buffer is freed and the port has no job. That the data lines keep the byte then is the
model's choice (log 39). In STALLED with a job and its byte in handshake it is counted too and ends the stall:
BUSY, the job PRINTING, the stall timer started, the redirect timer and flag cleared; with a job and no byte it
is ignored, and with no job it brings the port to IDLE and clears the abandoned-byte mark (log 11). Where the
job's abort is pending the byte is counted and the abort is then made: ABORTED with ABORTED_BY_REQUEST, the
buffers of the chain freed in order, the port IDLE with no job. In BUSY with no byte in handshake it is ignored.
In IDLE, DISABLED, PAPER_OUT, OFFLINE and FAULT it only clears the abandoned-byte mark. -/
def Obligations.AcknowledgesCountTheByte : Prop :=
  ∀ (s : State) (k : Port), s.part.held = false →
    let t := s.part.port k
    let c : Instr := .acknowledge k
    (t.state = .busy → t.handshake = none → exec c s = .next s)
    ∧ (t.state = .idle ∨ t.state = .disabled ∨ t.state = .paperOut ∨ t.state = .offline ∨ t.state = .fault →
      exec c s = .next (s.withPart { s.part with
        ports := put s.part.ports k { t with abandoned := false, overdue := false } }))
    ∧ (t.state = .stalled → t.job.isSome = true → t.handshake = none → exec c s = .next s)
    ∧ (t.state = .stalled → t.job = none → t.loadPending = false → s.part.queue k = [] →
      ({ t with stalled := false } : PrinterPort).decide (s.part.printerSetup k).enable = .idle →
      ∃ u, exec c s = .next u ∧ u.part.port k = { t with
          state := .idle, stalled := false, abandoned := false, overdue := false, stall := none, redirect := none
          redirected := false, fetched := none }
        ∧ u.part.jobs = s.part.jobs ∧ u.part.pool = s.part.pool ∧ u.mem = s.mem)
    ∧ (∀ (j : JobNo) (v : Byte) (e : ChainEntry) (r : List ChainEntry),
      let x := s.part.job j
      t.state = .stalled → t.job = some j → t.handshake = some v → x.chain = e :: r → x.abortPending = false →
      ({ t with stalled := false } : PrinterPort).decide (s.part.printerSetup k).enable = .busy →
      x.printed + 1 < x.freed + e.fill → x.printed + 1 < x.queuedBytes → e.fill ≠ 0 →
      ∃ u, exec c s = .next u
        ∧ u.part.job j = { x with printed := x.printed + 1, state := .printing, hold := none }
        ∧ u.part.port k = { t with
            state := .busy, stalled := false, handshake := none, fetched := none, redirect := none
            redirected := false, stall := some (s.part.printerSetup k).stallS }
        ∧ u.part.pool = s.part.pool ∧ u.mem = s.mem)
    ∧ (∀ (j : JobNo) (v : Byte),
      let x := s.part.job j
      t.state = .busy ∨ t.state = .stalled → t.job = some j → t.handshake = some v → x.abortPending = true →
      x.state = .printing ∨ x.state = .held → t.loadPending = false → s.part.queue k = [] →
      ({ t with stalled := false, job := none } : PrinterPort).decide (s.part.printerSetup k).enable = .idle →
      ∃ u, exec c s = .next u ∧ (u.part.job j).state = .aborted
        ∧ (u.part.job j).result = some .abortedByRequest ∧ (u.part.job j).printed = x.printed + 1
        ∧ (u.part.job j).chain = [] ∧ (u.part.job j).abortPending = false
        ∧ u.part.pool.free = s.part.pool.free ++ x.chain.map (fun e => e.buf)
        ∧ (u.part.port k).job = none ∧ (u.part.port k).state = .idle ∧ (u.part.port k).handshake = none
        ∧ (u.part.port k).stall = none ∧ u.mem = s.mem)
    ∧ ∀ (j : JobNo) (v : Byte) (e : ChainEntry) (r : List ChainEntry),
      let x := s.part.job j
      t.state = .busy → t.job = some j → t.handshake = some v → x.chain = e :: r → x.abortPending = false →
      t.decide (s.part.printerSetup k).enable = .busy →
      (x.printed + 1 < x.freed + e.fill → x.printed + 1 < x.queuedBytes → e.fill ≠ 0 →
        ∃ u, exec c s = .next u ∧ u.part.job j = { x with printed := x.printed + 1 }
          ∧ u.part.port k = { t with
              handshake := none, fetched := none, stall := some (s.part.printerSetup k).stallS }
          ∧ u.part.pool = s.part.pool ∧ u.mem = s.mem)
      ∧ (r = [] → x.freed + e.fill = x.printed + 1 → x.queuedBytes = x.printed + 1 →
          s.part.queue k = [] → t.loadPending = false →
        ∃ u, exec c s = .next u ∧ (u.part.job j).state = .done ∧ (u.part.job j).result = some .complete
          ∧ (u.part.job j).printed = x.printed + 1 ∧ (u.part.job j).chain = []
          ∧ u.part.pool.free = s.part.pool.free ++ [e.buf]
          ∧ (u.part.port k).job = none ∧ (u.part.port k).state = .idle
          ∧ (u.part.port k).handshake = none ∧ u.mem = s.mem)

/-- The redirect timer's expiry sets the redirected flag and latches PRINTER (7); a submission walk that waits
is due a retry. With no alternate the queue stays. With one whose port is not IDLE and whose queue has room, an
unmoved waiting job joins the tail of the alternate's queue with its moved flag set; a job already moved stays.
The expiry of a stopped timer has no effect (the model's choice, log 1). Shown for a queue of one job. -/
def Obligations.RedirectMovesTheWaitingJobs : Prop :=
  ∀ (s : State) (k : Port), s.part.held = false →
    let t := s.part.port k
    let alt := (s.part.printerSetup k).alternate
    (t.redirect = none → exec (.redirectTimerExpiry k) s = .next s)
    ∧ (t.redirect.isSome = true →
      (3 ≤ alt ∨ alt = k.val ∨ (∀ a : Port, alt = a.val → (s.part.printerSetup a).enable = false) →
        exec (.redirectTimerExpiry k) s = .next (s.withPart { s.part with
          ports := put s.part.ports k { t with redirect := none, redirected := true }
          notices := { s.part.notices with latches := s.part.notices.latches ||| 0x0080 }
          submit := if s.part.submit.state = .waiting then { s.part.submit with retryDue := true }
                    else s.part.submit }))
      ∧ ∀ (a : Port) (j : JobNo), alt = a.val → a ≠ k → (s.part.printerSetup a).enable = true →
        s.part.queue k = [j] → (s.part.port a).state ≠ .idle →
        ((s.part.job j).moved = false → (s.part.queue a).length < 16 →
          ∃ u, exec (.redirectTimerExpiry k) s = .next u
            ∧ u.part.queue k = [] ∧ u.part.queue a = s.part.queue a ++ [j]
            ∧ u.part.job j = { s.part.job j with printer := a, moved := true }
            ∧ (u.part.port k).redirected = true ∧ (u.part.port k).state = t.state ∧ u.mem = s.mem)
        ∧ ((s.part.job j).moved = true ∨ 16 ≤ (s.part.queue a).length →
          ∃ u, exec (.redirectTimerExpiry k) s = .next u
            ∧ u.part.queues = s.part.queues ∧ u.part.jobs = s.part.jobs
            ∧ (u.part.port k).redirected = true ∧ (u.part.port k).redirect = none ∧ u.mem = s.mem))

/-! ## Frames and invariants -/

/-- The commands that are not memory accesses leave every byte of the buffer memory as it was: only a reset that
ends a waiting write, a host write, an edit, a memory cycle, the end of a record write and the end of a commit
reach it. -/
def Obligations.OtherCommandsKeepTheMemory : Prop :=
  ∀ (i : Instr) (s t : State), exec i s = .next t →
    (i ≠ .powerOnReset → i ≠ .pinResetAssert → i ≠ .commitApplication → i ≠ .memoryPortGrant →
      i ≠ .imageWriteComplete → (∀ a v, i ≠ .hostWrite a v) → (∀ b n v, i ≠ .stationEdit b n v) →
      (∀ b n p, i ≠ .bar b n p ∧ i ≠ .unbar b n p ∧ i ≠ .clearConflict b n p) →
      (∀ u v, i ≠ .unitMapEdit u v) → (∀ n v, i ≠ .nodeListEdit n v) → t.mem = s.mem)
    ∧ ∀ (a : Addr) (v : Byte) (c : Nat), i = .hostWrite a v → c ≠ a.toNat → Mem.read t.mem c = Mem.read s.mem c

/-- The memory, setup and tables that the events of one branch and of one port keep, and the supervision of
other branches. An event of a branch leaves the buffer memory, the setup in force, the unit map, the node list
and every other branch's supervisor, switch and probe record; an event of a port leaves the buffer memory, the
setup in force, the unit map, the node list, every engine, supervisor and switch, the sense sequencer and the
probe unit. -/
def Obligations.EventsKeepMemoryTablesAndOtherSupervision : Prop :=
  (∀ (i : Instr) (b : Branch) (s t : State), branchOf i = some b → exec i s = .next t →
    t.mem = s.mem ∧ t.part.setup = s.part.setup ∧ t.part.units = s.part.units ∧ t.part.nodes = s.part.nodes
      ∧ ∀ c : Branch, c ≠ b → t.part.sup c = s.part.sup c ∧ t.part.switch c = s.part.switch c
          ∧ t.part.records.get c = s.part.records.get c)
  ∧ ∀ (i : Instr) (k : Port) (s t : State), portOf i = some k → exec i s = .next t →
    t.mem = s.mem ∧ t.part.setup = s.part.setup ∧ t.part.units = s.part.units ∧ t.part.nodes = s.part.nodes
      ∧ t.part.engines = s.part.engines ∧ t.part.sups = s.part.sups ∧ t.part.switches = s.part.switches
      ∧ t.part.sense = s.part.sense ∧ t.part.probe = s.part.probe ∧ t.part.records = s.part.records

/-- Every step keeps the canonical form of the buffer memory. -/
def Obligations.EveryStepKeepsTheMemoryCanonical : Prop :=
  ∀ s t : State, s.memoryCanonical → step s = .next t → t.memoryCanonical

/-- Every step keeps it true that no switch asserts both of its relay drives. -/
def Obligations.EveryStepKeepsTheDrivesExclusive : Prop :=
  ∀ s t : State, s.drivesExclusive → step s = .next t → t.drivesExclusive

/-- Every step keeps every fault score within 0 to 1023, and the thresholds in force, and those of a commit in
progress, in their order: TC below TW below TI, and TI at most 1023. -/
def Obligations.EveryStepKeepsTheScoresBounded : Prop :=
  ∀ s t : State, s.scoresBounded → step s = .next t → t.scoresBounded
end

