-- ==== Sys2Proof/Laws/Memory.lean ====
section
/-! SUPPORT. The buffer memory: a write is read back, changes no other byte and keeps the canonical form. -/

namespace Sys2Proof.Machine

/-- A byte that is not written keeps its value. -/
theorem Mem.read_write_ne (m : List Host.Cell) (a c : Nat) (v : Byte) (h : c ≠ a) :
    Mem.read (Mem.write m a v) c = Mem.read m c := by
  induction m with
  | nil =>
    by_cases hv : v = Config.unlistedByte
    · simp [Mem.write, Mem.read, hv]
    · simp [Mem.write, Mem.read, hv, Ne.symm h]
  | cons x r ih =>
    obtain ⟨k, w⟩ := x
    simp only [Mem.write]
    split
    · split
      · rfl
      · simp [Mem.read, Ne.symm h]
    · split
      · rename_i hk
        subst hk
        split <;> simp [Mem.read, Ne.symm h]
      · simp only [Mem.read, ih]

/-- Above the addresses of a canonical memory's first entry bound, nothing lies below. -/
theorem Mem.read_below (m : List Host.Cell) (lo a : Nat) (h : Mem.wfAbove lo m = true) (ha : a < lo) :
    Mem.read m a = Config.unlistedByte := by
  induction m generalizing lo with
  | nil => rfl
  | cons x r ih =>
    obtain ⟨k, w⟩ := x
    simp only [Mem.wfAbove, Bool.and_eq_true, decide_eq_true_eq] at h
    obtain ⟨⟨h1, _⟩, h3⟩ := h
    have hk : k ≠ a := by omega
    simp only [Mem.read, hk, if_false]
    exact ih (k + 1) h3 (by omega)

/-- A byte written to a canonical memory is read back. -/
theorem Mem.read_write_above (m : List Host.Cell) (lo a : Nat) (v : Byte) (h : Mem.wfAbove lo m = true) :
    Mem.read (Mem.write m a v) a = v := by
  induction m generalizing lo with
  | nil =>
    by_cases hv : v = Config.unlistedByte
    · simp [Mem.write, Mem.read, hv]
    · simp [Mem.write, Mem.read, hv]
  | cons x r ih =>
    obtain ⟨k, w⟩ := x
    simp only [Mem.wfAbove, Bool.and_eq_true, decide_eq_true_eq] at h
    obtain ⟨⟨h1, h2⟩, h3⟩ := h
    simp only [Mem.write]
    split
    · rename_i hlt
      split
      · rename_i hv
        have hk : k ≠ a := by omega
        simp only [Mem.read, hk, if_false]
        rw [Mem.read_below r (k + 1) a h3 (by omega), hv]
      · simp [Mem.read]
    · split
      · rename_i hk
        subst hk
        split
        · rename_i hv
          rw [Mem.read_below r (a + 1) a h3 (by omega), hv]
        · simp [Mem.read]
      · rename_i hn hk
        have hk' : k ≠ a := fun e => hk e.symm
        simp only [Mem.read, hk', if_false]
        exact ih (k + 1) h3

/-- A write keeps the canonical form above a bound that the address respects. -/
theorem Mem.wfAbove_write (m : List Host.Cell) (lo a : Nat) (v : Byte) (h : Mem.wfAbove lo m = true)
    (ha : lo ≤ a) : Mem.wfAbove lo (Mem.write m a v) = true := by
  have weaken : ∀ (l : List Host.Cell) (x y : Nat), Mem.wfAbove y l = true → x ≤ y → Mem.wfAbove x l = true := by
    intro l x y hl hxy
    cases l with
    | nil => rfl
    | cons c r =>
      obtain ⟨k, w⟩ := c
      simp only [Mem.wfAbove, Bool.and_eq_true, decide_eq_true_eq] at hl ⊢
      exact ⟨⟨by omega, hl.1.2⟩, hl.2⟩
  induction m generalizing lo with
  | nil =>
    by_cases hv : v = Config.unlistedByte
    · simp [Mem.write, hv, Mem.wfAbove]
    · simp [Mem.write, hv, Mem.wfAbove, ha]
  | cons x r ih =>
    obtain ⟨k, w⟩ := x
    simp only [Mem.wfAbove, Bool.and_eq_true, decide_eq_true_eq] at h
    obtain ⟨⟨h1, h2⟩, h3⟩ := h
    simp only [Mem.write]
    split
    · split
      · simp only [Mem.wfAbove, Bool.and_eq_true, decide_eq_true_eq]
        exact ⟨⟨h1, h2⟩, h3⟩
      · rename_i hv
        simp only [Mem.wfAbove, Bool.and_eq_true, decide_eq_true_eq]
        exact ⟨⟨ha, hv⟩, ⟨⟨by omega, h2⟩, h3⟩⟩
    · split
      · rename_i hk
        subst hk
        split
        · exact weaken r lo (a + 1) h3 (by omega)
        · rename_i hv
          simp only [Mem.wfAbove, Bool.and_eq_true, decide_eq_true_eq]
          exact ⟨⟨ha, hv⟩, h3⟩
      · simp only [Mem.wfAbove, Bool.and_eq_true, decide_eq_true_eq]
        exact ⟨⟨h1, h2⟩, ih (k + 1) h3 (by omega)⟩

/-- A write keeps the canonical form. -/
theorem Mem.wf_write (m : List Host.Cell) (a : Nat) (v : Byte) (h : Mem.wf m = true) :
    Mem.wf (Mem.write m a v) = true :=
  Mem.wfAbove_write m 0 a v h (Nat.zero_le a)

/-- A byte written to a canonical memory is read back. -/
theorem Mem.read_write_self (m : List Host.Cell) (a : Nat) (v : Byte) (h : Mem.wf m = true) :
    Mem.read (Mem.write m a v) a = v :=
  Mem.read_write_above m 0 a v h

end Sys2Proof.Machine
end

