-- ==== Sys2Proof/Laws/State.lean ====
section
/-! SUPPORT. What each update of the part does to each of its fields: the field updated takes the new value, every
other field is kept. All are true by `rfl` and are simp lemmas, so no later proof unfolds a record update. -/

namespace Sys2Proof

/-- The entry replaced in a table. -/
@[simp] theorem get_put_self {α : Type} {n : Nat} (t : Vector α n) (i : Fin n) (x : α) :
    (put t i x).get i = x := by
  show (t.set i.val x i.isLt)[i.val] = x
  simp

/-- Every other entry of a table is kept. -/
theorem get_put_ne {α : Type} {n : Nat} (t : Vector α n) (i k : Fin n) (x : α) (h : k ≠ i) :
    (put t i x).get k = t.get k := by
  have h' : i.val ≠ k.val := fun e => h (Fin.ext e.symm)
  show (t.set i.val x i.isLt)[k.val] = t[k.val]
  simp [h']

/-- An entry of a table after a replacement. -/
theorem get_put {α : Type} {n : Nat} (t : Vector α n) (i k : Fin n) (x : α) :
    (put t i x).get k = if k = i then x else t.get k := by
  by_cases h : k = i
  · subst h; simp
  · simp [h, get_put_ne t i k x h]

/-- Writing back the entry a table holds changes nothing. -/
@[simp] theorem put_get_self {α : Type} {n : Nat} (t : Vector α n) (i : Fin n) : put t i (t.get i) = t := by
  show t.set i.val (t[i.val]) i.isLt = t
  simp

@[simp] theorem get_replicate {α : Type} {n : Nat} (x : α) (i : Fin n) : (Vector.replicate n x).get i = x := by
  show (Vector.replicate n x)[i.val] = x
  simp

@[simp] theorem get_map {α β : Type} {n : Nat} (f : α → β) (t : Vector α n) (i : Fin n) :
    (t.map f).get i = f (t.get i) := by
  show (t.map f)[i.val] = f t[i.val]
  simp

@[simp] theorem get_ofFn {α : Type} {n : Nat} (f : Fin n → α) (i : Fin n) : (Vector.ofFn f).get i = f i := by
  show (Vector.ofFn f)[i.val] = f i
  simp

namespace Machine.Part

/-! ## The field an update changes -/

@[simp] theorem modEngine_engines (b : Branch) (f : Engine → Engine) (p : Part) :
    (modEngine b f p).engines = put p.engines b (f (p.engine b)) := rfl

@[simp] theorem engine_modEngine_self (b : Branch) (f : Engine → Engine) (p : Part) :
    (modEngine b f p).engine b = f (p.engine b) := by simp [engine]

theorem engine_modEngine_ne (b i : Branch) (f : Engine → Engine) (p : Part) (h : i ≠ b) :
    (modEngine b f p).engine i = p.engine i := by simp [engine, get_put_ne _ _ _ _ h]

@[simp] theorem modSwitch_switches (b : Branch) (f : Switch → Switch) (p : Part) :
    (modSwitch b f p).switches = put p.switches b (f (p.switch b)) := rfl

@[simp] theorem switch_modSwitch_self (b : Branch) (f : Switch → Switch) (p : Part) :
    (modSwitch b f p).switch b = f (p.switch b) := by simp [switch]

theorem switch_modSwitch_ne (b i : Branch) (f : Switch → Switch) (p : Part) (h : i ≠ b) :
    (modSwitch b f p).switch i = p.switch i := by simp [switch, get_put_ne _ _ _ _ h]

@[simp] theorem modSup_sups (b : Branch) (f : Supervisor → Supervisor) (p : Part) :
    (modSup b f p).sups = put p.sups b (f (p.sup b)) := rfl

@[simp] theorem sup_modSup_self (b : Branch) (f : Supervisor → Supervisor) (p : Part) :
    (modSup b f p).sup b = f (p.sup b) := by simp [sup]

theorem sup_modSup_ne (b i : Branch) (f : Supervisor → Supervisor) (p : Part) (h : i ≠ b) :
    (modSup b f p).sup i = p.sup i := by simp [sup, get_put_ne _ _ _ _ h]

@[simp] theorem modPort_ports (k : Port) (f : PrinterPort → PrinterPort) (p : Part) :
    (modPort k f p).ports = put p.ports k (f (p.port k)) := rfl

@[simp] theorem port_modPort_self (k : Port) (f : PrinterPort → PrinterPort) (p : Part) :
    (modPort k f p).port k = f (p.port k) := by simp [port]

theorem port_modPort_ne (k i : Port) (f : PrinterPort → PrinterPort) (p : Part) (h : i ≠ k) :
    (modPort k f p).port i = p.port i := by simp [port, get_put_ne _ _ _ _ h]

@[simp] theorem modJob_jobs (j : JobNo) (f : Job → Job) (p : Part) :
    (modJob j f p).jobs = put p.jobs j (f (p.job j)) := rfl

@[simp] theorem job_modJob_self (j : JobNo) (f : Job → Job) (p : Part) :
    (modJob j f p).job j = f (p.job j) := by simp [job]

theorem job_modJob_ne (j i : JobNo) (f : Job → Job) (p : Part) (h : i ≠ j) :
    (modJob j f p).job i = p.job i := by simp [job, get_put_ne _ _ _ _ h]

@[simp] theorem modQueue_queues (k : Port) (f : List JobNo → List JobNo) (p : Part) :
    (modQueue k f p).queues = put p.queues k (f (p.queue k)) := rfl

@[simp] theorem queue_modQueue_self (k : Port) (f : List JobNo → List JobNo) (p : Part) :
    (modQueue k f p).queue k = f (p.queue k) := by simp [queue]

theorem queue_modQueue_ne (k i : Port) (f : List JobNo → List JobNo) (p : Part) (h : i ≠ k) :
    (modQueue k f p).queue i = p.queue i := by simp [queue, get_put_ne _ _ _ _ h]

@[simp] theorem modPath_paths (b : Branch) (f : List PathOp → List PathOp) (p : Part) :
    (modPath b f p).paths = put p.paths b (f (p.path b)) := rfl

@[simp] theorem path_modPath_self (b : Branch) (f : List PathOp → List PathOp) (p : Part) :
    (modPath b f p).path b = f (p.path b) := by simp [path]

theorem path_modPath_ne (b i : Branch) (f : List PathOp → List PathOp) (p : Part) (h : i ≠ b) :
    (modPath b f p).path i = p.path i := by simp [path, get_put_ne _ _ _ _ h]

@[simp] theorem modStation_stations (b : Branch) (n : StationNo) (f : Station → Station) (p : Part) :
    (modStation b n f p).stations = put p.stations (stationIx b n) (f (p.station b n)) := rfl

@[simp] theorem station_modStation_self (b : Branch) (n : StationNo) (f : Station → Station) (p : Part) :
    (modStation b n f p).station b n = f (p.station b n) := by simp [station]

@[simp] theorem modPool_pool (f : Pool → Pool) (p : Part) : (modPool f p).pool = f p.pool := rfl

@[simp] theorem modNotices_notices (f : NoticeUnit → NoticeUnit) (p : Part) : (modNotices f p).notices = f p.notices := rfl

@[simp] theorem modLoader_loader (f : Loader → Loader) (p : Part) : (modLoader f p).loader = f p.loader := rfl

@[simp] theorem modToTrunk_toTrunk (f : ToTrunkWalk → ToTrunkWalk) (p : Part) : (modToTrunk f p).toTrunk = f p.toTrunk := rfl

@[simp] theorem modSubmit_submit (f : SubmitWalk → SubmitWalk) (p : Part) : (modSubmit f p).submit = f p.submit := rfl

@[simp] theorem modCopy_copy (f : CopyEngine → CopyEngine) (p : Part) : (modCopy f p).copy = f p.copy := rfl

@[simp] theorem modSense_sense (f : Sense → Sense) (p : Part) : (modSense f p).sense = f p.sense := rfl

@[simp] theorem modProbe_probe (f : ProbeUnit → ProbeUnit) (p : Part) : (modProbe f p).probe = f p.probe := rfl

@[simp] theorem modWriter_writer (f : ImageWriter → ImageWriter) (p : Part) : (modWriter f p).writer = f p.writer := rfl

@[simp] theorem modRing_ring (f : List RingRead → List RingRead) (p : Part) : (modRing f p).ring = f p.ring := rfl

@[simp] theorem modRouter_router (f : Router → Router) (p : Part) : (modRouter f p).router = f p.router := rfl

@[simp] theorem modLive_live (f : LiveCopies → LiveCopies) (p : Part) : (modLive f p).live = f p.live := rfl

@[simp] theorem modSnap_snap (f : SnapWindow → SnapWindow) (p : Part) : (modSnap f p).snap = f p.snap := rfl

/-! ## The fields an update keeps -/

@[simp] theorem modEngine_keeps (b : Branch) (f : Engine → Engine) (p : Part) :
    (modEngine b f p).held = p.held ∧ (modEngine b f p).setup = p.setup ∧
    (modEngine b f p).loader = p.loader ∧ (modEngine b f p).notices = p.notices ∧
    (modEngine b f p).pool = p.pool ∧ (modEngine b f p).stations = p.stations ∧
    (modEngine b f p).units = p.units ∧ (modEngine b f p).nodes = p.nodes ∧
    (modEngine b f p).paths = p.paths ∧ (modEngine b f p).router = p.router ∧
    (modEngine b f p).toTrunk = p.toTrunk ∧ (modEngine b f p).submit = p.submit ∧
    (modEngine b f p).copy = p.copy ∧ (modEngine b f p).jobs = p.jobs ∧
    (modEngine b f p).queues = p.queues ∧ (modEngine b f p).stamp = p.stamp ∧
    (modEngine b f p).moveJob = p.moveJob ∧ (modEngine b f p).ports = p.ports ∧
    (modEngine b f p).sups = p.sups ∧ (modEngine b f p).sense = p.sense ∧
    (modEngine b f p).switches = p.switches ∧ (modEngine b f p).branchSel = p.branchSel ∧
    (modEngine b f p).button = p.button ∧ (modEngine b f p).probe = p.probe ∧
    (modEngine b f p).records = p.records ∧ (modEngine b f p).writer = p.writer ∧
    (modEngine b f p).ring = p.ring ∧ (modEngine b f p).arbiter = p.arbiter ∧
    (modEngine b f p).hostWait = p.hostWait ∧ (modEngine b f p).hostData = p.hostData ∧
    (modEngine b f p).live = p.live ∧ (modEngine b f p).lastBlocked = p.lastBlocked ∧
    (modEngine b f p).snap = p.snap ∧ (modEngine b f p).draws = p.draws := by
    refine ⟨rfl, rfl, rfl, rfl, rfl, rfl, rfl, rfl, rfl, rfl, rfl, rfl, rfl, rfl, rfl, rfl, rfl, rfl, rfl,
    rfl, rfl, rfl, rfl, rfl, rfl, rfl, rfl, rfl, rfl, rfl, rfl, rfl, rfl, rfl⟩

@[simp] theorem modSwitch_keeps (b : Branch) (f : Switch → Switch) (p : Part) :
    (modSwitch b f p).held = p.held ∧ (modSwitch b f p).setup = p.setup ∧
    (modSwitch b f p).loader = p.loader ∧ (modSwitch b f p).notices = p.notices ∧
    (modSwitch b f p).pool = p.pool ∧ (modSwitch b f p).stations = p.stations ∧
    (modSwitch b f p).units = p.units ∧ (modSwitch b f p).nodes = p.nodes ∧
    (modSwitch b f p).engines = p.engines ∧ (modSwitch b f p).paths = p.paths ∧
    (modSwitch b f p).router = p.router ∧ (modSwitch b f p).toTrunk = p.toTrunk ∧
    (modSwitch b f p).submit = p.submit ∧ (modSwitch b f p).copy = p.copy ∧
    (modSwitch b f p).jobs = p.jobs ∧ (modSwitch b f p).queues = p.queues ∧
    (modSwitch b f p).stamp = p.stamp ∧ (modSwitch b f p).moveJob = p.moveJob ∧
    (modSwitch b f p).ports = p.ports ∧ (modSwitch b f p).sups = p.sups ∧
    (modSwitch b f p).sense = p.sense ∧ (modSwitch b f p).branchSel = p.branchSel ∧
    (modSwitch b f p).button = p.button ∧ (modSwitch b f p).probe = p.probe ∧
    (modSwitch b f p).records = p.records ∧ (modSwitch b f p).writer = p.writer ∧
    (modSwitch b f p).ring = p.ring ∧ (modSwitch b f p).arbiter = p.arbiter ∧
    (modSwitch b f p).hostWait = p.hostWait ∧ (modSwitch b f p).hostData = p.hostData ∧
    (modSwitch b f p).live = p.live ∧ (modSwitch b f p).lastBlocked = p.lastBlocked ∧
    (modSwitch b f p).snap = p.snap ∧ (modSwitch b f p).draws = p.draws := by
    refine ⟨rfl, rfl, rfl, rfl, rfl, rfl, rfl, rfl, rfl, rfl, rfl, rfl, rfl, rfl, rfl, rfl, rfl, rfl, rfl,
    rfl, rfl, rfl, rfl, rfl, rfl, rfl, rfl, rfl, rfl, rfl, rfl, rfl, rfl, rfl⟩

@[simp] theorem modSup_keeps (b : Branch) (f : Supervisor → Supervisor) (p : Part) :
    (modSup b f p).held = p.held ∧ (modSup b f p).setup = p.setup ∧ (modSup b f p).loader = p.loader ∧
    (modSup b f p).notices = p.notices ∧ (modSup b f p).pool = p.pool ∧
    (modSup b f p).stations = p.stations ∧ (modSup b f p).units = p.units ∧
    (modSup b f p).nodes = p.nodes ∧ (modSup b f p).engines = p.engines ∧ (modSup b f p).paths = p.paths ∧
    (modSup b f p).router = p.router ∧ (modSup b f p).toTrunk = p.toTrunk ∧
    (modSup b f p).submit = p.submit ∧ (modSup b f p).copy = p.copy ∧ (modSup b f p).jobs = p.jobs ∧
    (modSup b f p).queues = p.queues ∧ (modSup b f p).stamp = p.stamp ∧
    (modSup b f p).moveJob = p.moveJob ∧ (modSup b f p).ports = p.ports ∧ (modSup b f p).sense = p.sense ∧
    (modSup b f p).switches = p.switches ∧ (modSup b f p).branchSel = p.branchSel ∧
    (modSup b f p).button = p.button ∧ (modSup b f p).probe = p.probe ∧
    (modSup b f p).records = p.records ∧ (modSup b f p).writer = p.writer ∧ (modSup b f p).ring = p.ring ∧
    (modSup b f p).arbiter = p.arbiter ∧ (modSup b f p).hostWait = p.hostWait ∧
    (modSup b f p).hostData = p.hostData ∧ (modSup b f p).live = p.live ∧
    (modSup b f p).lastBlocked = p.lastBlocked ∧ (modSup b f p).snap = p.snap ∧
    (modSup b f p).draws = p.draws := by
    refine ⟨rfl, rfl, rfl, rfl, rfl, rfl, rfl, rfl, rfl, rfl, rfl, rfl, rfl, rfl, rfl, rfl, rfl, rfl, rfl,
    rfl, rfl, rfl, rfl, rfl, rfl, rfl, rfl, rfl, rfl, rfl, rfl, rfl, rfl, rfl⟩

@[simp] theorem modPort_keeps (k : Port) (f : PrinterPort → PrinterPort) (p : Part) :
    (modPort k f p).held = p.held ∧ (modPort k f p).setup = p.setup ∧ (modPort k f p).loader = p.loader ∧
    (modPort k f p).notices = p.notices ∧ (modPort k f p).pool = p.pool ∧
    (modPort k f p).stations = p.stations ∧ (modPort k f p).units = p.units ∧
    (modPort k f p).nodes = p.nodes ∧ (modPort k f p).engines = p.engines ∧
    (modPort k f p).paths = p.paths ∧ (modPort k f p).router = p.router ∧
    (modPort k f p).toTrunk = p.toTrunk ∧ (modPort k f p).submit = p.submit ∧
    (modPort k f p).copy = p.copy ∧ (modPort k f p).jobs = p.jobs ∧ (modPort k f p).queues = p.queues ∧
    (modPort k f p).stamp = p.stamp ∧ (modPort k f p).moveJob = p.moveJob ∧ (modPort k f p).sups = p.sups ∧
    (modPort k f p).sense = p.sense ∧ (modPort k f p).switches = p.switches ∧
    (modPort k f p).branchSel = p.branchSel ∧ (modPort k f p).button = p.button ∧
    (modPort k f p).probe = p.probe ∧ (modPort k f p).records = p.records ∧
    (modPort k f p).writer = p.writer ∧ (modPort k f p).ring = p.ring ∧
    (modPort k f p).arbiter = p.arbiter ∧ (modPort k f p).hostWait = p.hostWait ∧
    (modPort k f p).hostData = p.hostData ∧ (modPort k f p).live = p.live ∧
    (modPort k f p).lastBlocked = p.lastBlocked ∧ (modPort k f p).snap = p.snap ∧
    (modPort k f p).draws = p.draws := by
    refine ⟨rfl, rfl, rfl, rfl, rfl, rfl, rfl, rfl, rfl, rfl, rfl, rfl, rfl, rfl, rfl, rfl, rfl, rfl, rfl,
    rfl, rfl, rfl, rfl, rfl, rfl, rfl, rfl, rfl, rfl, rfl, rfl, rfl, rfl, rfl⟩

@[simp] theorem modJob_keeps (j : JobNo) (f : Job → Job) (p : Part) :
    (modJob j f p).held = p.held ∧ (modJob j f p).setup = p.setup ∧ (modJob j f p).loader = p.loader ∧
    (modJob j f p).notices = p.notices ∧ (modJob j f p).pool = p.pool ∧
    (modJob j f p).stations = p.stations ∧ (modJob j f p).units = p.units ∧
    (modJob j f p).nodes = p.nodes ∧ (modJob j f p).engines = p.engines ∧ (modJob j f p).paths = p.paths ∧
    (modJob j f p).router = p.router ∧ (modJob j f p).toTrunk = p.toTrunk ∧
    (modJob j f p).submit = p.submit ∧ (modJob j f p).copy = p.copy ∧ (modJob j f p).queues = p.queues ∧
    (modJob j f p).stamp = p.stamp ∧ (modJob j f p).moveJob = p.moveJob ∧ (modJob j f p).ports = p.ports ∧
    (modJob j f p).sups = p.sups ∧ (modJob j f p).sense = p.sense ∧ (modJob j f p).switches = p.switches ∧
    (modJob j f p).branchSel = p.branchSel ∧ (modJob j f p).button = p.button ∧
    (modJob j f p).probe = p.probe ∧ (modJob j f p).records = p.records ∧
    (modJob j f p).writer = p.writer ∧ (modJob j f p).ring = p.ring ∧ (modJob j f p).arbiter = p.arbiter ∧
    (modJob j f p).hostWait = p.hostWait ∧ (modJob j f p).hostData = p.hostData ∧
    (modJob j f p).live = p.live ∧ (modJob j f p).lastBlocked = p.lastBlocked ∧
    (modJob j f p).snap = p.snap ∧ (modJob j f p).draws = p.draws := by
    refine ⟨rfl, rfl, rfl, rfl, rfl, rfl, rfl, rfl, rfl, rfl, rfl, rfl, rfl, rfl, rfl, rfl, rfl, rfl, rfl,
    rfl, rfl, rfl, rfl, rfl, rfl, rfl, rfl, rfl, rfl, rfl, rfl, rfl, rfl, rfl⟩

@[simp] theorem modQueue_keeps (k : Port) (f : List JobNo → List JobNo) (p : Part) :
    (modQueue k f p).held = p.held ∧ (modQueue k f p).setup = p.setup ∧
    (modQueue k f p).loader = p.loader ∧ (modQueue k f p).notices = p.notices ∧
    (modQueue k f p).pool = p.pool ∧ (modQueue k f p).stations = p.stations ∧
    (modQueue k f p).units = p.units ∧ (modQueue k f p).nodes = p.nodes ∧
    (modQueue k f p).engines = p.engines ∧ (modQueue k f p).paths = p.paths ∧
    (modQueue k f p).router = p.router ∧ (modQueue k f p).toTrunk = p.toTrunk ∧
    (modQueue k f p).submit = p.submit ∧ (modQueue k f p).copy = p.copy ∧ (modQueue k f p).jobs = p.jobs ∧
    (modQueue k f p).stamp = p.stamp ∧ (modQueue k f p).moveJob = p.moveJob ∧
    (modQueue k f p).ports = p.ports ∧ (modQueue k f p).sups = p.sups ∧ (modQueue k f p).sense = p.sense ∧
    (modQueue k f p).switches = p.switches ∧ (modQueue k f p).branchSel = p.branchSel ∧
    (modQueue k f p).button = p.button ∧ (modQueue k f p).probe = p.probe ∧
    (modQueue k f p).records = p.records ∧ (modQueue k f p).writer = p.writer ∧
    (modQueue k f p).ring = p.ring ∧ (modQueue k f p).arbiter = p.arbiter ∧
    (modQueue k f p).hostWait = p.hostWait ∧ (modQueue k f p).hostData = p.hostData ∧
    (modQueue k f p).live = p.live ∧ (modQueue k f p).lastBlocked = p.lastBlocked ∧
    (modQueue k f p).snap = p.snap ∧ (modQueue k f p).draws = p.draws := by
    refine ⟨rfl, rfl, rfl, rfl, rfl, rfl, rfl, rfl, rfl, rfl, rfl, rfl, rfl, rfl, rfl, rfl, rfl, rfl, rfl,
    rfl, rfl, rfl, rfl, rfl, rfl, rfl, rfl, rfl, rfl, rfl, rfl, rfl, rfl, rfl⟩

@[simp] theorem modPath_keeps (b : Branch) (f : List PathOp → List PathOp) (p : Part) :
    (modPath b f p).held = p.held ∧ (modPath b f p).setup = p.setup ∧ (modPath b f p).loader = p.loader ∧
    (modPath b f p).notices = p.notices ∧ (modPath b f p).pool = p.pool ∧
    (modPath b f p).stations = p.stations ∧ (modPath b f p).units = p.units ∧
    (modPath b f p).nodes = p.nodes ∧ (modPath b f p).engines = p.engines ∧
    (modPath b f p).router = p.router ∧ (modPath b f p).toTrunk = p.toTrunk ∧
    (modPath b f p).submit = p.submit ∧ (modPath b f p).copy = p.copy ∧ (modPath b f p).jobs = p.jobs ∧
    (modPath b f p).queues = p.queues ∧ (modPath b f p).stamp = p.stamp ∧
    (modPath b f p).moveJob = p.moveJob ∧ (modPath b f p).ports = p.ports ∧ (modPath b f p).sups = p.sups ∧
    (modPath b f p).sense = p.sense ∧ (modPath b f p).switches = p.switches ∧
    (modPath b f p).branchSel = p.branchSel ∧ (modPath b f p).button = p.button ∧
    (modPath b f p).probe = p.probe ∧ (modPath b f p).records = p.records ∧
    (modPath b f p).writer = p.writer ∧ (modPath b f p).ring = p.ring ∧
    (modPath b f p).arbiter = p.arbiter ∧ (modPath b f p).hostWait = p.hostWait ∧
    (modPath b f p).hostData = p.hostData ∧ (modPath b f p).live = p.live ∧
    (modPath b f p).lastBlocked = p.lastBlocked ∧ (modPath b f p).snap = p.snap ∧
    (modPath b f p).draws = p.draws := by
    refine ⟨rfl, rfl, rfl, rfl, rfl, rfl, rfl, rfl, rfl, rfl, rfl, rfl, rfl, rfl, rfl, rfl, rfl, rfl, rfl,
    rfl, rfl, rfl, rfl, rfl, rfl, rfl, rfl, rfl, rfl, rfl, rfl, rfl, rfl, rfl⟩

@[simp] theorem modStation_keeps (b : Branch) (n : StationNo) (f : Station → Station) (p : Part) :
    (modStation b n f p).held = p.held ∧ (modStation b n f p).setup = p.setup ∧
    (modStation b n f p).loader = p.loader ∧ (modStation b n f p).notices = p.notices ∧
    (modStation b n f p).pool = p.pool ∧ (modStation b n f p).units = p.units ∧
    (modStation b n f p).nodes = p.nodes ∧ (modStation b n f p).engines = p.engines ∧
    (modStation b n f p).paths = p.paths ∧ (modStation b n f p).router = p.router ∧
    (modStation b n f p).toTrunk = p.toTrunk ∧ (modStation b n f p).submit = p.submit ∧
    (modStation b n f p).copy = p.copy ∧ (modStation b n f p).jobs = p.jobs ∧
    (modStation b n f p).queues = p.queues ∧ (modStation b n f p).stamp = p.stamp ∧
    (modStation b n f p).moveJob = p.moveJob ∧ (modStation b n f p).ports = p.ports ∧
    (modStation b n f p).sups = p.sups ∧ (modStation b n f p).sense = p.sense ∧
    (modStation b n f p).switches = p.switches ∧ (modStation b n f p).branchSel = p.branchSel ∧
    (modStation b n f p).button = p.button ∧ (modStation b n f p).probe = p.probe ∧
    (modStation b n f p).records = p.records ∧ (modStation b n f p).writer = p.writer ∧
    (modStation b n f p).ring = p.ring ∧ (modStation b n f p).arbiter = p.arbiter ∧
    (modStation b n f p).hostWait = p.hostWait ∧ (modStation b n f p).hostData = p.hostData ∧
    (modStation b n f p).live = p.live ∧ (modStation b n f p).lastBlocked = p.lastBlocked ∧
    (modStation b n f p).snap = p.snap ∧ (modStation b n f p).draws = p.draws := by
    refine ⟨rfl, rfl, rfl, rfl, rfl, rfl, rfl, rfl, rfl, rfl, rfl, rfl, rfl, rfl, rfl, rfl, rfl, rfl, rfl,
    rfl, rfl, rfl, rfl, rfl, rfl, rfl, rfl, rfl, rfl, rfl, rfl, rfl, rfl, rfl⟩

@[simp] theorem modPool_keeps (f : Pool → Pool) (p : Part) :
    (modPool f p).held = p.held ∧ (modPool f p).setup = p.setup ∧ (modPool f p).loader = p.loader ∧
    (modPool f p).notices = p.notices ∧ (modPool f p).stations = p.stations ∧
    (modPool f p).units = p.units ∧ (modPool f p).nodes = p.nodes ∧ (modPool f p).engines = p.engines ∧
    (modPool f p).paths = p.paths ∧ (modPool f p).router = p.router ∧ (modPool f p).toTrunk = p.toTrunk ∧
    (modPool f p).submit = p.submit ∧ (modPool f p).copy = p.copy ∧ (modPool f p).jobs = p.jobs ∧
    (modPool f p).queues = p.queues ∧ (modPool f p).stamp = p.stamp ∧ (modPool f p).moveJob = p.moveJob ∧
    (modPool f p).ports = p.ports ∧ (modPool f p).sups = p.sups ∧ (modPool f p).sense = p.sense ∧
    (modPool f p).switches = p.switches ∧ (modPool f p).branchSel = p.branchSel ∧
    (modPool f p).button = p.button ∧ (modPool f p).probe = p.probe ∧ (modPool f p).records = p.records ∧
    (modPool f p).writer = p.writer ∧ (modPool f p).ring = p.ring ∧ (modPool f p).arbiter = p.arbiter ∧
    (modPool f p).hostWait = p.hostWait ∧ (modPool f p).hostData = p.hostData ∧
    (modPool f p).live = p.live ∧ (modPool f p).lastBlocked = p.lastBlocked ∧ (modPool f p).snap = p.snap ∧
    (modPool f p).draws = p.draws := by
    refine ⟨rfl, rfl, rfl, rfl, rfl, rfl, rfl, rfl, rfl, rfl, rfl, rfl, rfl, rfl, rfl, rfl, rfl, rfl, rfl,
    rfl, rfl, rfl, rfl, rfl, rfl, rfl, rfl, rfl, rfl, rfl, rfl, rfl, rfl, rfl⟩

@[simp] theorem modNotices_keeps (f : NoticeUnit → NoticeUnit) (p : Part) :
    (modNotices f p).held = p.held ∧ (modNotices f p).setup = p.setup ∧
    (modNotices f p).loader = p.loader ∧ (modNotices f p).pool = p.pool ∧
    (modNotices f p).stations = p.stations ∧ (modNotices f p).units = p.units ∧
    (modNotices f p).nodes = p.nodes ∧ (modNotices f p).engines = p.engines ∧
    (modNotices f p).paths = p.paths ∧ (modNotices f p).router = p.router ∧
    (modNotices f p).toTrunk = p.toTrunk ∧ (modNotices f p).submit = p.submit ∧
    (modNotices f p).copy = p.copy ∧ (modNotices f p).jobs = p.jobs ∧ (modNotices f p).queues = p.queues ∧
    (modNotices f p).stamp = p.stamp ∧ (modNotices f p).moveJob = p.moveJob ∧
    (modNotices f p).ports = p.ports ∧ (modNotices f p).sups = p.sups ∧ (modNotices f p).sense = p.sense ∧
    (modNotices f p).switches = p.switches ∧ (modNotices f p).branchSel = p.branchSel ∧
    (modNotices f p).button = p.button ∧ (modNotices f p).probe = p.probe ∧
    (modNotices f p).records = p.records ∧ (modNotices f p).writer = p.writer ∧
    (modNotices f p).ring = p.ring ∧ (modNotices f p).arbiter = p.arbiter ∧
    (modNotices f p).hostWait = p.hostWait ∧ (modNotices f p).hostData = p.hostData ∧
    (modNotices f p).live = p.live ∧ (modNotices f p).lastBlocked = p.lastBlocked ∧
    (modNotices f p).snap = p.snap ∧ (modNotices f p).draws = p.draws := by
    refine ⟨rfl, rfl, rfl, rfl, rfl, rfl, rfl, rfl, rfl, rfl, rfl, rfl, rfl, rfl, rfl, rfl, rfl, rfl, rfl,
    rfl, rfl, rfl, rfl, rfl, rfl, rfl, rfl, rfl, rfl, rfl, rfl, rfl, rfl, rfl⟩

@[simp] theorem modLoader_keeps (f : Loader → Loader) (p : Part) :
    (modLoader f p).held = p.held ∧ (modLoader f p).setup = p.setup ∧ (modLoader f p).notices = p.notices ∧
    (modLoader f p).pool = p.pool ∧ (modLoader f p).stations = p.stations ∧
    (modLoader f p).units = p.units ∧ (modLoader f p).nodes = p.nodes ∧
    (modLoader f p).engines = p.engines ∧ (modLoader f p).paths = p.paths ∧
    (modLoader f p).router = p.router ∧ (modLoader f p).toTrunk = p.toTrunk ∧
    (modLoader f p).submit = p.submit ∧ (modLoader f p).copy = p.copy ∧ (modLoader f p).jobs = p.jobs ∧
    (modLoader f p).queues = p.queues ∧ (modLoader f p).stamp = p.stamp ∧
    (modLoader f p).moveJob = p.moveJob ∧ (modLoader f p).ports = p.ports ∧ (modLoader f p).sups = p.sups ∧
    (modLoader f p).sense = p.sense ∧ (modLoader f p).switches = p.switches ∧
    (modLoader f p).branchSel = p.branchSel ∧ (modLoader f p).button = p.button ∧
    (modLoader f p).probe = p.probe ∧ (modLoader f p).records = p.records ∧
    (modLoader f p).writer = p.writer ∧ (modLoader f p).ring = p.ring ∧
    (modLoader f p).arbiter = p.arbiter ∧ (modLoader f p).hostWait = p.hostWait ∧
    (modLoader f p).hostData = p.hostData ∧ (modLoader f p).live = p.live ∧
    (modLoader f p).lastBlocked = p.lastBlocked ∧ (modLoader f p).snap = p.snap ∧
    (modLoader f p).draws = p.draws := by
    refine ⟨rfl, rfl, rfl, rfl, rfl, rfl, rfl, rfl, rfl, rfl, rfl, rfl, rfl, rfl, rfl, rfl, rfl, rfl, rfl,
    rfl, rfl, rfl, rfl, rfl, rfl, rfl, rfl, rfl, rfl, rfl, rfl, rfl, rfl, rfl⟩

@[simp] theorem modToTrunk_keeps (f : ToTrunkWalk → ToTrunkWalk) (p : Part) :
    (modToTrunk f p).held = p.held ∧ (modToTrunk f p).setup = p.setup ∧
    (modToTrunk f p).loader = p.loader ∧ (modToTrunk f p).notices = p.notices ∧
    (modToTrunk f p).pool = p.pool ∧ (modToTrunk f p).stations = p.stations ∧
    (modToTrunk f p).units = p.units ∧ (modToTrunk f p).nodes = p.nodes ∧
    (modToTrunk f p).engines = p.engines ∧ (modToTrunk f p).paths = p.paths ∧
    (modToTrunk f p).router = p.router ∧ (modToTrunk f p).submit = p.submit ∧
    (modToTrunk f p).copy = p.copy ∧ (modToTrunk f p).jobs = p.jobs ∧ (modToTrunk f p).queues = p.queues ∧
    (modToTrunk f p).stamp = p.stamp ∧ (modToTrunk f p).moveJob = p.moveJob ∧
    (modToTrunk f p).ports = p.ports ∧ (modToTrunk f p).sups = p.sups ∧ (modToTrunk f p).sense = p.sense ∧
    (modToTrunk f p).switches = p.switches ∧ (modToTrunk f p).branchSel = p.branchSel ∧
    (modToTrunk f p).button = p.button ∧ (modToTrunk f p).probe = p.probe ∧
    (modToTrunk f p).records = p.records ∧ (modToTrunk f p).writer = p.writer ∧
    (modToTrunk f p).ring = p.ring ∧ (modToTrunk f p).arbiter = p.arbiter ∧
    (modToTrunk f p).hostWait = p.hostWait ∧ (modToTrunk f p).hostData = p.hostData ∧
    (modToTrunk f p).live = p.live ∧ (modToTrunk f p).lastBlocked = p.lastBlocked ∧
    (modToTrunk f p).snap = p.snap ∧ (modToTrunk f p).draws = p.draws := by
    refine ⟨rfl, rfl, rfl, rfl, rfl, rfl, rfl, rfl, rfl, rfl, rfl, rfl, rfl, rfl, rfl, rfl, rfl, rfl, rfl,
    rfl, rfl, rfl, rfl, rfl, rfl, rfl, rfl, rfl, rfl, rfl, rfl, rfl, rfl, rfl⟩

@[simp] theorem modSubmit_keeps (f : SubmitWalk → SubmitWalk) (p : Part) :
    (modSubmit f p).held = p.held ∧ (modSubmit f p).setup = p.setup ∧ (modSubmit f p).loader = p.loader ∧
    (modSubmit f p).notices = p.notices ∧ (modSubmit f p).pool = p.pool ∧
    (modSubmit f p).stations = p.stations ∧ (modSubmit f p).units = p.units ∧
    (modSubmit f p).nodes = p.nodes ∧ (modSubmit f p).engines = p.engines ∧
    (modSubmit f p).paths = p.paths ∧ (modSubmit f p).router = p.router ∧
    (modSubmit f p).toTrunk = p.toTrunk ∧ (modSubmit f p).copy = p.copy ∧ (modSubmit f p).jobs = p.jobs ∧
    (modSubmit f p).queues = p.queues ∧ (modSubmit f p).stamp = p.stamp ∧
    (modSubmit f p).moveJob = p.moveJob ∧ (modSubmit f p).ports = p.ports ∧ (modSubmit f p).sups = p.sups ∧
    (modSubmit f p).sense = p.sense ∧ (modSubmit f p).switches = p.switches ∧
    (modSubmit f p).branchSel = p.branchSel ∧ (modSubmit f p).button = p.button ∧
    (modSubmit f p).probe = p.probe ∧ (modSubmit f p).records = p.records ∧
    (modSubmit f p).writer = p.writer ∧ (modSubmit f p).ring = p.ring ∧
    (modSubmit f p).arbiter = p.arbiter ∧ (modSubmit f p).hostWait = p.hostWait ∧
    (modSubmit f p).hostData = p.hostData ∧ (modSubmit f p).live = p.live ∧
    (modSubmit f p).lastBlocked = p.lastBlocked ∧ (modSubmit f p).snap = p.snap ∧
    (modSubmit f p).draws = p.draws := by
    refine ⟨rfl, rfl, rfl, rfl, rfl, rfl, rfl, rfl, rfl, rfl, rfl, rfl, rfl, rfl, rfl, rfl, rfl, rfl, rfl,
    rfl, rfl, rfl, rfl, rfl, rfl, rfl, rfl, rfl, rfl, rfl, rfl, rfl, rfl, rfl⟩

@[simp] theorem modCopy_keeps (f : CopyEngine → CopyEngine) (p : Part) :
    (modCopy f p).held = p.held ∧ (modCopy f p).setup = p.setup ∧ (modCopy f p).loader = p.loader ∧
    (modCopy f p).notices = p.notices ∧ (modCopy f p).pool = p.pool ∧ (modCopy f p).stations = p.stations ∧
    (modCopy f p).units = p.units ∧ (modCopy f p).nodes = p.nodes ∧ (modCopy f p).engines = p.engines ∧
    (modCopy f p).paths = p.paths ∧ (modCopy f p).router = p.router ∧ (modCopy f p).toTrunk = p.toTrunk ∧
    (modCopy f p).submit = p.submit ∧ (modCopy f p).jobs = p.jobs ∧ (modCopy f p).queues = p.queues ∧
    (modCopy f p).stamp = p.stamp ∧ (modCopy f p).moveJob = p.moveJob ∧ (modCopy f p).ports = p.ports ∧
    (modCopy f p).sups = p.sups ∧ (modCopy f p).sense = p.sense ∧ (modCopy f p).switches = p.switches ∧
    (modCopy f p).branchSel = p.branchSel ∧ (modCopy f p).button = p.button ∧
    (modCopy f p).probe = p.probe ∧ (modCopy f p).records = p.records ∧ (modCopy f p).writer = p.writer ∧
    (modCopy f p).ring = p.ring ∧ (modCopy f p).arbiter = p.arbiter ∧ (modCopy f p).hostWait = p.hostWait ∧
    (modCopy f p).hostData = p.hostData ∧ (modCopy f p).live = p.live ∧
      (modCopy f p).lastBlocked = p.lastBlocked ∧ (modCopy f p).snap = p.snap ∧ (modCopy f p).draws =
    p.draws := by
    refine ⟨rfl, rfl, rfl, rfl, rfl, rfl, rfl, rfl, rfl, rfl, rfl, rfl, rfl, rfl, rfl, rfl, rfl, rfl, rfl,
    rfl, rfl, rfl, rfl, rfl, rfl, rfl, rfl, rfl, rfl, rfl, rfl, rfl, rfl, rfl⟩

@[simp] theorem modSense_keeps (f : Sense → Sense) (p : Part) :
    (modSense f p).held = p.held ∧ (modSense f p).setup = p.setup ∧ (modSense f p).loader = p.loader ∧
    (modSense f p).notices = p.notices ∧ (modSense f p).pool = p.pool ∧
    (modSense f p).stations = p.stations ∧ (modSense f p).units = p.units ∧
    (modSense f p).nodes = p.nodes ∧ (modSense f p).engines = p.engines ∧ (modSense f p).paths = p.paths ∧
    (modSense f p).router = p.router ∧ (modSense f p).toTrunk = p.toTrunk ∧
    (modSense f p).submit = p.submit ∧ (modSense f p).copy = p.copy ∧ (modSense f p).jobs = p.jobs ∧
    (modSense f p).queues = p.queues ∧ (modSense f p).stamp = p.stamp ∧
    (modSense f p).moveJob = p.moveJob ∧ (modSense f p).ports = p.ports ∧ (modSense f p).sups = p.sups ∧
    (modSense f p).switches = p.switches ∧ (modSense f p).branchSel = p.branchSel ∧
    (modSense f p).button = p.button ∧ (modSense f p).probe = p.probe ∧
    (modSense f p).records = p.records ∧ (modSense f p).writer = p.writer ∧ (modSense f p).ring = p.ring ∧
    (modSense f p).arbiter = p.arbiter ∧ (modSense f p).hostWait = p.hostWait ∧
    (modSense f p).hostData = p.hostData ∧ (modSense f p).live = p.live ∧
    (modSense f p).lastBlocked = p.lastBlocked ∧ (modSense f p).snap = p.snap ∧
    (modSense f p).draws = p.draws := by
    refine ⟨rfl, rfl, rfl, rfl, rfl, rfl, rfl, rfl, rfl, rfl, rfl, rfl, rfl, rfl, rfl, rfl, rfl, rfl, rfl,
    rfl, rfl, rfl, rfl, rfl, rfl, rfl, rfl, rfl, rfl, rfl, rfl, rfl, rfl, rfl⟩

@[simp] theorem modProbe_keeps (f : ProbeUnit → ProbeUnit) (p : Part) :
    (modProbe f p).held = p.held ∧ (modProbe f p).setup = p.setup ∧ (modProbe f p).loader = p.loader ∧
    (modProbe f p).notices = p.notices ∧ (modProbe f p).pool = p.pool ∧
    (modProbe f p).stations = p.stations ∧ (modProbe f p).units = p.units ∧
    (modProbe f p).nodes = p.nodes ∧ (modProbe f p).engines = p.engines ∧ (modProbe f p).paths = p.paths ∧
    (modProbe f p).router = p.router ∧ (modProbe f p).toTrunk = p.toTrunk ∧
    (modProbe f p).submit = p.submit ∧ (modProbe f p).copy = p.copy ∧ (modProbe f p).jobs = p.jobs ∧
    (modProbe f p).queues = p.queues ∧ (modProbe f p).stamp = p.stamp ∧
    (modProbe f p).moveJob = p.moveJob ∧ (modProbe f p).ports = p.ports ∧ (modProbe f p).sups = p.sups ∧
    (modProbe f p).sense = p.sense ∧ (modProbe f p).switches = p.switches ∧
    (modProbe f p).branchSel = p.branchSel ∧ (modProbe f p).button = p.button ∧
    (modProbe f p).records = p.records ∧ (modProbe f p).writer = p.writer ∧ (modProbe f p).ring = p.ring ∧
    (modProbe f p).arbiter = p.arbiter ∧ (modProbe f p).hostWait = p.hostWait ∧
    (modProbe f p).hostData = p.hostData ∧ (modProbe f p).live = p.live ∧
    (modProbe f p).lastBlocked = p.lastBlocked ∧ (modProbe f p).snap = p.snap ∧
    (modProbe f p).draws = p.draws := by
    refine ⟨rfl, rfl, rfl, rfl, rfl, rfl, rfl, rfl, rfl, rfl, rfl, rfl, rfl, rfl, rfl, rfl, rfl, rfl, rfl,
    rfl, rfl, rfl, rfl, rfl, rfl, rfl, rfl, rfl, rfl, rfl, rfl, rfl, rfl, rfl⟩

@[simp] theorem modWriter_keeps (f : ImageWriter → ImageWriter) (p : Part) :
    (modWriter f p).held = p.held ∧ (modWriter f p).setup = p.setup ∧ (modWriter f p).loader = p.loader ∧
    (modWriter f p).notices = p.notices ∧ (modWriter f p).pool = p.pool ∧
    (modWriter f p).stations = p.stations ∧ (modWriter f p).units = p.units ∧
    (modWriter f p).nodes = p.nodes ∧ (modWriter f p).engines = p.engines ∧
    (modWriter f p).paths = p.paths ∧ (modWriter f p).router = p.router ∧
    (modWriter f p).toTrunk = p.toTrunk ∧ (modWriter f p).submit = p.submit ∧
    (modWriter f p).copy = p.copy ∧ (modWriter f p).jobs = p.jobs ∧ (modWriter f p).queues = p.queues ∧
    (modWriter f p).stamp = p.stamp ∧ (modWriter f p).moveJob = p.moveJob ∧
    (modWriter f p).ports = p.ports ∧ (modWriter f p).sups = p.sups ∧ (modWriter f p).sense = p.sense ∧
    (modWriter f p).switches = p.switches ∧ (modWriter f p).branchSel = p.branchSel ∧
    (modWriter f p).button = p.button ∧ (modWriter f p).probe = p.probe ∧
    (modWriter f p).records = p.records ∧ (modWriter f p).ring = p.ring ∧
    (modWriter f p).arbiter = p.arbiter ∧ (modWriter f p).hostWait = p.hostWait ∧
    (modWriter f p).hostData = p.hostData ∧ (modWriter f p).live = p.live ∧
    (modWriter f p).lastBlocked = p.lastBlocked ∧ (modWriter f p).snap = p.snap ∧
    (modWriter f p).draws = p.draws := by
    refine ⟨rfl, rfl, rfl, rfl, rfl, rfl, rfl, rfl, rfl, rfl, rfl, rfl, rfl, rfl, rfl, rfl, rfl, rfl, rfl,
    rfl, rfl, rfl, rfl, rfl, rfl, rfl, rfl, rfl, rfl, rfl, rfl, rfl, rfl, rfl⟩

@[simp] theorem modRing_keeps (f : List RingRead → List RingRead) (p : Part) :
    (modRing f p).held = p.held ∧ (modRing f p).setup = p.setup ∧ (modRing f p).loader = p.loader ∧
    (modRing f p).notices = p.notices ∧ (modRing f p).pool = p.pool ∧ (modRing f p).stations = p.stations ∧
    (modRing f p).units = p.units ∧ (modRing f p).nodes = p.nodes ∧ (modRing f p).engines = p.engines ∧
    (modRing f p).paths = p.paths ∧ (modRing f p).router = p.router ∧ (modRing f p).toTrunk = p.toTrunk ∧
    (modRing f p).submit = p.submit ∧ (modRing f p).copy = p.copy ∧ (modRing f p).jobs = p.jobs ∧
    (modRing f p).queues = p.queues ∧ (modRing f p).stamp = p.stamp ∧ (modRing f p).moveJob = p.moveJob ∧
    (modRing f p).ports = p.ports ∧ (modRing f p).sups = p.sups ∧ (modRing f p).sense = p.sense ∧
    (modRing f p).switches = p.switches ∧ (modRing f p).branchSel = p.branchSel ∧
    (modRing f p).button = p.button ∧ (modRing f p).probe = p.probe ∧ (modRing f p).records = p.records ∧
    (modRing f p).writer = p.writer ∧ (modRing f p).arbiter = p.arbiter ∧
    (modRing f p).hostWait = p.hostWait ∧ (modRing f p).hostData = p.hostData ∧
    (modRing f p).live = p.live ∧ (modRing f p).lastBlocked = p.lastBlocked ∧ (modRing f p).snap = p.snap ∧
    (modRing f p).draws = p.draws := by
    refine ⟨rfl, rfl, rfl, rfl, rfl, rfl, rfl, rfl, rfl, rfl, rfl, rfl, rfl, rfl, rfl, rfl, rfl, rfl, rfl,
    rfl, rfl, rfl, rfl, rfl, rfl, rfl, rfl, rfl, rfl, rfl, rfl, rfl, rfl, rfl⟩

@[simp] theorem modRouter_keeps (f : Router → Router) (p : Part) :
    (modRouter f p).held = p.held ∧ (modRouter f p).setup = p.setup ∧ (modRouter f p).loader = p.loader ∧
    (modRouter f p).notices = p.notices ∧ (modRouter f p).pool = p.pool ∧
    (modRouter f p).stations = p.stations ∧ (modRouter f p).units = p.units ∧
    (modRouter f p).nodes = p.nodes ∧ (modRouter f p).engines = p.engines ∧
    (modRouter f p).paths = p.paths ∧ (modRouter f p).toTrunk = p.toTrunk ∧
    (modRouter f p).submit = p.submit ∧ (modRouter f p).copy = p.copy ∧ (modRouter f p).jobs = p.jobs ∧
    (modRouter f p).queues = p.queues ∧ (modRouter f p).stamp = p.stamp ∧
    (modRouter f p).moveJob = p.moveJob ∧ (modRouter f p).ports = p.ports ∧ (modRouter f p).sups = p.sups ∧
    (modRouter f p).sense = p.sense ∧ (modRouter f p).switches = p.switches ∧
    (modRouter f p).branchSel = p.branchSel ∧ (modRouter f p).button = p.button ∧
    (modRouter f p).probe = p.probe ∧ (modRouter f p).records = p.records ∧
    (modRouter f p).writer = p.writer ∧ (modRouter f p).ring = p.ring ∧
    (modRouter f p).arbiter = p.arbiter ∧ (modRouter f p).hostWait = p.hostWait ∧
    (modRouter f p).hostData = p.hostData ∧ (modRouter f p).live = p.live ∧
    (modRouter f p).lastBlocked = p.lastBlocked ∧ (modRouter f p).snap = p.snap ∧
    (modRouter f p).draws = p.draws := by
    refine ⟨rfl, rfl, rfl, rfl, rfl, rfl, rfl, rfl, rfl, rfl, rfl, rfl, rfl, rfl, rfl, rfl, rfl, rfl, rfl,
    rfl, rfl, rfl, rfl, rfl, rfl, rfl, rfl, rfl, rfl, rfl, rfl, rfl, rfl, rfl⟩

@[simp] theorem modLive_keeps (f : LiveCopies → LiveCopies) (p : Part) :
    (modLive f p).held = p.held ∧ (modLive f p).setup = p.setup ∧ (modLive f p).loader = p.loader ∧
    (modLive f p).notices = p.notices ∧ (modLive f p).pool = p.pool ∧ (modLive f p).stations = p.stations ∧
    (modLive f p).units = p.units ∧ (modLive f p).nodes = p.nodes ∧ (modLive f p).engines = p.engines ∧
    (modLive f p).paths = p.paths ∧ (modLive f p).router = p.router ∧ (modLive f p).toTrunk = p.toTrunk ∧
    (modLive f p).submit = p.submit ∧ (modLive f p).copy = p.copy ∧ (modLive f p).jobs = p.jobs ∧
    (modLive f p).queues = p.queues ∧ (modLive f p).stamp = p.stamp ∧ (modLive f p).moveJob = p.moveJob ∧
    (modLive f p).ports = p.ports ∧ (modLive f p).sups = p.sups ∧ (modLive f p).sense = p.sense ∧
    (modLive f p).switches = p.switches ∧ (modLive f p).branchSel = p.branchSel ∧
    (modLive f p).button = p.button ∧ (modLive f p).probe = p.probe ∧ (modLive f p).records = p.records ∧
    (modLive f p).writer = p.writer ∧ (modLive f p).ring = p.ring ∧ (modLive f p).arbiter = p.arbiter ∧
    (modLive f p).hostWait = p.hostWait ∧ (modLive f p).hostData = p.hostData ∧
      (modLive f p).lastBlocked = p.lastBlocked ∧ (modLive f p).snap = p.snap ∧ (modLive f p).draws =
    p.draws := by
    refine ⟨rfl, rfl, rfl, rfl, rfl, rfl, rfl, rfl, rfl, rfl, rfl, rfl, rfl, rfl, rfl, rfl, rfl, rfl, rfl,
    rfl, rfl, rfl, rfl, rfl, rfl, rfl, rfl, rfl, rfl, rfl, rfl, rfl, rfl, rfl⟩

@[simp] theorem modSnap_keeps (f : SnapWindow → SnapWindow) (p : Part) :
    (modSnap f p).held = p.held ∧ (modSnap f p).setup = p.setup ∧ (modSnap f p).loader = p.loader ∧
    (modSnap f p).notices = p.notices ∧ (modSnap f p).pool = p.pool ∧ (modSnap f p).stations = p.stations ∧
    (modSnap f p).units = p.units ∧ (modSnap f p).nodes = p.nodes ∧ (modSnap f p).engines = p.engines ∧
    (modSnap f p).paths = p.paths ∧ (modSnap f p).router = p.router ∧ (modSnap f p).toTrunk = p.toTrunk ∧
    (modSnap f p).submit = p.submit ∧ (modSnap f p).copy = p.copy ∧ (modSnap f p).jobs = p.jobs ∧
    (modSnap f p).queues = p.queues ∧ (modSnap f p).stamp = p.stamp ∧ (modSnap f p).moveJob = p.moveJob ∧
    (modSnap f p).ports = p.ports ∧ (modSnap f p).sups = p.sups ∧ (modSnap f p).sense = p.sense ∧
    (modSnap f p).switches = p.switches ∧ (modSnap f p).branchSel = p.branchSel ∧
    (modSnap f p).button = p.button ∧ (modSnap f p).probe = p.probe ∧ (modSnap f p).records = p.records ∧
    (modSnap f p).writer = p.writer ∧ (modSnap f p).ring = p.ring ∧ (modSnap f p).arbiter = p.arbiter ∧
    (modSnap f p).hostWait = p.hostWait ∧ (modSnap f p).hostData = p.hostData ∧
      (modSnap f p).live = p.live ∧ (modSnap f p).lastBlocked = p.lastBlocked ∧ (modSnap f p).draws =
    p.draws := by
    refine ⟨rfl, rfl, rfl, rfl, rfl, rfl, rfl, rfl, rfl, rfl, rfl, rfl, rfl, rfl, rfl, rfl, rfl, rfl, rfl,
    rfl, rfl, rfl, rfl, rfl, rfl, rfl, rfl, rfl, rfl, rfl, rfl, rfl, rfl, rfl⟩

/-! ## The views of the tables an update keeps -/

@[simp] theorem modEngine_views (b : Branch) (f : Engine → Engine) (p : Part) :
    (∀ c, (modEngine b f p).switch c = p.switch c) ∧ (∀ c, (modEngine b f p).sup c = p.sup c) ∧
    (∀ c, (modEngine b f p).path c = p.path c) ∧ (∀ l, (modEngine b f p).port l = p.port l) ∧
    (∀ l, (modEngine b f p).queue l = p.queue l) ∧ (∀ i, (modEngine b f p).job i = p.job i) ∧
    (∀ c m, (modEngine b f p).station c m = p.station c m) ∧
    (∀ c, (modEngine b f p).branchSetup c = p.branchSetup c) ∧
    (∀ l, (modEngine b f p).printerSetup l = p.printerSetup l) := by
    refine ⟨fun _ => rfl, fun _ => rfl, fun _ => rfl, fun _ => rfl, fun _ => rfl, fun _ => rfl, fun _ _ =>
    rfl, fun _ => rfl, fun _ => rfl⟩

@[simp] theorem modSwitch_views (b : Branch) (f : Switch → Switch) (p : Part) :
    (∀ c, (modSwitch b f p).engine c = p.engine c) ∧ (∀ c, (modSwitch b f p).sup c = p.sup c) ∧
    (∀ c, (modSwitch b f p).path c = p.path c) ∧ (∀ l, (modSwitch b f p).port l = p.port l) ∧
    (∀ l, (modSwitch b f p).queue l = p.queue l) ∧ (∀ i, (modSwitch b f p).job i = p.job i) ∧
    (∀ c m, (modSwitch b f p).station c m = p.station c m) ∧
    (∀ c, (modSwitch b f p).branchSetup c = p.branchSetup c) ∧
    (∀ l, (modSwitch b f p).printerSetup l = p.printerSetup l) := by
    refine ⟨fun _ => rfl, fun _ => rfl, fun _ => rfl, fun _ => rfl, fun _ => rfl, fun _ => rfl, fun _ _ =>
    rfl, fun _ => rfl, fun _ => rfl⟩

@[simp] theorem modSup_views (b : Branch) (f : Supervisor → Supervisor) (p : Part) :
    (∀ c, (modSup b f p).engine c = p.engine c) ∧ (∀ c, (modSup b f p).switch c = p.switch c) ∧
    (∀ c, (modSup b f p).path c = p.path c) ∧ (∀ l, (modSup b f p).port l = p.port l) ∧
    (∀ l, (modSup b f p).queue l = p.queue l) ∧ (∀ i, (modSup b f p).job i = p.job i) ∧
    (∀ c m, (modSup b f p).station c m = p.station c m) ∧
    (∀ c, (modSup b f p).branchSetup c = p.branchSetup c) ∧
    (∀ l, (modSup b f p).printerSetup l = p.printerSetup l) := by
    refine ⟨fun _ => rfl, fun _ => rfl, fun _ => rfl, fun _ => rfl, fun _ => rfl, fun _ => rfl, fun _ _ =>
    rfl, fun _ => rfl, fun _ => rfl⟩

@[simp] theorem modPort_views (k : Port) (f : PrinterPort → PrinterPort) (p : Part) :
    (∀ c, (modPort k f p).engine c = p.engine c) ∧ (∀ c, (modPort k f p).switch c = p.switch c) ∧
    (∀ c, (modPort k f p).sup c = p.sup c) ∧ (∀ c, (modPort k f p).path c = p.path c) ∧
    (∀ l, (modPort k f p).queue l = p.queue l) ∧ (∀ i, (modPort k f p).job i = p.job i) ∧
    (∀ c m, (modPort k f p).station c m = p.station c m) ∧
    (∀ c, (modPort k f p).branchSetup c = p.branchSetup c) ∧
    (∀ l, (modPort k f p).printerSetup l = p.printerSetup l) := by
    refine ⟨fun _ => rfl, fun _ => rfl, fun _ => rfl, fun _ => rfl, fun _ => rfl, fun _ => rfl, fun _ _ =>
    rfl, fun _ => rfl, fun _ => rfl⟩

@[simp] theorem modJob_views (j : JobNo) (f : Job → Job) (p : Part) :
    (∀ c, (modJob j f p).engine c = p.engine c) ∧ (∀ c, (modJob j f p).switch c = p.switch c) ∧
    (∀ c, (modJob j f p).sup c = p.sup c) ∧ (∀ c, (modJob j f p).path c = p.path c) ∧
    (∀ l, (modJob j f p).port l = p.port l) ∧ (∀ l, (modJob j f p).queue l = p.queue l) ∧
    (∀ c m, (modJob j f p).station c m = p.station c m) ∧
    (∀ c, (modJob j f p).branchSetup c = p.branchSetup c) ∧
    (∀ l, (modJob j f p).printerSetup l = p.printerSetup l) := by
    refine ⟨fun _ => rfl, fun _ => rfl, fun _ => rfl, fun _ => rfl, fun _ => rfl, fun _ => rfl, fun _ _ =>
    rfl, fun _ => rfl, fun _ => rfl⟩

@[simp] theorem modQueue_views (k : Port) (f : List JobNo → List JobNo) (p : Part) :
    (∀ c, (modQueue k f p).engine c = p.engine c) ∧ (∀ c, (modQueue k f p).switch c = p.switch c) ∧
    (∀ c, (modQueue k f p).sup c = p.sup c) ∧ (∀ c, (modQueue k f p).path c = p.path c) ∧
    (∀ l, (modQueue k f p).port l = p.port l) ∧ (∀ i, (modQueue k f p).job i = p.job i) ∧
    (∀ c m, (modQueue k f p).station c m = p.station c m) ∧
    (∀ c, (modQueue k f p).branchSetup c = p.branchSetup c) ∧
    (∀ l, (modQueue k f p).printerSetup l = p.printerSetup l) := by
    refine ⟨fun _ => rfl, fun _ => rfl, fun _ => rfl, fun _ => rfl, fun _ => rfl, fun _ => rfl, fun _ _ =>
    rfl, fun _ => rfl, fun _ => rfl⟩

@[simp] theorem modPath_views (b : Branch) (f : List PathOp → List PathOp) (p : Part) :
    (∀ c, (modPath b f p).engine c = p.engine c) ∧ (∀ c, (modPath b f p).switch c = p.switch c) ∧
    (∀ c, (modPath b f p).sup c = p.sup c) ∧ (∀ l, (modPath b f p).port l = p.port l) ∧
    (∀ l, (modPath b f p).queue l = p.queue l) ∧ (∀ i, (modPath b f p).job i = p.job i) ∧
    (∀ c m, (modPath b f p).station c m = p.station c m) ∧
    (∀ c, (modPath b f p).branchSetup c = p.branchSetup c) ∧
    (∀ l, (modPath b f p).printerSetup l = p.printerSetup l) := by
    refine ⟨fun _ => rfl, fun _ => rfl, fun _ => rfl, fun _ => rfl, fun _ => rfl, fun _ => rfl, fun _ _ =>
    rfl, fun _ => rfl, fun _ => rfl⟩

@[simp] theorem modStation_views (b : Branch) (n : StationNo) (f : Station → Station) (p : Part) :
    (∀ c, (modStation b n f p).engine c = p.engine c) ∧ (∀ c, (modStation b n f p).switch c = p.switch c) ∧
    (∀ c, (modStation b n f p).sup c = p.sup c) ∧ (∀ c, (modStation b n f p).path c = p.path c) ∧
    (∀ l, (modStation b n f p).port l = p.port l) ∧ (∀ l, (modStation b n f p).queue l = p.queue l) ∧
    (∀ i, (modStation b n f p).job i = p.job i) ∧
    (∀ c, (modStation b n f p).branchSetup c = p.branchSetup c) ∧
    (∀ l, (modStation b n f p).printerSetup l = p.printerSetup l) := by
    refine ⟨fun _ => rfl, fun _ => rfl, fun _ => rfl, fun _ => rfl, fun _ => rfl, fun _ => rfl, fun _ =>
    rfl, fun _ => rfl, fun _ => rfl⟩

@[simp] theorem modPool_views (f : Pool → Pool) (p : Part) :
    (∀ c, (modPool f p).engine c = p.engine c) ∧ (∀ c, (modPool f p).switch c = p.switch c) ∧
    (∀ c, (modPool f p).sup c = p.sup c) ∧ (∀ c, (modPool f p).path c = p.path c) ∧
    (∀ l, (modPool f p).port l = p.port l) ∧ (∀ l, (modPool f p).queue l = p.queue l) ∧
    (∀ i, (modPool f p).job i = p.job i) ∧ (∀ c m, (modPool f p).station c m = p.station c m) ∧
    (∀ c, (modPool f p).branchSetup c = p.branchSetup c) ∧
    (∀ l, (modPool f p).printerSetup l = p.printerSetup l) := by
    refine ⟨fun _ => rfl, fun _ => rfl, fun _ => rfl, fun _ => rfl, fun _ => rfl, fun _ => rfl, fun _ =>
    rfl, fun _ _ => rfl, fun _ => rfl, fun _ => rfl⟩

@[simp] theorem modNotices_views (f : NoticeUnit → NoticeUnit) (p : Part) :
    (∀ c, (modNotices f p).engine c = p.engine c) ∧ (∀ c, (modNotices f p).switch c = p.switch c) ∧
    (∀ c, (modNotices f p).sup c = p.sup c) ∧ (∀ c, (modNotices f p).path c = p.path c) ∧
    (∀ l, (modNotices f p).port l = p.port l) ∧ (∀ l, (modNotices f p).queue l = p.queue l) ∧
    (∀ i, (modNotices f p).job i = p.job i) ∧ (∀ c m, (modNotices f p).station c m = p.station c m) ∧
    (∀ c, (modNotices f p).branchSetup c = p.branchSetup c) ∧
    (∀ l, (modNotices f p).printerSetup l = p.printerSetup l) := by
    refine ⟨fun _ => rfl, fun _ => rfl, fun _ => rfl, fun _ => rfl, fun _ => rfl, fun _ => rfl, fun _ =>
    rfl, fun _ _ => rfl, fun _ => rfl, fun _ => rfl⟩

@[simp] theorem modLoader_views (f : Loader → Loader) (p : Part) :
    (∀ c, (modLoader f p).engine c = p.engine c) ∧ (∀ c, (modLoader f p).switch c = p.switch c) ∧
    (∀ c, (modLoader f p).sup c = p.sup c) ∧ (∀ c, (modLoader f p).path c = p.path c) ∧
    (∀ l, (modLoader f p).port l = p.port l) ∧ (∀ l, (modLoader f p).queue l = p.queue l) ∧
    (∀ i, (modLoader f p).job i = p.job i) ∧ (∀ c m, (modLoader f p).station c m = p.station c m) ∧
    (∀ c, (modLoader f p).branchSetup c = p.branchSetup c) ∧
    (∀ l, (modLoader f p).printerSetup l = p.printerSetup l) := by
    refine ⟨fun _ => rfl, fun _ => rfl, fun _ => rfl, fun _ => rfl, fun _ => rfl, fun _ => rfl, fun _ =>
    rfl, fun _ _ => rfl, fun _ => rfl, fun _ => rfl⟩

@[simp] theorem modToTrunk_views (f : ToTrunkWalk → ToTrunkWalk) (p : Part) :
    (∀ c, (modToTrunk f p).engine c = p.engine c) ∧ (∀ c, (modToTrunk f p).switch c = p.switch c) ∧
    (∀ c, (modToTrunk f p).sup c = p.sup c) ∧ (∀ c, (modToTrunk f p).path c = p.path c) ∧
    (∀ l, (modToTrunk f p).port l = p.port l) ∧ (∀ l, (modToTrunk f p).queue l = p.queue l) ∧
    (∀ i, (modToTrunk f p).job i = p.job i) ∧ (∀ c m, (modToTrunk f p).station c m = p.station c m) ∧
    (∀ c, (modToTrunk f p).branchSetup c = p.branchSetup c) ∧
    (∀ l, (modToTrunk f p).printerSetup l = p.printerSetup l) := by
    refine ⟨fun _ => rfl, fun _ => rfl, fun _ => rfl, fun _ => rfl, fun _ => rfl, fun _ => rfl, fun _ =>
    rfl, fun _ _ => rfl, fun _ => rfl, fun _ => rfl⟩

@[simp] theorem modSubmit_views (f : SubmitWalk → SubmitWalk) (p : Part) :
    (∀ c, (modSubmit f p).engine c = p.engine c) ∧ (∀ c, (modSubmit f p).switch c = p.switch c) ∧
    (∀ c, (modSubmit f p).sup c = p.sup c) ∧ (∀ c, (modSubmit f p).path c = p.path c) ∧
    (∀ l, (modSubmit f p).port l = p.port l) ∧ (∀ l, (modSubmit f p).queue l = p.queue l) ∧
    (∀ i, (modSubmit f p).job i = p.job i) ∧ (∀ c m, (modSubmit f p).station c m = p.station c m) ∧
    (∀ c, (modSubmit f p).branchSetup c = p.branchSetup c) ∧
    (∀ l, (modSubmit f p).printerSetup l = p.printerSetup l) := by
    refine ⟨fun _ => rfl, fun _ => rfl, fun _ => rfl, fun _ => rfl, fun _ => rfl, fun _ => rfl, fun _ =>
    rfl, fun _ _ => rfl, fun _ => rfl, fun _ => rfl⟩

@[simp] theorem modCopy_views (f : CopyEngine → CopyEngine) (p : Part) :
    (∀ c, (modCopy f p).engine c = p.engine c) ∧ (∀ c, (modCopy f p).switch c = p.switch c) ∧
    (∀ c, (modCopy f p).sup c = p.sup c) ∧ (∀ c, (modCopy f p).path c = p.path c) ∧
    (∀ l, (modCopy f p).port l = p.port l) ∧ (∀ l, (modCopy f p).queue l = p.queue l) ∧
    (∀ i, (modCopy f p).job i = p.job i) ∧ (∀ c m, (modCopy f p).station c m = p.station c m) ∧
    (∀ c, (modCopy f p).branchSetup c = p.branchSetup c) ∧
    (∀ l, (modCopy f p).printerSetup l = p.printerSetup l) := by
    refine ⟨fun _ => rfl, fun _ => rfl, fun _ => rfl, fun _ => rfl, fun _ => rfl, fun _ => rfl, fun _ =>
    rfl, fun _ _ => rfl, fun _ => rfl, fun _ => rfl⟩

@[simp] theorem modSense_views (f : Sense → Sense) (p : Part) :
    (∀ c, (modSense f p).engine c = p.engine c) ∧ (∀ c, (modSense f p).switch c = p.switch c) ∧
    (∀ c, (modSense f p).sup c = p.sup c) ∧ (∀ c, (modSense f p).path c = p.path c) ∧
    (∀ l, (modSense f p).port l = p.port l) ∧ (∀ l, (modSense f p).queue l = p.queue l) ∧
    (∀ i, (modSense f p).job i = p.job i) ∧ (∀ c m, (modSense f p).station c m = p.station c m) ∧
    (∀ c, (modSense f p).branchSetup c = p.branchSetup c) ∧
    (∀ l, (modSense f p).printerSetup l = p.printerSetup l) := by
    refine ⟨fun _ => rfl, fun _ => rfl, fun _ => rfl, fun _ => rfl, fun _ => rfl, fun _ => rfl, fun _ =>
    rfl, fun _ _ => rfl, fun _ => rfl, fun _ => rfl⟩

@[simp] theorem modProbe_views (f : ProbeUnit → ProbeUnit) (p : Part) :
    (∀ c, (modProbe f p).engine c = p.engine c) ∧ (∀ c, (modProbe f p).switch c = p.switch c) ∧
    (∀ c, (modProbe f p).sup c = p.sup c) ∧ (∀ c, (modProbe f p).path c = p.path c) ∧
    (∀ l, (modProbe f p).port l = p.port l) ∧ (∀ l, (modProbe f p).queue l = p.queue l) ∧
    (∀ i, (modProbe f p).job i = p.job i) ∧ (∀ c m, (modProbe f p).station c m = p.station c m) ∧
    (∀ c, (modProbe f p).branchSetup c = p.branchSetup c) ∧
    (∀ l, (modProbe f p).printerSetup l = p.printerSetup l) := by
    refine ⟨fun _ => rfl, fun _ => rfl, fun _ => rfl, fun _ => rfl, fun _ => rfl, fun _ => rfl, fun _ =>
    rfl, fun _ _ => rfl, fun _ => rfl, fun _ => rfl⟩

@[simp] theorem modWriter_views (f : ImageWriter → ImageWriter) (p : Part) :
    (∀ c, (modWriter f p).engine c = p.engine c) ∧ (∀ c, (modWriter f p).switch c = p.switch c) ∧
    (∀ c, (modWriter f p).sup c = p.sup c) ∧ (∀ c, (modWriter f p).path c = p.path c) ∧
    (∀ l, (modWriter f p).port l = p.port l) ∧ (∀ l, (modWriter f p).queue l = p.queue l) ∧
    (∀ i, (modWriter f p).job i = p.job i) ∧ (∀ c m, (modWriter f p).station c m = p.station c m) ∧
    (∀ c, (modWriter f p).branchSetup c = p.branchSetup c) ∧
    (∀ l, (modWriter f p).printerSetup l = p.printerSetup l) := by
    refine ⟨fun _ => rfl, fun _ => rfl, fun _ => rfl, fun _ => rfl, fun _ => rfl, fun _ => rfl, fun _ =>
    rfl, fun _ _ => rfl, fun _ => rfl, fun _ => rfl⟩

@[simp] theorem modRing_views (f : List RingRead → List RingRead) (p : Part) :
    (∀ c, (modRing f p).engine c = p.engine c) ∧ (∀ c, (modRing f p).switch c = p.switch c) ∧
    (∀ c, (modRing f p).sup c = p.sup c) ∧ (∀ c, (modRing f p).path c = p.path c) ∧
    (∀ l, (modRing f p).port l = p.port l) ∧ (∀ l, (modRing f p).queue l = p.queue l) ∧
    (∀ i, (modRing f p).job i = p.job i) ∧ (∀ c m, (modRing f p).station c m = p.station c m) ∧
    (∀ c, (modRing f p).branchSetup c = p.branchSetup c) ∧
    (∀ l, (modRing f p).printerSetup l = p.printerSetup l) := by
    refine ⟨fun _ => rfl, fun _ => rfl, fun _ => rfl, fun _ => rfl, fun _ => rfl, fun _ => rfl, fun _ =>
    rfl, fun _ _ => rfl, fun _ => rfl, fun _ => rfl⟩

@[simp] theorem modRouter_views (f : Router → Router) (p : Part) :
    (∀ c, (modRouter f p).engine c = p.engine c) ∧ (∀ c, (modRouter f p).switch c = p.switch c) ∧
    (∀ c, (modRouter f p).sup c = p.sup c) ∧ (∀ c, (modRouter f p).path c = p.path c) ∧
    (∀ l, (modRouter f p).port l = p.port l) ∧ (∀ l, (modRouter f p).queue l = p.queue l) ∧
    (∀ i, (modRouter f p).job i = p.job i) ∧ (∀ c m, (modRouter f p).station c m = p.station c m) ∧
    (∀ c, (modRouter f p).branchSetup c = p.branchSetup c) ∧
    (∀ l, (modRouter f p).printerSetup l = p.printerSetup l) := by
    refine ⟨fun _ => rfl, fun _ => rfl, fun _ => rfl, fun _ => rfl, fun _ => rfl, fun _ => rfl, fun _ =>
    rfl, fun _ _ => rfl, fun _ => rfl, fun _ => rfl⟩

@[simp] theorem modLive_views (f : LiveCopies → LiveCopies) (p : Part) :
    (∀ c, (modLive f p).engine c = p.engine c) ∧ (∀ c, (modLive f p).switch c = p.switch c) ∧
    (∀ c, (modLive f p).sup c = p.sup c) ∧ (∀ c, (modLive f p).path c = p.path c) ∧
    (∀ l, (modLive f p).port l = p.port l) ∧ (∀ l, (modLive f p).queue l = p.queue l) ∧
    (∀ i, (modLive f p).job i = p.job i) ∧ (∀ c m, (modLive f p).station c m = p.station c m) ∧
    (∀ c, (modLive f p).branchSetup c = p.branchSetup c) ∧
    (∀ l, (modLive f p).printerSetup l = p.printerSetup l) := by
    refine ⟨fun _ => rfl, fun _ => rfl, fun _ => rfl, fun _ => rfl, fun _ => rfl, fun _ => rfl, fun _ =>
    rfl, fun _ _ => rfl, fun _ => rfl, fun _ => rfl⟩

@[simp] theorem modSnap_views (f : SnapWindow → SnapWindow) (p : Part) :
    (∀ c, (modSnap f p).engine c = p.engine c) ∧ (∀ c, (modSnap f p).switch c = p.switch c) ∧
    (∀ c, (modSnap f p).sup c = p.sup c) ∧ (∀ c, (modSnap f p).path c = p.path c) ∧
    (∀ l, (modSnap f p).port l = p.port l) ∧ (∀ l, (modSnap f p).queue l = p.queue l) ∧
    (∀ i, (modSnap f p).job i = p.job i) ∧ (∀ c m, (modSnap f p).station c m = p.station c m) ∧
    (∀ c, (modSnap f p).branchSetup c = p.branchSetup c) ∧
    (∀ l, (modSnap f p).printerSetup l = p.printerSetup l) := by
    refine ⟨fun _ => rfl, fun _ => rfl, fun _ => rfl, fun _ => rfl, fun _ => rfl, fun _ => rfl, fun _ =>
    rfl, fun _ _ => rfl, fun _ => rfl, fun _ => rfl⟩

/-! ## An accessor depends on its own field alone -/

theorem engine_def (p : Part) (b : Branch) : p.engine b = p.engines.get b := rfl
theorem switch_def (p : Part) (b : Branch) : p.switch b = p.switches.get b := rfl
theorem sup_def (p : Part) (b : Branch) : p.sup b = p.sups.get b := rfl
theorem port_def (p : Part) (k : Port) : p.port k = p.ports.get k := rfl
theorem job_def (p : Part) (j : JobNo) : p.job j = p.jobs.get j := rfl
theorem queue_def (p : Part) (k : Port) : p.queue k = p.queues.get k := rfl
theorem path_def (p : Part) (b : Branch) : p.path b = p.paths.get b := rfl
theorem station_def (p : Part) (b : Branch) (n : StationNo) : p.station b n = p.stations.get (stationIx b n) := rfl
theorem branchSetup_def (p : Part) (b : Branch) : p.branchSetup b = p.setup.branch.get b := rfl
theorem printerSetup_def (p : Part) (k : Port) : p.printerSetup k = p.setup.printer.get k := rfl

end Machine.Part

end Sys2Proof
end

