-- ==== Sys2Proof/Laws/Ops.lean ====
section
/-! SUPPORT. What each shared operation changes: for each the fields of the part that it keeps, and for the
basic ones the value of what they change. Later proofs cite these and do not unfold the operation. -/

namespace Sys2Proof.Machine

/-- A view that every round of `each` keeps, `each` keeps. -/
theorem each_keeps_view {α β : Type} (view : Part → β) (l : List α) (f : α → Part → Part)
    (h : ∀ x p, view (f x p) = view p) (p : Part) : view (each l f p) = view p := by
  unfold each
  induction l generalizing p with
  | nil => rfl
  | cons x r ih => simp only [List.foldl_cons]; rw [ih, h]

/-- A property that every round of `each` keeps, `each` keeps. -/
theorem each_keeps_prop {α : Type} (P : Part → Prop) (l : List α) (f : α → Part → Part)
    (h : ∀ x p, P p → P (f x p)) (p : Part) (hp : P p) : P (each l f p) := by
  unfold each
  induction l generalizing p with
  | nil => exact hp
  | cons x r ih => simp only [List.foldl_cons]; exact ih _ (h x p hp)

namespace Part

/-! ## Shapes of a meaning -/

theorem awake_held (f : Part → Part) (p : Part) (h : p.held = true) : awake f p = p := by simp [awake, h]

theorem awake_running (f : Part → Part) (p : Part) (h : p.held = false) : awake f p = f p := by
  simp [awake, h]

/-- A command taken: the bus carries it and start-up initialisation is over. -/
theorem command_taken (code : Byte) (act : Part → Part) (p : Part) (h1 : p.held = false)
    (h2 : p.hostWait = none) (h3 : p.loader.startState ≠ .init) : command code act p = act p := by
  simp [command, busFree, h1, h2, h3]

/-- A command during start-up initialisation is refused with INIT. -/
theorem command_init (code : Byte) (act : Part → Part) (p : Part) (h1 : p.held = false)
    (h2 : p.hostWait = none) (h3 : p.loader.startState = .init) :
    command code act p = refuse .init code p := by
  simp [command, busFree, h1, h2, h3]

/-! ## Notices -/

@[simp] theorem setNotices_notices (bits : BitVec 16) (p : Part) :
    (setNotices bits p).notices = { p.notices with latches := p.notices.latches ||| bits } := rfl

@[simp] theorem notify_notices (n : Notice) (p : Part) :
    (notify n p).notices = { p.notices with latches := p.notices.latches ||| n.bit } := rfl

@[simp] theorem refuse_notices (r : Reason) (code : Byte) (p : Part) :
    (refuse r code p).notices =
      { latches := p.notices.latches ||| Notice.refused.bit, reason := some r, code := code } := rfl

@[simp] theorem requestWrite_writer (w : ImgWrite) (p : Part) :
    (requestWrite w p).writer = { p.writer with queue := enqueueWrite w p.writer.queue } := rfl

@[simp] theorem freeBuffer_pool (buf : BufNo) (p : Part) :
    (freeBuffer buf p).pool = { p.pool with free := p.pool.free ++ [buf] } := rfl

@[simp] theorem takeHead_pool (p : Part) :
    p.takeHead.pool = { p.pool with free := p.pool.free.tail } := by
  simp only [takeHead]; split <;> rfl

@[simp] theorem updJob_jobs (j : JobNo) (f : Job → Job) (n : BitVec 16) (p : Part) :
    (updJob j f n p).jobs = put p.jobs j (f (p.job j)) := rfl

@[simp] theorem updStation_stations (b : Branch) (n : StationNo) (f : Station → Station) (p : Part) :
    (updStation b n f p).stations = put p.stations (stationIx b n) (f (p.station b n)) := by
  unfold updStation
  split
  · rename_i h; rw [h, station_def, put_get_self]
  · rfl


@[simp] theorem job_updJob_self (j : JobNo) (f : Job → Job) (n : BitVec 16) (p : Part) :
    (updJob j f n p).job j = f (p.job j) := by simp [job_def]

theorem job_updJob_ne (j i : JobNo) (f : Job → Job) (n : BitVec 16) (p : Part) (h : i ≠ j) :
    (updJob j f n p).job i = p.job i := by simp [job_def, get_put_ne _ _ _ _ h]

@[simp] theorem station_updStation_self (b : Branch) (n : StationNo) (f : Station → Station) (p : Part) :
    (updStation b n f p).station b n = f (p.station b n) := by simp [station_def]

theorem stationIx_inj (b c : Branch) (n m : StationNo) (h : stationIx b n = stationIx c m) : b = c ∧ n = m := by
  simp only [stationIx, Fin.mk.injEq] at h
  constructor <;> apply Fin.ext <;> omega

theorem station_updStation_ne (b c : Branch) (n m : StationNo) (f : Station → Station) (p : Part)
    (h : (c, m) ≠ (b, n)) : (updStation b n f p).station c m = p.station c m := by
  have h' : stationIx c m ≠ stationIx b n := fun e => h (by
    obtain ⟨e1, e2⟩ := stationIx_inj _ _ _ _ e
    rw [e1, e2])
  simp [station_def, get_put_ne _ _ _ _ h']

@[simp] theorem freeBuffers_pool (l : List BufNo) (p : Part) :
    (freeBuffers l p).pool = { p.pool with free := p.pool.free ++ l } := by
  unfold freeBuffers each
  induction l generalizing p with
  | nil => simp
  | cons x r ih => simp only [List.foldl_cons, ih, freeBuffer_pool, List.append_assoc, List.singleton_append]

/-- The entry a request leaves in the queue is found under its record. -/
theorem enqueueWrite_mem (w : ImgWrite) (l : List ImgWrite) : ∃ x ∈ enqueueWrite w l, x.record = w.record := by
  induction l with
  | nil => exact ⟨w, by simp [enqueueWrite], rfl⟩
  | cons y r ih =>
    simp only [enqueueWrite]
    split
    · rename_i h
      exact ⟨y.merge w, by simp, by simp [ImgWrite.merge, h]⟩
    · obtain ⟨x, hx, hr⟩ := ih
      exact ⟨x, by simp [hx], hr⟩

/-! ## The fields each operation keeps -/

@[simp] theorem setNotices_keeps (bits : BitVec 16) (p : Part) :
    (setNotices bits p).held = p.held ∧ (setNotices bits p).setup = p.setup ∧
    (setNotices bits p).loader = p.loader ∧ (setNotices bits p).pool = p.pool ∧
    (setNotices bits p).stations = p.stations ∧ (setNotices bits p).units = p.units ∧
    (setNotices bits p).nodes = p.nodes ∧ (setNotices bits p).engines = p.engines ∧
    (setNotices bits p).paths = p.paths ∧ (setNotices bits p).router = p.router ∧
    (setNotices bits p).toTrunk = p.toTrunk ∧ (setNotices bits p).submit = p.submit ∧
    (setNotices bits p).copy = p.copy ∧ (setNotices bits p).jobs = p.jobs ∧
    (setNotices bits p).queues = p.queues ∧ (setNotices bits p).stamp = p.stamp ∧
    (setNotices bits p).moveJob = p.moveJob ∧ (setNotices bits p).ports = p.ports ∧
    (setNotices bits p).sups = p.sups ∧ (setNotices bits p).sense = p.sense ∧
    (setNotices bits p).switches = p.switches ∧ (setNotices bits p).branchSel = p.branchSel ∧
    (setNotices bits p).button = p.button ∧ (setNotices bits p).probe = p.probe ∧
    (setNotices bits p).records = p.records ∧ (setNotices bits p).writer = p.writer ∧
    (setNotices bits p).ring = p.ring ∧
    (setNotices bits p).arbiter = p.arbiter ∧ (setNotices bits p).hostWait = p.hostWait ∧
    (setNotices bits p).hostData = p.hostData ∧ (setNotices bits p).live = p.live ∧
    (setNotices bits p).lastBlocked = p.lastBlocked ∧ (setNotices bits p).snap = p.snap ∧
    (setNotices bits p).draws = p.draws := by
  refine ⟨rfl, rfl, rfl, rfl, rfl, rfl, rfl, rfl, rfl, rfl, rfl, rfl, rfl, rfl, rfl, rfl, rfl, rfl, rfl, rfl,
    rfl, rfl, rfl, rfl, rfl, rfl, rfl, rfl, rfl, rfl, rfl, rfl, rfl, rfl⟩

@[simp] theorem setNotices_views (bits : BitVec 16) (p : Part) :
    (∀ y, (setNotices bits p).engine y = p.engine y) ∧ (∀ y, (setNotices bits p).switch y = p.switch y) ∧
    (∀ y, (setNotices bits p).sup y = p.sup y) ∧ (∀ y, (setNotices bits p).path y = p.path y) ∧
    (∀ y, (setNotices bits p).port y = p.port y) ∧ (∀ y, (setNotices bits p).queue y = p.queue y) ∧
    (∀ y, (setNotices bits p).job y = p.job y) ∧ (∀ y z, (setNotices bits p).station y z = p.station y z) ∧
    (∀ y, (setNotices bits p).branchSetup y = p.branchSetup y) ∧
    (∀ y, (setNotices bits p).printerSetup y = p.printerSetup y) := by
  refine ⟨fun _ => by simp [engine], fun _ => by simp [switch], fun _ => by simp [sup],
    fun _ => by simp [path], fun _ => by simp [port], fun _ => by simp [queue], fun _ => by simp [job],
    fun _ _ => by simp [station], fun _ => by simp [branchSetup], fun _ => by simp [printerSetup]⟩

@[simp] theorem notify_keeps (n : Notice) (p : Part) :
    (notify n p).held = p.held ∧ (notify n p).setup = p.setup ∧ (notify n p).loader = p.loader ∧
    (notify n p).pool = p.pool ∧ (notify n p).stations = p.stations ∧ (notify n p).units = p.units ∧
    (notify n p).nodes = p.nodes ∧ (notify n p).engines = p.engines ∧ (notify n p).paths = p.paths ∧
    (notify n p).router = p.router ∧ (notify n p).toTrunk = p.toTrunk ∧ (notify n p).submit = p.submit ∧
    (notify n p).copy = p.copy ∧ (notify n p).jobs = p.jobs ∧ (notify n p).queues = p.queues ∧
    (notify n p).stamp = p.stamp ∧ (notify n p).moveJob = p.moveJob ∧ (notify n p).ports = p.ports ∧
    (notify n p).sups = p.sups ∧ (notify n p).sense = p.sense ∧ (notify n p).switches = p.switches ∧
    (notify n p).branchSel = p.branchSel ∧ (notify n p).button = p.button ∧ (notify n p).probe = p.probe ∧
    (notify n p).records = p.records ∧ (notify n p).writer = p.writer ∧ (notify n p).ring = p.ring ∧
    (notify n p).arbiter = p.arbiter ∧
    (notify n p).hostWait = p.hostWait ∧ (notify n p).hostData = p.hostData ∧ (notify n p).live = p.live ∧
    (notify n p).lastBlocked = p.lastBlocked ∧ (notify n p).snap = p.snap ∧ (notify n p).draws = p.draws := by
  refine ⟨rfl, rfl, rfl, rfl, rfl, rfl, rfl, rfl, rfl, rfl, rfl, rfl, rfl, rfl, rfl, rfl, rfl, rfl, rfl, rfl,
    rfl, rfl, rfl, rfl, rfl, rfl, rfl, rfl, rfl, rfl, rfl, rfl, rfl, rfl⟩

@[simp] theorem notify_views (n : Notice) (p : Part) :
    (∀ y, (notify n p).engine y = p.engine y) ∧ (∀ y, (notify n p).switch y = p.switch y) ∧
    (∀ y, (notify n p).sup y = p.sup y) ∧ (∀ y, (notify n p).path y = p.path y) ∧
    (∀ y, (notify n p).port y = p.port y) ∧ (∀ y, (notify n p).queue y = p.queue y) ∧
    (∀ y, (notify n p).job y = p.job y) ∧ (∀ y z, (notify n p).station y z = p.station y z) ∧
    (∀ y, (notify n p).branchSetup y = p.branchSetup y) ∧
    (∀ y, (notify n p).printerSetup y = p.printerSetup y) := by
  refine ⟨fun _ => by simp [engine], fun _ => by simp [switch], fun _ => by simp [sup],
    fun _ => by simp [path], fun _ => by simp [port], fun _ => by simp [queue], fun _ => by simp [job],
    fun _ _ => by simp [station], fun _ => by simp [branchSetup], fun _ => by simp [printerSetup]⟩

@[simp] theorem refuse_keeps (r : Reason) (code : Byte) (p : Part) :
    (refuse r code p).held = p.held ∧ (refuse r code p).setup = p.setup ∧
    (refuse r code p).loader = p.loader ∧ (refuse r code p).pool = p.pool ∧
    (refuse r code p).stations = p.stations ∧ (refuse r code p).units = p.units ∧
    (refuse r code p).nodes = p.nodes ∧ (refuse r code p).engines = p.engines ∧
    (refuse r code p).paths = p.paths ∧ (refuse r code p).router = p.router ∧
    (refuse r code p).toTrunk = p.toTrunk ∧ (refuse r code p).submit = p.submit ∧
    (refuse r code p).copy = p.copy ∧ (refuse r code p).jobs = p.jobs ∧
    (refuse r code p).queues = p.queues ∧ (refuse r code p).stamp = p.stamp ∧
    (refuse r code p).moveJob = p.moveJob ∧ (refuse r code p).ports = p.ports ∧
    (refuse r code p).sups = p.sups ∧ (refuse r code p).sense = p.sense ∧
    (refuse r code p).switches = p.switches ∧ (refuse r code p).branchSel = p.branchSel ∧
    (refuse r code p).button = p.button ∧ (refuse r code p).probe = p.probe ∧
    (refuse r code p).records = p.records ∧ (refuse r code p).writer = p.writer ∧
    (refuse r code p).ring = p.ring ∧
    (refuse r code p).arbiter = p.arbiter ∧ (refuse r code p).hostWait = p.hostWait ∧
    (refuse r code p).hostData = p.hostData ∧ (refuse r code p).live = p.live ∧
    (refuse r code p).lastBlocked = p.lastBlocked ∧ (refuse r code p).snap = p.snap ∧
    (refuse r code p).draws = p.draws := by
  refine ⟨rfl, rfl, rfl, rfl, rfl, rfl, rfl, rfl, rfl, rfl, rfl, rfl, rfl, rfl, rfl, rfl, rfl, rfl, rfl, rfl,
    rfl, rfl, rfl, rfl, rfl, rfl, rfl, rfl, rfl, rfl, rfl, rfl, rfl, rfl⟩

@[simp] theorem refuse_views (r : Reason) (code : Byte) (p : Part) :
    (∀ y, (refuse r code p).engine y = p.engine y) ∧ (∀ y, (refuse r code p).switch y = p.switch y) ∧
    (∀ y, (refuse r code p).sup y = p.sup y) ∧ (∀ y, (refuse r code p).path y = p.path y) ∧
    (∀ y, (refuse r code p).port y = p.port y) ∧ (∀ y, (refuse r code p).queue y = p.queue y) ∧
    (∀ y, (refuse r code p).job y = p.job y) ∧ (∀ y z, (refuse r code p).station y z = p.station y z) ∧
    (∀ y, (refuse r code p).branchSetup y = p.branchSetup y) ∧
    (∀ y, (refuse r code p).printerSetup y = p.printerSetup y) := by
  refine ⟨fun _ => by simp [engine], fun _ => by simp [switch], fun _ => by simp [sup],
    fun _ => by simp [path], fun _ => by simp [port], fun _ => by simp [queue], fun _ => by simp [job],
    fun _ _ => by simp [station], fun _ => by simp [branchSetup], fun _ => by simp [printerSetup]⟩

@[simp] theorem requestWrite_keeps (w : ImgWrite) (p : Part) :
    (requestWrite w p).held = p.held ∧ (requestWrite w p).setup = p.setup ∧
    (requestWrite w p).loader = p.loader ∧ (requestWrite w p).notices = p.notices ∧
    (requestWrite w p).pool = p.pool ∧ (requestWrite w p).stations = p.stations ∧
    (requestWrite w p).units = p.units ∧ (requestWrite w p).nodes = p.nodes ∧
    (requestWrite w p).engines = p.engines ∧ (requestWrite w p).paths = p.paths ∧
    (requestWrite w p).router = p.router ∧ (requestWrite w p).toTrunk = p.toTrunk ∧
    (requestWrite w p).submit = p.submit ∧ (requestWrite w p).copy = p.copy ∧
    (requestWrite w p).jobs = p.jobs ∧ (requestWrite w p).queues = p.queues ∧
    (requestWrite w p).stamp = p.stamp ∧ (requestWrite w p).moveJob = p.moveJob ∧
    (requestWrite w p).ports = p.ports ∧ (requestWrite w p).sups = p.sups ∧
    (requestWrite w p).sense = p.sense ∧ (requestWrite w p).switches = p.switches ∧
    (requestWrite w p).branchSel = p.branchSel ∧ (requestWrite w p).button = p.button ∧
    (requestWrite w p).probe = p.probe ∧ (requestWrite w p).records = p.records ∧
    (requestWrite w p).ring = p.ring ∧
    (requestWrite w p).arbiter = p.arbiter ∧ (requestWrite w p).hostWait = p.hostWait ∧
    (requestWrite w p).hostData = p.hostData ∧ (requestWrite w p).live = p.live ∧
    (requestWrite w p).lastBlocked = p.lastBlocked ∧ (requestWrite w p).snap = p.snap ∧
    (requestWrite w p).draws = p.draws := by
  refine ⟨rfl, rfl, rfl, rfl, rfl, rfl, rfl, rfl, rfl, rfl, rfl, rfl, rfl, rfl, rfl, rfl, rfl, rfl, rfl, rfl,
    rfl, rfl, rfl, rfl, rfl, rfl, rfl, rfl, rfl, rfl, rfl, rfl, rfl, rfl⟩

@[simp] theorem requestWrite_views (w : ImgWrite) (p : Part) :
    (∀ y, (requestWrite w p).engine y = p.engine y) ∧ (∀ y, (requestWrite w p).switch y = p.switch y) ∧
    (∀ y, (requestWrite w p).sup y = p.sup y) ∧ (∀ y, (requestWrite w p).path y = p.path y) ∧
    (∀ y, (requestWrite w p).port y = p.port y) ∧ (∀ y, (requestWrite w p).queue y = p.queue y) ∧
    (∀ y, (requestWrite w p).job y = p.job y) ∧ (∀ y z, (requestWrite w p).station y z = p.station y z) ∧
    (∀ y, (requestWrite w p).branchSetup y = p.branchSetup y) ∧
    (∀ y, (requestWrite w p).printerSetup y = p.printerSetup y) := by
  refine ⟨fun _ => by simp [engine], fun _ => by simp [switch], fun _ => by simp [sup],
    fun _ => by simp [path], fun _ => by simp [port], fun _ => by simp [queue], fun _ => by simp [job],
    fun _ _ => by simp [station], fun _ => by simp [branchSetup], fun _ => by simp [printerSetup]⟩

@[simp] theorem writeJob_keeps (j : JobNo) (n : BitVec 16) (p : Part) :
    (writeJob j n p).held = p.held ∧ (writeJob j n p).setup = p.setup ∧
    (writeJob j n p).loader = p.loader ∧ (writeJob j n p).notices = p.notices ∧
    (writeJob j n p).pool = p.pool ∧ (writeJob j n p).stations = p.stations ∧
    (writeJob j n p).units = p.units ∧ (writeJob j n p).nodes = p.nodes ∧
    (writeJob j n p).engines = p.engines ∧ (writeJob j n p).paths = p.paths ∧
    (writeJob j n p).router = p.router ∧ (writeJob j n p).toTrunk = p.toTrunk ∧
    (writeJob j n p).submit = p.submit ∧ (writeJob j n p).copy = p.copy ∧ (writeJob j n p).jobs = p.jobs ∧
    (writeJob j n p).queues = p.queues ∧ (writeJob j n p).stamp = p.stamp ∧
    (writeJob j n p).moveJob = p.moveJob ∧ (writeJob j n p).ports = p.ports ∧
    (writeJob j n p).sups = p.sups ∧ (writeJob j n p).sense = p.sense ∧
    (writeJob j n p).switches = p.switches ∧ (writeJob j n p).branchSel = p.branchSel ∧
    (writeJob j n p).button = p.button ∧ (writeJob j n p).probe = p.probe ∧
    (writeJob j n p).records = p.records ∧ (writeJob j n p).ring = p.ring ∧
    (writeJob j n p).arbiter = p.arbiter ∧
    (writeJob j n p).hostWait = p.hostWait ∧ (writeJob j n p).hostData = p.hostData ∧
    (writeJob j n p).live = p.live ∧ (writeJob j n p).lastBlocked = p.lastBlocked ∧
    (writeJob j n p).snap = p.snap ∧ (writeJob j n p).draws = p.draws := by
  refine ⟨rfl, rfl, rfl, rfl, rfl, rfl, rfl, rfl, rfl, rfl, rfl, rfl, rfl, rfl, rfl, rfl, rfl, rfl, rfl, rfl,
    rfl, rfl, rfl, rfl, rfl, rfl, rfl, rfl, rfl, rfl, rfl, rfl, rfl, rfl⟩

@[simp] theorem writeJob_views (j : JobNo) (n : BitVec 16) (p : Part) :
    (∀ y, (writeJob j n p).engine y = p.engine y) ∧ (∀ y, (writeJob j n p).switch y = p.switch y) ∧
    (∀ y, (writeJob j n p).sup y = p.sup y) ∧ (∀ y, (writeJob j n p).path y = p.path y) ∧
    (∀ y, (writeJob j n p).port y = p.port y) ∧ (∀ y, (writeJob j n p).queue y = p.queue y) ∧
    (∀ y, (writeJob j n p).job y = p.job y) ∧ (∀ y z, (writeJob j n p).station y z = p.station y z) ∧
    (∀ y, (writeJob j n p).branchSetup y = p.branchSetup y) ∧
    (∀ y, (writeJob j n p).printerSetup y = p.printerSetup y) := by
  refine ⟨fun _ => by simp [engine], fun _ => by simp [switch], fun _ => by simp [sup],
    fun _ => by simp [path], fun _ => by simp [port], fun _ => by simp [queue], fun _ => by simp [job],
    fun _ _ => by simp [station], fun _ => by simp [branchSetup], fun _ => by simp [printerSetup]⟩

@[simp] theorem writeStationHigh_keeps (b : Branch) (n : StationNo) (p : Part) :
    (writeStationHigh b n p).held = p.held ∧ (writeStationHigh b n p).setup = p.setup ∧
    (writeStationHigh b n p).loader = p.loader ∧ (writeStationHigh b n p).notices = p.notices ∧
    (writeStationHigh b n p).pool = p.pool ∧ (writeStationHigh b n p).stations = p.stations ∧
    (writeStationHigh b n p).units = p.units ∧ (writeStationHigh b n p).nodes = p.nodes ∧
    (writeStationHigh b n p).engines = p.engines ∧ (writeStationHigh b n p).paths = p.paths ∧
    (writeStationHigh b n p).router = p.router ∧ (writeStationHigh b n p).toTrunk = p.toTrunk ∧
    (writeStationHigh b n p).submit = p.submit ∧ (writeStationHigh b n p).copy = p.copy ∧
    (writeStationHigh b n p).jobs = p.jobs ∧ (writeStationHigh b n p).queues = p.queues ∧
    (writeStationHigh b n p).stamp = p.stamp ∧ (writeStationHigh b n p).moveJob = p.moveJob ∧
    (writeStationHigh b n p).ports = p.ports ∧ (writeStationHigh b n p).sups = p.sups ∧
    (writeStationHigh b n p).sense = p.sense ∧ (writeStationHigh b n p).switches = p.switches ∧
    (writeStationHigh b n p).branchSel = p.branchSel ∧ (writeStationHigh b n p).button = p.button ∧
    (writeStationHigh b n p).probe = p.probe ∧ (writeStationHigh b n p).records = p.records ∧
    (writeStationHigh b n p).ring = p.ring ∧
    (writeStationHigh b n p).arbiter = p.arbiter ∧ (writeStationHigh b n p).hostWait = p.hostWait ∧
    (writeStationHigh b n p).hostData = p.hostData ∧ (writeStationHigh b n p).live = p.live ∧
    (writeStationHigh b n p).lastBlocked = p.lastBlocked ∧ (writeStationHigh b n p).snap = p.snap ∧
    (writeStationHigh b n p).draws = p.draws := by
  refine ⟨rfl, rfl, rfl, rfl, rfl, rfl, rfl, rfl, rfl, rfl, rfl, rfl, rfl, rfl, rfl, rfl, rfl, rfl, rfl, rfl,
    rfl, rfl, rfl, rfl, rfl, rfl, rfl, rfl, rfl, rfl, rfl, rfl, rfl, rfl⟩

@[simp] theorem writeStationHigh_views (b : Branch) (n : StationNo) (p : Part) :
    (∀ y, (writeStationHigh b n p).engine y = p.engine y) ∧
    (∀ y, (writeStationHigh b n p).switch y = p.switch y) ∧
    (∀ y, (writeStationHigh b n p).sup y = p.sup y) ∧ (∀ y, (writeStationHigh b n p).path y = p.path y) ∧
    (∀ y, (writeStationHigh b n p).port y = p.port y) ∧
    (∀ y, (writeStationHigh b n p).queue y = p.queue y) ∧ (∀ y, (writeStationHigh b n p).job y = p.job y) ∧
    (∀ y z, (writeStationHigh b n p).station y z = p.station y z) ∧
    (∀ y, (writeStationHigh b n p).branchSetup y = p.branchSetup y) ∧
    (∀ y, (writeStationHigh b n p).printerSetup y = p.printerSetup y) := by
  refine ⟨fun _ => by simp [engine], fun _ => by simp [switch], fun _ => by simp [sup],
    fun _ => by simp [path], fun _ => by simp [port], fun _ => by simp [queue], fun _ => by simp [job],
    fun _ _ => by simp [station], fun _ => by simp [branchSetup], fun _ => by simp [printerSetup]⟩

@[simp] theorem writeStationLow_keeps (b : Branch) (n : StationNo) (p : Part) :
    (writeStationLow b n p).held = p.held ∧ (writeStationLow b n p).setup = p.setup ∧
    (writeStationLow b n p).loader = p.loader ∧ (writeStationLow b n p).notices = p.notices ∧
    (writeStationLow b n p).pool = p.pool ∧ (writeStationLow b n p).stations = p.stations ∧
    (writeStationLow b n p).units = p.units ∧ (writeStationLow b n p).nodes = p.nodes ∧
    (writeStationLow b n p).engines = p.engines ∧ (writeStationLow b n p).paths = p.paths ∧
    (writeStationLow b n p).router = p.router ∧ (writeStationLow b n p).toTrunk = p.toTrunk ∧
    (writeStationLow b n p).submit = p.submit ∧ (writeStationLow b n p).copy = p.copy ∧
    (writeStationLow b n p).jobs = p.jobs ∧ (writeStationLow b n p).queues = p.queues ∧
    (writeStationLow b n p).stamp = p.stamp ∧ (writeStationLow b n p).moveJob = p.moveJob ∧
    (writeStationLow b n p).ports = p.ports ∧ (writeStationLow b n p).sups = p.sups ∧
    (writeStationLow b n p).sense = p.sense ∧ (writeStationLow b n p).switches = p.switches ∧
    (writeStationLow b n p).branchSel = p.branchSel ∧ (writeStationLow b n p).button = p.button ∧
    (writeStationLow b n p).probe = p.probe ∧ (writeStationLow b n p).records = p.records ∧
    (writeStationLow b n p).ring = p.ring ∧
    (writeStationLow b n p).arbiter = p.arbiter ∧ (writeStationLow b n p).hostWait = p.hostWait ∧
    (writeStationLow b n p).hostData = p.hostData ∧ (writeStationLow b n p).live = p.live ∧
    (writeStationLow b n p).lastBlocked = p.lastBlocked ∧ (writeStationLow b n p).snap = p.snap ∧
    (writeStationLow b n p).draws = p.draws := by
  refine ⟨rfl, rfl, rfl, rfl, rfl, rfl, rfl, rfl, rfl, rfl, rfl, rfl, rfl, rfl, rfl, rfl, rfl, rfl, rfl, rfl,
    rfl, rfl, rfl, rfl, rfl, rfl, rfl, rfl, rfl, rfl, rfl, rfl, rfl, rfl⟩

@[simp] theorem writeStationLow_views (b : Branch) (n : StationNo) (p : Part) :
    (∀ y, (writeStationLow b n p).engine y = p.engine y) ∧
    (∀ y, (writeStationLow b n p).switch y = p.switch y) ∧ (∀ y, (writeStationLow b n p).sup y = p.sup y) ∧
    (∀ y, (writeStationLow b n p).path y = p.path y) ∧ (∀ y, (writeStationLow b n p).port y = p.port y) ∧
    (∀ y, (writeStationLow b n p).queue y = p.queue y) ∧ (∀ y, (writeStationLow b n p).job y = p.job y) ∧
    (∀ y z, (writeStationLow b n p).station y z = p.station y z) ∧
    (∀ y, (writeStationLow b n p).branchSetup y = p.branchSetup y) ∧
    (∀ y, (writeStationLow b n p).printerSetup y = p.printerSetup y) := by
  refine ⟨fun _ => by simp [engine], fun _ => by simp [switch], fun _ => by simp [sup],
    fun _ => by simp [path], fun _ => by simp [port], fun _ => by simp [queue], fun _ => by simp [job],
    fun _ _ => by simp [station], fun _ => by simp [branchSetup], fun _ => by simp [printerSetup]⟩

@[simp] theorem writeCapture_keeps (b : Branch) (n : BitVec 16) (p : Part) :
    (writeCapture b n p).held = p.held ∧ (writeCapture b n p).setup = p.setup ∧
    (writeCapture b n p).loader = p.loader ∧ (writeCapture b n p).notices = p.notices ∧
    (writeCapture b n p).pool = p.pool ∧ (writeCapture b n p).stations = p.stations ∧
    (writeCapture b n p).units = p.units ∧ (writeCapture b n p).nodes = p.nodes ∧
    (writeCapture b n p).engines = p.engines ∧ (writeCapture b n p).paths = p.paths ∧
    (writeCapture b n p).router = p.router ∧ (writeCapture b n p).toTrunk = p.toTrunk ∧
    (writeCapture b n p).submit = p.submit ∧ (writeCapture b n p).copy = p.copy ∧
    (writeCapture b n p).jobs = p.jobs ∧ (writeCapture b n p).queues = p.queues ∧
    (writeCapture b n p).stamp = p.stamp ∧ (writeCapture b n p).moveJob = p.moveJob ∧
    (writeCapture b n p).ports = p.ports ∧ (writeCapture b n p).sups = p.sups ∧
    (writeCapture b n p).sense = p.sense ∧ (writeCapture b n p).switches = p.switches ∧
    (writeCapture b n p).branchSel = p.branchSel ∧ (writeCapture b n p).button = p.button ∧
    (writeCapture b n p).probe = p.probe ∧ (writeCapture b n p).records = p.records ∧
    (writeCapture b n p).ring = p.ring ∧
    (writeCapture b n p).arbiter = p.arbiter ∧ (writeCapture b n p).hostWait = p.hostWait ∧
    (writeCapture b n p).hostData = p.hostData ∧ (writeCapture b n p).live = p.live ∧
    (writeCapture b n p).lastBlocked = p.lastBlocked ∧ (writeCapture b n p).snap = p.snap ∧
    (writeCapture b n p).draws = p.draws := by
  refine ⟨rfl, rfl, rfl, rfl, rfl, rfl, rfl, rfl, rfl, rfl, rfl, rfl, rfl, rfl, rfl, rfl, rfl, rfl, rfl, rfl,
    rfl, rfl, rfl, rfl, rfl, rfl, rfl, rfl, rfl, rfl, rfl, rfl, rfl, rfl⟩

@[simp] theorem writeCapture_views (b : Branch) (n : BitVec 16) (p : Part) :
    (∀ y, (writeCapture b n p).engine y = p.engine y) ∧ (∀ y, (writeCapture b n p).switch y = p.switch y) ∧
    (∀ y, (writeCapture b n p).sup y = p.sup y) ∧ (∀ y, (writeCapture b n p).path y = p.path y) ∧
    (∀ y, (writeCapture b n p).port y = p.port y) ∧ (∀ y, (writeCapture b n p).queue y = p.queue y) ∧
    (∀ y, (writeCapture b n p).job y = p.job y) ∧
    (∀ y z, (writeCapture b n p).station y z = p.station y z) ∧
    (∀ y, (writeCapture b n p).branchSetup y = p.branchSetup y) ∧
    (∀ y, (writeCapture b n p).printerSetup y = p.printerSetup y) := by
  refine ⟨fun _ => by simp [engine], fun _ => by simp [switch], fun _ => by simp [sup],
    fun _ => by simp [path], fun _ => by simp [port], fun _ => by simp [queue], fun _ => by simp [job],
    fun _ _ => by simp [station], fun _ => by simp [branchSetup], fun _ => by simp [printerSetup]⟩

@[simp] theorem writeProbe_keeps (b : Branch) (p : Part) :
    (writeProbe b p).held = p.held ∧ (writeProbe b p).setup = p.setup ∧
    (writeProbe b p).loader = p.loader ∧ (writeProbe b p).notices = p.notices ∧
    (writeProbe b p).pool = p.pool ∧ (writeProbe b p).stations = p.stations ∧
    (writeProbe b p).units = p.units ∧ (writeProbe b p).nodes = p.nodes ∧
    (writeProbe b p).engines = p.engines ∧ (writeProbe b p).paths = p.paths ∧
    (writeProbe b p).router = p.router ∧ (writeProbe b p).toTrunk = p.toTrunk ∧
    (writeProbe b p).submit = p.submit ∧ (writeProbe b p).copy = p.copy ∧ (writeProbe b p).jobs = p.jobs ∧
    (writeProbe b p).queues = p.queues ∧ (writeProbe b p).stamp = p.stamp ∧
    (writeProbe b p).moveJob = p.moveJob ∧ (writeProbe b p).ports = p.ports ∧
    (writeProbe b p).sups = p.sups ∧ (writeProbe b p).sense = p.sense ∧
    (writeProbe b p).switches = p.switches ∧ (writeProbe b p).branchSel = p.branchSel ∧
    (writeProbe b p).button = p.button ∧ (writeProbe b p).probe = p.probe ∧
    (writeProbe b p).records = p.records ∧ (writeProbe b p).ring = p.ring ∧
    (writeProbe b p).arbiter = p.arbiter ∧
    (writeProbe b p).hostWait = p.hostWait ∧ (writeProbe b p).hostData = p.hostData ∧
    (writeProbe b p).live = p.live ∧ (writeProbe b p).lastBlocked = p.lastBlocked ∧
    (writeProbe b p).snap = p.snap ∧ (writeProbe b p).draws = p.draws := by
  refine ⟨rfl, rfl, rfl, rfl, rfl, rfl, rfl, rfl, rfl, rfl, rfl, rfl, rfl, rfl, rfl, rfl, rfl, rfl, rfl, rfl,
    rfl, rfl, rfl, rfl, rfl, rfl, rfl, rfl, rfl, rfl, rfl, rfl, rfl, rfl⟩

@[simp] theorem writeProbe_views (b : Branch) (p : Part) :
    (∀ y, (writeProbe b p).engine y = p.engine y) ∧ (∀ y, (writeProbe b p).switch y = p.switch y) ∧
    (∀ y, (writeProbe b p).sup y = p.sup y) ∧ (∀ y, (writeProbe b p).path y = p.path y) ∧
    (∀ y, (writeProbe b p).port y = p.port y) ∧ (∀ y, (writeProbe b p).queue y = p.queue y) ∧
    (∀ y, (writeProbe b p).job y = p.job y) ∧ (∀ y z, (writeProbe b p).station y z = p.station y z) ∧
    (∀ y, (writeProbe b p).branchSetup y = p.branchSetup y) ∧
    (∀ y, (writeProbe b p).printerSetup y = p.printerSetup y) := by
  refine ⟨fun _ => by simp [engine], fun _ => by simp [switch], fun _ => by simp [sup],
    fun _ => by simp [path], fun _ => by simp [port], fun _ => by simp [queue], fun _ => by simp [job],
    fun _ _ => by simp [station], fun _ => by simp [branchSetup], fun _ => by simp [printerSetup]⟩

@[simp] theorem writeWhole_keeps (r : ImgRecord) (c : List Byte) (n : BitVec 16) (p : Part) :
    (writeWhole r c n p).held = p.held ∧ (writeWhole r c n p).setup = p.setup ∧
    (writeWhole r c n p).loader = p.loader ∧ (writeWhole r c n p).notices = p.notices ∧
    (writeWhole r c n p).pool = p.pool ∧ (writeWhole r c n p).stations = p.stations ∧
    (writeWhole r c n p).units = p.units ∧ (writeWhole r c n p).nodes = p.nodes ∧
    (writeWhole r c n p).engines = p.engines ∧ (writeWhole r c n p).paths = p.paths ∧
    (writeWhole r c n p).router = p.router ∧ (writeWhole r c n p).toTrunk = p.toTrunk ∧
    (writeWhole r c n p).submit = p.submit ∧ (writeWhole r c n p).copy = p.copy ∧
    (writeWhole r c n p).jobs = p.jobs ∧ (writeWhole r c n p).queues = p.queues ∧
    (writeWhole r c n p).stamp = p.stamp ∧ (writeWhole r c n p).moveJob = p.moveJob ∧
    (writeWhole r c n p).ports = p.ports ∧ (writeWhole r c n p).sups = p.sups ∧
    (writeWhole r c n p).sense = p.sense ∧ (writeWhole r c n p).switches = p.switches ∧
    (writeWhole r c n p).branchSel = p.branchSel ∧ (writeWhole r c n p).button = p.button ∧
    (writeWhole r c n p).probe = p.probe ∧ (writeWhole r c n p).records = p.records ∧
    (writeWhole r c n p).ring = p.ring ∧
    (writeWhole r c n p).arbiter = p.arbiter ∧ (writeWhole r c n p).hostWait = p.hostWait ∧
    (writeWhole r c n p).hostData = p.hostData ∧ (writeWhole r c n p).live = p.live ∧
    (writeWhole r c n p).lastBlocked = p.lastBlocked ∧ (writeWhole r c n p).snap = p.snap ∧
    (writeWhole r c n p).draws = p.draws := by
  refine ⟨rfl, rfl, rfl, rfl, rfl, rfl, rfl, rfl, rfl, rfl, rfl, rfl, rfl, rfl, rfl, rfl, rfl, rfl, rfl, rfl,
    rfl, rfl, rfl, rfl, rfl, rfl, rfl, rfl, rfl, rfl, rfl, rfl, rfl, rfl⟩

@[simp] theorem writeWhole_views (r : ImgRecord) (c : List Byte) (n : BitVec 16) (p : Part) :
    (∀ y, (writeWhole r c n p).engine y = p.engine y) ∧ (∀ y, (writeWhole r c n p).switch y = p.switch y) ∧
    (∀ y, (writeWhole r c n p).sup y = p.sup y) ∧ (∀ y, (writeWhole r c n p).path y = p.path y) ∧
    (∀ y, (writeWhole r c n p).port y = p.port y) ∧ (∀ y, (writeWhole r c n p).queue y = p.queue y) ∧
    (∀ y, (writeWhole r c n p).job y = p.job y) ∧
    (∀ y z, (writeWhole r c n p).station y z = p.station y z) ∧
    (∀ y, (writeWhole r c n p).branchSetup y = p.branchSetup y) ∧
    (∀ y, (writeWhole r c n p).printerSetup y = p.printerSetup y) := by
  refine ⟨fun _ => by simp [engine], fun _ => by simp [switch], fun _ => by simp [sup],
    fun _ => by simp [path], fun _ => by simp [port], fun _ => by simp [queue], fun _ => by simp [job],
    fun _ _ => by simp [station], fun _ => by simp [branchSetup], fun _ => by simp [printerSetup]⟩

@[simp] theorem toTrunkEvent_keeps (p : Part) :
    (toTrunkEvent p).held = p.held ∧ (toTrunkEvent p).setup = p.setup ∧
    (toTrunkEvent p).loader = p.loader ∧ (toTrunkEvent p).notices = p.notices ∧
    (toTrunkEvent p).pool = p.pool ∧ (toTrunkEvent p).stations = p.stations ∧
    (toTrunkEvent p).units = p.units ∧ (toTrunkEvent p).nodes = p.nodes ∧
    (toTrunkEvent p).engines = p.engines ∧ (toTrunkEvent p).paths = p.paths ∧
    (toTrunkEvent p).router = p.router ∧ (toTrunkEvent p).submit = p.submit ∧
    (toTrunkEvent p).copy = p.copy ∧ (toTrunkEvent p).jobs = p.jobs ∧ (toTrunkEvent p).queues = p.queues ∧
    (toTrunkEvent p).stamp = p.stamp ∧ (toTrunkEvent p).moveJob = p.moveJob ∧
    (toTrunkEvent p).ports = p.ports ∧ (toTrunkEvent p).sups = p.sups ∧ (toTrunkEvent p).sense = p.sense ∧
    (toTrunkEvent p).switches = p.switches ∧ (toTrunkEvent p).branchSel = p.branchSel ∧
    (toTrunkEvent p).button = p.button ∧ (toTrunkEvent p).probe = p.probe ∧
    (toTrunkEvent p).records = p.records ∧ (toTrunkEvent p).writer = p.writer ∧
    (toTrunkEvent p).ring = p.ring ∧
    (toTrunkEvent p).arbiter = p.arbiter ∧ (toTrunkEvent p).hostWait = p.hostWait ∧
    (toTrunkEvent p).hostData = p.hostData ∧ (toTrunkEvent p).live = p.live ∧
    (toTrunkEvent p).lastBlocked = p.lastBlocked ∧ (toTrunkEvent p).snap = p.snap ∧
    (toTrunkEvent p).draws = p.draws := by
  refine ⟨rfl, rfl, rfl, rfl, rfl, rfl, rfl, rfl, rfl, rfl, rfl, rfl, rfl, rfl, rfl, rfl, rfl, rfl, rfl, rfl,
    rfl, rfl, rfl, rfl, rfl, rfl, rfl, rfl, rfl, rfl, rfl, rfl, rfl, rfl⟩

@[simp] theorem toTrunkEvent_views (p : Part) :
    (∀ y, (toTrunkEvent p).engine y = p.engine y) ∧ (∀ y, (toTrunkEvent p).switch y = p.switch y) ∧
    (∀ y, (toTrunkEvent p).sup y = p.sup y) ∧ (∀ y, (toTrunkEvent p).path y = p.path y) ∧
    (∀ y, (toTrunkEvent p).port y = p.port y) ∧ (∀ y, (toTrunkEvent p).queue y = p.queue y) ∧
    (∀ y, (toTrunkEvent p).job y = p.job y) ∧ (∀ y z, (toTrunkEvent p).station y z = p.station y z) ∧
    (∀ y, (toTrunkEvent p).branchSetup y = p.branchSetup y) ∧
    (∀ y, (toTrunkEvent p).printerSetup y = p.printerSetup y) := by
  refine ⟨fun _ => by simp [engine], fun _ => by simp [switch], fun _ => by simp [sup],
    fun _ => by simp [path], fun _ => by simp [port], fun _ => by simp [queue], fun _ => by simp [job],
    fun _ _ => by simp [station], fun _ => by simp [branchSetup], fun _ => by simp [printerSetup]⟩

@[simp] theorem submitEvent_keeps (p : Part) :
    (submitEvent p).held = p.held ∧ (submitEvent p).setup = p.setup ∧ (submitEvent p).loader = p.loader ∧
    (submitEvent p).notices = p.notices ∧ (submitEvent p).pool = p.pool ∧
    (submitEvent p).stations = p.stations ∧ (submitEvent p).units = p.units ∧
    (submitEvent p).nodes = p.nodes ∧ (submitEvent p).engines = p.engines ∧
    (submitEvent p).paths = p.paths ∧ (submitEvent p).router = p.router ∧
    (submitEvent p).toTrunk = p.toTrunk ∧ (submitEvent p).copy = p.copy ∧ (submitEvent p).jobs = p.jobs ∧
    (submitEvent p).queues = p.queues ∧ (submitEvent p).stamp = p.stamp ∧
    (submitEvent p).moveJob = p.moveJob ∧ (submitEvent p).ports = p.ports ∧ (submitEvent p).sups = p.sups ∧
    (submitEvent p).sense = p.sense ∧ (submitEvent p).switches = p.switches ∧
    (submitEvent p).branchSel = p.branchSel ∧ (submitEvent p).button = p.button ∧
    (submitEvent p).probe = p.probe ∧ (submitEvent p).records = p.records ∧
    (submitEvent p).writer = p.writer ∧ (submitEvent p).ring = p.ring ∧
    (submitEvent p).arbiter = p.arbiter ∧
    (submitEvent p).hostWait = p.hostWait ∧ (submitEvent p).hostData = p.hostData ∧
    (submitEvent p).live = p.live ∧ (submitEvent p).lastBlocked = p.lastBlocked ∧
    (submitEvent p).snap = p.snap ∧ (submitEvent p).draws = p.draws := by
  refine ⟨rfl, rfl, rfl, rfl, rfl, rfl, rfl, rfl, rfl, rfl, rfl, rfl, rfl, rfl, rfl, rfl, rfl, rfl, rfl, rfl,
    rfl, rfl, rfl, rfl, rfl, rfl, rfl, rfl, rfl, rfl, rfl, rfl, rfl, rfl⟩

@[simp] theorem submitEvent_views (p : Part) :
    (∀ y, (submitEvent p).engine y = p.engine y) ∧ (∀ y, (submitEvent p).switch y = p.switch y) ∧
    (∀ y, (submitEvent p).sup y = p.sup y) ∧ (∀ y, (submitEvent p).path y = p.path y) ∧
    (∀ y, (submitEvent p).port y = p.port y) ∧ (∀ y, (submitEvent p).queue y = p.queue y) ∧
    (∀ y, (submitEvent p).job y = p.job y) ∧ (∀ y z, (submitEvent p).station y z = p.station y z) ∧
    (∀ y, (submitEvent p).branchSetup y = p.branchSetup y) ∧
    (∀ y, (submitEvent p).printerSetup y = p.printerSetup y) := by
  refine ⟨fun _ => by simp [engine], fun _ => by simp [switch], fun _ => by simp [sup],
    fun _ => by simp [path], fun _ => by simp [port], fun _ => by simp [queue], fun _ => by simp [job],
    fun _ _ => by simp [station], fun _ => by simp [branchSetup], fun _ => by simp [printerSetup]⟩

@[simp] theorem withdraw_keeps (buf : BufNo) (p : Part) :
    (withdraw buf p).held = p.held ∧ (withdraw buf p).setup = p.setup ∧
    (withdraw buf p).loader = p.loader ∧ (withdraw buf p).notices = p.notices ∧
    (withdraw buf p).pool = p.pool ∧ (withdraw buf p).stations = p.stations ∧
    (withdraw buf p).units = p.units ∧ (withdraw buf p).nodes = p.nodes ∧
    (withdraw buf p).engines = p.engines ∧ (withdraw buf p).router = p.router ∧
    (withdraw buf p).toTrunk = p.toTrunk ∧ (withdraw buf p).submit = p.submit ∧
    (withdraw buf p).copy = p.copy ∧ (withdraw buf p).jobs = p.jobs ∧ (withdraw buf p).queues = p.queues ∧
    (withdraw buf p).stamp = p.stamp ∧ (withdraw buf p).moveJob = p.moveJob ∧
    (withdraw buf p).ports = p.ports ∧ (withdraw buf p).sups = p.sups ∧ (withdraw buf p).sense = p.sense ∧
    (withdraw buf p).switches = p.switches ∧ (withdraw buf p).branchSel = p.branchSel ∧
    (withdraw buf p).button = p.button ∧ (withdraw buf p).probe = p.probe ∧
    (withdraw buf p).records = p.records ∧ (withdraw buf p).writer = p.writer ∧
    (withdraw buf p).ring = p.ring ∧
    (withdraw buf p).arbiter = p.arbiter ∧ (withdraw buf p).hostWait = p.hostWait ∧
    (withdraw buf p).hostData = p.hostData ∧ (withdraw buf p).live = p.live ∧
    (withdraw buf p).lastBlocked = p.lastBlocked ∧ (withdraw buf p).snap = p.snap ∧
    (withdraw buf p).draws = p.draws := by
  refine ⟨rfl, rfl, rfl, rfl, rfl, rfl, rfl, rfl, rfl, rfl, rfl, rfl, rfl, rfl, rfl, rfl, rfl, rfl, rfl, rfl,
    rfl, rfl, rfl, rfl, rfl, rfl, rfl, rfl, rfl, rfl, rfl, rfl, rfl, rfl⟩

@[simp] theorem withdraw_views (buf : BufNo) (p : Part) :
    (∀ y, (withdraw buf p).engine y = p.engine y) ∧ (∀ y, (withdraw buf p).switch y = p.switch y) ∧
    (∀ y, (withdraw buf p).sup y = p.sup y) ∧ (∀ y, (withdraw buf p).port y = p.port y) ∧
    (∀ y, (withdraw buf p).queue y = p.queue y) ∧ (∀ y, (withdraw buf p).job y = p.job y) ∧
    (∀ y z, (withdraw buf p).station y z = p.station y z) ∧
    (∀ y, (withdraw buf p).branchSetup y = p.branchSetup y) ∧
    (∀ y, (withdraw buf p).printerSetup y = p.printerSetup y) := by
  refine ⟨fun _ => by simp [engine], fun _ => by simp [switch], fun _ => by simp [sup],
    fun _ => by simp [port], fun _ => by simp [queue], fun _ => by simp [job],
    fun _ _ => by simp [station], fun _ => by simp [branchSetup], fun _ => by simp [printerSetup]⟩

/-- A byte still to be written to a freed buffer is dropped (log 31). -/
@[simp] theorem afterFree_write (buf : BufNo) (off : Nat) (v : Byte) :
    PathOp.afterFree buf (.write buf off v) = none := by simp [PathOp.afterFree]

/-- A shift of a freed buffer stops after the byte in progress (R81). -/
@[simp] theorem afterFree_shift (buf : BufNo) (len i : Nat) (byte : Option Byte) :
    PathOp.afterFree buf (.shift buf len i byte)
      = byte.map fun v => .last { buf := buf, off := i, value := v } := by simp [PathOp.afterFree]

/-- The byte in progress of a stopped shift stays to be written. -/
@[simp] theorem afterFree_last (buf : BufNo) (x : LastByte) : PathOp.afterFree buf (.last x) = some (.last x) := rfl

@[simp] theorem freeBuffer_keeps (buf : BufNo) (p : Part) :
    (freeBuffer buf p).held = p.held ∧ (freeBuffer buf p).setup = p.setup ∧
    (freeBuffer buf p).loader = p.loader ∧ (freeBuffer buf p).notices = p.notices ∧
    (freeBuffer buf p).stations = p.stations ∧ (freeBuffer buf p).units = p.units ∧
    (freeBuffer buf p).nodes = p.nodes ∧ (freeBuffer buf p).engines = p.engines ∧
    (freeBuffer buf p).router = p.router ∧ (freeBuffer buf p).copy = p.copy ∧
    (freeBuffer buf p).jobs = p.jobs ∧ (freeBuffer buf p).queues = p.queues ∧
    (freeBuffer buf p).stamp = p.stamp ∧ (freeBuffer buf p).moveJob = p.moveJob ∧
    (freeBuffer buf p).ports = p.ports ∧ (freeBuffer buf p).sups = p.sups ∧
    (freeBuffer buf p).sense = p.sense ∧ (freeBuffer buf p).switches = p.switches ∧
    (freeBuffer buf p).branchSel = p.branchSel ∧ (freeBuffer buf p).button = p.button ∧
    (freeBuffer buf p).probe = p.probe ∧ (freeBuffer buf p).records = p.records ∧
    (freeBuffer buf p).writer = p.writer ∧ (freeBuffer buf p).ring = p.ring ∧
    (freeBuffer buf p).arbiter = p.arbiter ∧
    (freeBuffer buf p).hostWait = p.hostWait ∧ (freeBuffer buf p).hostData = p.hostData ∧
    (freeBuffer buf p).live = p.live ∧ (freeBuffer buf p).lastBlocked = p.lastBlocked ∧
    (freeBuffer buf p).snap = p.snap ∧ (freeBuffer buf p).draws = p.draws := by
  refine ⟨rfl, rfl, rfl, rfl, rfl, rfl, rfl, rfl, rfl, rfl, rfl, rfl, rfl, rfl, rfl, rfl, rfl, rfl, rfl, rfl,
    rfl, rfl, rfl, rfl, rfl, rfl, rfl, rfl, rfl, rfl, rfl⟩

@[simp] theorem freeBuffer_views (buf : BufNo) (p : Part) :
    (∀ y, (freeBuffer buf p).engine y = p.engine y) ∧ (∀ y, (freeBuffer buf p).switch y = p.switch y) ∧
    (∀ y, (freeBuffer buf p).sup y = p.sup y) ∧ (∀ y, (freeBuffer buf p).port y = p.port y) ∧
    (∀ y, (freeBuffer buf p).queue y = p.queue y) ∧ (∀ y, (freeBuffer buf p).job y = p.job y) ∧
    (∀ y z, (freeBuffer buf p).station y z = p.station y z) ∧
    (∀ y, (freeBuffer buf p).branchSetup y = p.branchSetup y) ∧
    (∀ y, (freeBuffer buf p).printerSetup y = p.printerSetup y) := by
  refine ⟨fun _ => by simp [engine], fun _ => by simp [switch], fun _ => by simp [sup],
    fun _ => by simp [port], fun _ => by simp [queue], fun _ => by simp [job],
    fun _ _ => by simp [station], fun _ => by simp [branchSetup], fun _ => by simp [printerSetup]⟩

@[simp] theorem freeBuffers_keeps (l : List BufNo) (p : Part) :
    (freeBuffers l p).held = p.held ∧ (freeBuffers l p).setup = p.setup ∧
    (freeBuffers l p).loader = p.loader ∧ (freeBuffers l p).notices = p.notices ∧
    (freeBuffers l p).stations = p.stations ∧ (freeBuffers l p).units = p.units ∧
    (freeBuffers l p).nodes = p.nodes ∧ (freeBuffers l p).engines = p.engines ∧
    (freeBuffers l p).router = p.router ∧ (freeBuffers l p).copy = p.copy ∧
    (freeBuffers l p).jobs = p.jobs ∧ (freeBuffers l p).queues = p.queues ∧
    (freeBuffers l p).stamp = p.stamp ∧ (freeBuffers l p).moveJob = p.moveJob ∧
    (freeBuffers l p).ports = p.ports ∧ (freeBuffers l p).sups = p.sups ∧
    (freeBuffers l p).sense = p.sense ∧ (freeBuffers l p).switches = p.switches ∧
    (freeBuffers l p).branchSel = p.branchSel ∧ (freeBuffers l p).button = p.button ∧
    (freeBuffers l p).probe = p.probe ∧ (freeBuffers l p).records = p.records ∧
    (freeBuffers l p).writer = p.writer ∧ (freeBuffers l p).ring = p.ring ∧
    (freeBuffers l p).arbiter = p.arbiter ∧
    (freeBuffers l p).hostWait = p.hostWait ∧ (freeBuffers l p).hostData = p.hostData ∧
    (freeBuffers l p).live = p.live ∧ (freeBuffers l p).lastBlocked = p.lastBlocked ∧
    (freeBuffers l p).snap = p.snap ∧ (freeBuffers l p).draws = p.draws := by
  unfold freeBuffers
  refine ⟨each_keeps_view Part.held _ _ (fun _ _ => by simp) p,
    each_keeps_view Part.setup _ _ (fun _ _ => by simp) p,
    each_keeps_view Part.loader _ _ (fun _ _ => by simp) p,
    each_keeps_view Part.notices _ _ (fun _ _ => by simp) p,
    each_keeps_view Part.stations _ _ (fun _ _ => by simp) p,
    each_keeps_view Part.units _ _ (fun _ _ => by simp) p,
    each_keeps_view Part.nodes _ _ (fun _ _ => by simp) p,
    each_keeps_view Part.engines _ _ (fun _ _ => by simp) p,
    each_keeps_view Part.router _ _ (fun _ _ => by simp) p,
    each_keeps_view Part.copy _ _ (fun _ _ => by simp) p,
    each_keeps_view Part.jobs _ _ (fun _ _ => by simp) p,
    each_keeps_view Part.queues _ _ (fun _ _ => by simp) p,
    each_keeps_view Part.stamp _ _ (fun _ _ => by simp) p,
    each_keeps_view Part.moveJob _ _ (fun _ _ => by simp) p,
    each_keeps_view Part.ports _ _ (fun _ _ => by simp) p,
    each_keeps_view Part.sups _ _ (fun _ _ => by simp) p,
    each_keeps_view Part.sense _ _ (fun _ _ => by simp) p,
    each_keeps_view Part.switches _ _ (fun _ _ => by simp) p,
    each_keeps_view Part.branchSel _ _ (fun _ _ => by simp) p,
    each_keeps_view Part.button _ _ (fun _ _ => by simp) p,
    each_keeps_view Part.probe _ _ (fun _ _ => by simp) p,
    each_keeps_view Part.records _ _ (fun _ _ => by simp) p,
    each_keeps_view Part.writer _ _ (fun _ _ => by simp) p,
    each_keeps_view Part.ring _ _ (fun _ _ => by simp) p,
    each_keeps_view Part.arbiter _ _ (fun _ _ => by simp) p,
    each_keeps_view Part.hostWait _ _ (fun _ _ => by simp) p,
    each_keeps_view Part.hostData _ _ (fun _ _ => by simp) p,
    each_keeps_view Part.live _ _ (fun _ _ => by simp) p,
    each_keeps_view Part.lastBlocked _ _ (fun _ _ => by simp) p,
    each_keeps_view Part.snap _ _ (fun _ _ => by simp) p,
    each_keeps_view Part.draws _ _ (fun _ _ => by simp) p⟩

@[simp] theorem freeBuffers_views (l : List BufNo) (p : Part) :
    (∀ y, (freeBuffers l p).engine y = p.engine y) ∧ (∀ y, (freeBuffers l p).switch y = p.switch y) ∧
    (∀ y, (freeBuffers l p).sup y = p.sup y) ∧ (∀ y, (freeBuffers l p).port y = p.port y) ∧
    (∀ y, (freeBuffers l p).queue y = p.queue y) ∧ (∀ y, (freeBuffers l p).job y = p.job y) ∧
    (∀ y z, (freeBuffers l p).station y z = p.station y z) ∧
    (∀ y, (freeBuffers l p).branchSetup y = p.branchSetup y) ∧
    (∀ y, (freeBuffers l p).printerSetup y = p.printerSetup y) := by
  refine ⟨fun _ => by simp [engine], fun _ => by simp [switch], fun _ => by simp [sup],
    fun _ => by simp [port], fun _ => by simp [queue], fun _ => by simp [job],
    fun _ _ => by simp [station], fun _ => by simp [branchSetup], fun _ => by simp [printerSetup]⟩

/-! ## The walks: an event only marks a retry due -/

@[simp] theorem submitEvent_submit (p : Part) :
    (submitEvent p).submit.state = p.submit.state ∧ (submitEvent p).submit.index = p.submit.index ∧
    (submitEvent p).submit.pending = p.submit.pending ∧ (submitEvent p).submit.asking = p.submit.asking ∧
    (submitEvent p).submit.wait = p.submit.wait ∧ (submitEvent p).submit.slot = p.submit.slot ∧
    (submitEvent p).submit.job = p.submit.job ∧ (submitEvent p).submit.pos = p.submit.pos := by
  simp only [submitEvent, modSubmit]; split <;> simp

@[simp] theorem toTrunkEvent_toTrunk (p : Part) :
    (toTrunkEvent p).toTrunk.state = p.toTrunk.state ∧ (toTrunkEvent p).toTrunk.index = p.toTrunk.index ∧
    (toTrunkEvent p).toTrunk.pending = p.toTrunk.pending ∧
    (toTrunkEvent p).toTrunk.asking = p.toTrunk.asking ∧ (toTrunkEvent p).toTrunk.slot = p.toTrunk.slot := by
  simp only [toTrunkEvent, modToTrunk]; split <;> simp

@[simp] theorem freeBuffer_submit (buf : BufNo) (p : Part) :
    (freeBuffer buf p).submit.state = p.submit.state ∧ (freeBuffer buf p).submit.index = p.submit.index ∧
    (freeBuffer buf p).submit.pending = p.submit.pending ∧
    (freeBuffer buf p).submit.asking = p.submit.asking ∧ (freeBuffer buf p).submit.wait = p.submit.wait ∧
    (freeBuffer buf p).submit.slot = p.submit.slot ∧ (freeBuffer buf p).submit.job = p.submit.job ∧
    (freeBuffer buf p).submit.pos = p.submit.pos := by
  simp [freeBuffer]

@[simp] theorem freeBuffer_toTrunk (buf : BufNo) (p : Part) :
    (freeBuffer buf p).toTrunk.state = p.toTrunk.state ∧
    (freeBuffer buf p).toTrunk.index = p.toTrunk.index ∧
    (freeBuffer buf p).toTrunk.pending = p.toTrunk.pending ∧
    (freeBuffer buf p).toTrunk.asking = p.toTrunk.asking ∧ (freeBuffer buf p).toTrunk.slot = p.toTrunk.slot := by
  simp [freeBuffer]

@[simp] theorem freeBuffers_submit (l : List BufNo) (p : Part) :
    (freeBuffers l p).submit.state = p.submit.state ∧ (freeBuffers l p).submit.index = p.submit.index ∧
    (freeBuffers l p).submit.pending = p.submit.pending ∧
    (freeBuffers l p).submit.asking = p.submit.asking ∧ (freeBuffers l p).submit.wait = p.submit.wait ∧
    (freeBuffers l p).submit.slot = p.submit.slot ∧ (freeBuffers l p).submit.job = p.submit.job ∧
    (freeBuffers l p).submit.pos = p.submit.pos := by
  unfold freeBuffers
  refine ⟨each_keeps_view (fun q => q.submit.state) _ _ (fun _ _ => by simp) p,
    each_keeps_view (fun q => q.submit.index) _ _ (fun _ _ => by simp) p,
    each_keeps_view (fun q => q.submit.pending) _ _ (fun _ _ => by simp) p,
    each_keeps_view (fun q => q.submit.asking) _ _ (fun _ _ => by simp) p,
    each_keeps_view (fun q => q.submit.wait) _ _ (fun _ _ => by simp) p,
    each_keeps_view (fun q => q.submit.slot) _ _ (fun _ _ => by simp) p,
    each_keeps_view (fun q => q.submit.job) _ _ (fun _ _ => by simp) p,
    each_keeps_view (fun q => q.submit.pos) _ _ (fun _ _ => by simp) p⟩

@[simp] theorem freeBuffers_toTrunk (l : List BufNo) (p : Part) :
    (freeBuffers l p).toTrunk.state = p.toTrunk.state ∧ (freeBuffers l p).toTrunk.index = p.toTrunk.index ∧
    (freeBuffers l p).toTrunk.pending = p.toTrunk.pending ∧
    (freeBuffers l p).toTrunk.asking = p.toTrunk.asking ∧ (freeBuffers l p).toTrunk.slot = p.toTrunk.slot := by
  unfold freeBuffers
  refine ⟨each_keeps_view (fun q => q.toTrunk.state) _ _ (fun _ _ => by simp) p,
    each_keeps_view (fun q => q.toTrunk.index) _ _ (fun _ _ => by simp) p,
    each_keeps_view (fun q => q.toTrunk.pending) _ _ (fun _ _ => by simp) p,
    each_keeps_view (fun q => q.toTrunk.asking) _ _ (fun _ _ => by simp) p,
    each_keeps_view (fun q => q.toTrunk.slot) _ _ (fun _ _ => by simp) p⟩

/-! ## The fields each operation keeps, continued -/

@[simp] theorem takeHead_keeps (p : Part) :
    (takeHead p).held = p.held ∧ (takeHead p).setup = p.setup ∧ (takeHead p).loader = p.loader ∧
    (takeHead p).stations = p.stations ∧ (takeHead p).units = p.units ∧ (takeHead p).nodes = p.nodes ∧
    (takeHead p).engines = p.engines ∧ (takeHead p).paths = p.paths ∧ (takeHead p).router = p.router ∧
    (takeHead p).toTrunk = p.toTrunk ∧ (takeHead p).submit = p.submit ∧ (takeHead p).copy = p.copy ∧
    (takeHead p).jobs = p.jobs ∧ (takeHead p).queues = p.queues ∧ (takeHead p).stamp = p.stamp ∧
    (takeHead p).moveJob = p.moveJob ∧ (takeHead p).ports = p.ports ∧ (takeHead p).sups = p.sups ∧
    (takeHead p).sense = p.sense ∧ (takeHead p).switches = p.switches ∧
    (takeHead p).branchSel = p.branchSel ∧ (takeHead p).button = p.button ∧ (takeHead p).probe = p.probe ∧
    (takeHead p).records = p.records ∧ (takeHead p).writer = p.writer ∧ (takeHead p).ring = p.ring ∧
    (takeHead p).arbiter = p.arbiter ∧
    (takeHead p).hostWait = p.hostWait ∧ (takeHead p).hostData = p.hostData ∧ (takeHead p).live = p.live ∧
    (takeHead p).lastBlocked = p.lastBlocked ∧ (takeHead p).snap = p.snap ∧ (takeHead p).draws = p.draws := by
  simp only [takeHead]; (repeat' split) <;> simp

@[simp] theorem takeHead_views (p : Part) :
    (∀ y, (takeHead p).engine y = p.engine y) ∧ (∀ y, (takeHead p).switch y = p.switch y) ∧
    (∀ y, (takeHead p).sup y = p.sup y) ∧ (∀ y, (takeHead p).path y = p.path y) ∧
    (∀ y, (takeHead p).port y = p.port y) ∧ (∀ y, (takeHead p).queue y = p.queue y) ∧
    (∀ y, (takeHead p).job y = p.job y) ∧ (∀ y z, (takeHead p).station y z = p.station y z) ∧
    (∀ y, (takeHead p).branchSetup y = p.branchSetup y) ∧
    (∀ y, (takeHead p).printerSetup y = p.printerSetup y) := by
  refine ⟨fun _ => by simp [engine], fun _ => by simp [switch], fun _ => by simp [sup],
    fun _ => by simp [path], fun _ => by simp [port], fun _ => by simp [queue], fun _ => by simp [job],
    fun _ _ => by simp [station], fun _ => by simp [branchSetup], fun _ => by simp [printerSetup]⟩

@[simp] theorem countError_keeps (b : Branch) (k : ErrorKind) (p : Part) :
    (countError b k p).held = p.held ∧ (countError b k p).setup = p.setup ∧
    (countError b k p).loader = p.loader ∧ (countError b k p).notices = p.notices ∧
    (countError b k p).pool = p.pool ∧ (countError b k p).stations = p.stations ∧
    (countError b k p).units = p.units ∧ (countError b k p).nodes = p.nodes ∧
    (countError b k p).engines = p.engines ∧ (countError b k p).paths = p.paths ∧
    (countError b k p).router = p.router ∧ (countError b k p).toTrunk = p.toTrunk ∧
    (countError b k p).submit = p.submit ∧ (countError b k p).copy = p.copy ∧
    (countError b k p).jobs = p.jobs ∧ (countError b k p).queues = p.queues ∧
    (countError b k p).stamp = p.stamp ∧ (countError b k p).moveJob = p.moveJob ∧
    (countError b k p).ports = p.ports ∧ (countError b k p).sense = p.sense ∧
    (countError b k p).switches = p.switches ∧ (countError b k p).branchSel = p.branchSel ∧
    (countError b k p).button = p.button ∧ (countError b k p).probe = p.probe ∧
    (countError b k p).records = p.records ∧ (countError b k p).writer = p.writer ∧
    (countError b k p).ring = p.ring ∧
    (countError b k p).arbiter = p.arbiter ∧ (countError b k p).hostWait = p.hostWait ∧
    (countError b k p).hostData = p.hostData ∧ (countError b k p).live = p.live ∧
    (countError b k p).lastBlocked = p.lastBlocked ∧ (countError b k p).snap = p.snap ∧
    (countError b k p).draws = p.draws := by
  refine ⟨rfl, rfl, rfl, rfl, rfl, rfl, rfl, rfl, rfl, rfl, rfl, rfl, rfl, rfl, rfl, rfl, rfl, rfl, rfl, rfl,
    rfl, rfl, rfl, rfl, rfl, rfl, rfl, rfl, rfl, rfl, rfl, rfl, rfl, rfl⟩

@[simp] theorem countError_views (b : Branch) (k : ErrorKind) (p : Part) :
    (∀ y, (countError b k p).engine y = p.engine y) ∧ (∀ y, (countError b k p).switch y = p.switch y) ∧
    (∀ y, (countError b k p).path y = p.path y) ∧ (∀ y, (countError b k p).port y = p.port y) ∧
    (∀ y, (countError b k p).queue y = p.queue y) ∧ (∀ y, (countError b k p).job y = p.job y) ∧
    (∀ y z, (countError b k p).station y z = p.station y z) ∧
    (∀ y, (countError b k p).branchSetup y = p.branchSetup y) ∧
    (∀ y, (countError b k p).printerSetup y = p.printerSetup y) := by
  refine ⟨fun _ => by simp [engine], fun _ => by simp [switch], fun _ => by simp [path],
    fun _ => by simp [port], fun _ => by simp [queue], fun _ => by simp [job],
    fun _ _ => by simp [station], fun _ => by simp [branchSetup], fun _ => by simp [printerSetup]⟩

@[simp] theorem captureError_keeps (b : Branch) (r : ErrorReport) (p : Part) :
    (captureError b r p).held = p.held ∧ (captureError b r p).setup = p.setup ∧
    (captureError b r p).loader = p.loader ∧ (captureError b r p).pool = p.pool ∧
    (captureError b r p).stations = p.stations ∧ (captureError b r p).units = p.units ∧
    (captureError b r p).nodes = p.nodes ∧ (captureError b r p).engines = p.engines ∧
    (captureError b r p).paths = p.paths ∧ (captureError b r p).router = p.router ∧
    (captureError b r p).toTrunk = p.toTrunk ∧ (captureError b r p).submit = p.submit ∧
    (captureError b r p).copy = p.copy ∧ (captureError b r p).jobs = p.jobs ∧
    (captureError b r p).queues = p.queues ∧ (captureError b r p).stamp = p.stamp ∧
    (captureError b r p).moveJob = p.moveJob ∧ (captureError b r p).ports = p.ports ∧
    (captureError b r p).sense = p.sense ∧ (captureError b r p).switches = p.switches ∧
    (captureError b r p).branchSel = p.branchSel ∧ (captureError b r p).button = p.button ∧
    (captureError b r p).probe = p.probe ∧ (captureError b r p).records = p.records ∧
    (captureError b r p).ring = p.ring ∧
    (captureError b r p).arbiter = p.arbiter ∧ (captureError b r p).hostWait = p.hostWait ∧
    (captureError b r p).hostData = p.hostData ∧ (captureError b r p).live = p.live ∧
    (captureError b r p).lastBlocked = p.lastBlocked ∧ (captureError b r p).snap = p.snap ∧
    (captureError b r p).draws = p.draws := by
  simp only [captureError]; (repeat' split) <;> simp

@[simp] theorem captureError_views (b : Branch) (r : ErrorReport) (p : Part) :
    (∀ y, (captureError b r p).engine y = p.engine y) ∧ (∀ y, (captureError b r p).switch y = p.switch y) ∧
    (∀ y, (captureError b r p).path y = p.path y) ∧ (∀ y, (captureError b r p).port y = p.port y) ∧
    (∀ y, (captureError b r p).queue y = p.queue y) ∧ (∀ y, (captureError b r p).job y = p.job y) ∧
    (∀ y z, (captureError b r p).station y z = p.station y z) ∧
    (∀ y, (captureError b r p).branchSetup y = p.branchSetup y) ∧
    (∀ y, (captureError b r p).printerSetup y = p.printerSetup y) := by
  refine ⟨fun _ => by simp [engine], fun _ => by simp [switch], fun _ => by simp [path],
    fun _ => by simp [port], fun _ => by simp [queue], fun _ => by simp [job],
    fun _ _ => by simp [station], fun _ => by simp [branchSetup], fun _ => by simp [printerSetup]⟩

@[simp] theorem warnTest_keeps (b : Branch) (p : Part) :
    (warnTest b p).held = p.held ∧ (warnTest b p).setup = p.setup ∧ (warnTest b p).loader = p.loader ∧
    (warnTest b p).pool = p.pool ∧ (warnTest b p).stations = p.stations ∧ (warnTest b p).units = p.units ∧
    (warnTest b p).nodes = p.nodes ∧ (warnTest b p).engines = p.engines ∧ (warnTest b p).paths = p.paths ∧
    (warnTest b p).router = p.router ∧ (warnTest b p).toTrunk = p.toTrunk ∧
    (warnTest b p).submit = p.submit ∧ (warnTest b p).copy = p.copy ∧ (warnTest b p).jobs = p.jobs ∧
    (warnTest b p).queues = p.queues ∧ (warnTest b p).stamp = p.stamp ∧
    (warnTest b p).moveJob = p.moveJob ∧ (warnTest b p).ports = p.ports ∧ (warnTest b p).sense = p.sense ∧
    (warnTest b p).switches = p.switches ∧ (warnTest b p).branchSel = p.branchSel ∧
    (warnTest b p).button = p.button ∧ (warnTest b p).probe = p.probe ∧
    (warnTest b p).records = p.records ∧ (warnTest b p).writer = p.writer ∧
    (warnTest b p).ring = p.ring ∧
    (warnTest b p).arbiter = p.arbiter ∧ (warnTest b p).hostWait = p.hostWait ∧
    (warnTest b p).hostData = p.hostData ∧ (warnTest b p).live = p.live ∧
    (warnTest b p).lastBlocked = p.lastBlocked ∧ (warnTest b p).snap = p.snap ∧
    (warnTest b p).draws = p.draws := by
  simp only [warnTest]; (repeat' split) <;> simp

@[simp] theorem warnTest_views (b : Branch) (p : Part) :
    (∀ y, (warnTest b p).engine y = p.engine y) ∧ (∀ y, (warnTest b p).switch y = p.switch y) ∧
    (∀ y, (warnTest b p).path y = p.path y) ∧ (∀ y, (warnTest b p).port y = p.port y) ∧
    (∀ y, (warnTest b p).queue y = p.queue y) ∧ (∀ y, (warnTest b p).job y = p.job y) ∧
    (∀ y z, (warnTest b p).station y z = p.station y z) ∧
    (∀ y, (warnTest b p).branchSetup y = p.branchSetup y) ∧
    (∀ y, (warnTest b p).printerSetup y = p.printerSetup y) := by
  refine ⟨fun _ => by simp [engine], fun _ => by simp [switch], fun _ => by simp [path],
    fun _ => by simp [port], fun _ => by simp [queue], fun _ => by simp [job],
    fun _ _ => by simp [station], fun _ => by simp [branchSetup], fun _ => by simp [printerSetup]⟩

@[simp] theorem addWeight_keeps (b : Branch) (k : ErrorKind) (p : Part) :
    (addWeight b k p).held = p.held ∧ (addWeight b k p).setup = p.setup ∧
    (addWeight b k p).loader = p.loader ∧ (addWeight b k p).notices = p.notices ∧
    (addWeight b k p).pool = p.pool ∧ (addWeight b k p).stations = p.stations ∧
    (addWeight b k p).units = p.units ∧ (addWeight b k p).nodes = p.nodes ∧
    (addWeight b k p).engines = p.engines ∧ (addWeight b k p).paths = p.paths ∧
    (addWeight b k p).router = p.router ∧ (addWeight b k p).toTrunk = p.toTrunk ∧
    (addWeight b k p).submit = p.submit ∧ (addWeight b k p).copy = p.copy ∧
    (addWeight b k p).jobs = p.jobs ∧ (addWeight b k p).queues = p.queues ∧
    (addWeight b k p).stamp = p.stamp ∧ (addWeight b k p).moveJob = p.moveJob ∧
    (addWeight b k p).ports = p.ports ∧ (addWeight b k p).sense = p.sense ∧
    (addWeight b k p).switches = p.switches ∧ (addWeight b k p).branchSel = p.branchSel ∧
    (addWeight b k p).button = p.button ∧ (addWeight b k p).probe = p.probe ∧
    (addWeight b k p).records = p.records ∧ (addWeight b k p).writer = p.writer ∧
    (addWeight b k p).ring = p.ring ∧
    (addWeight b k p).arbiter = p.arbiter ∧ (addWeight b k p).hostWait = p.hostWait ∧
    (addWeight b k p).hostData = p.hostData ∧ (addWeight b k p).live = p.live ∧
    (addWeight b k p).lastBlocked = p.lastBlocked ∧ (addWeight b k p).snap = p.snap ∧
    (addWeight b k p).draws = p.draws := by
  refine ⟨rfl, rfl, rfl, rfl, rfl, rfl, rfl, rfl, rfl, rfl, rfl, rfl, rfl, rfl, rfl, rfl, rfl, rfl, rfl, rfl,
    rfl, rfl, rfl, rfl, rfl, rfl, rfl, rfl, rfl, rfl, rfl, rfl, rfl, rfl⟩

@[simp] theorem addWeight_views (b : Branch) (k : ErrorKind) (p : Part) :
    (∀ y, (addWeight b k p).engine y = p.engine y) ∧ (∀ y, (addWeight b k p).switch y = p.switch y) ∧
    (∀ y, (addWeight b k p).path y = p.path y) ∧ (∀ y, (addWeight b k p).port y = p.port y) ∧
    (∀ y, (addWeight b k p).queue y = p.queue y) ∧ (∀ y, (addWeight b k p).job y = p.job y) ∧
    (∀ y z, (addWeight b k p).station y z = p.station y z) ∧
    (∀ y, (addWeight b k p).branchSetup y = p.branchSetup y) ∧
    (∀ y, (addWeight b k p).printerSetup y = p.printerSetup y) := by
  refine ⟨fun _ => by simp [engine], fun _ => by simp [switch], fun _ => by simp [path],
    fun _ => by simp [port], fun _ => by simp [queue], fun _ => by simp [job],
    fun _ _ => by simp [station], fun _ => by simp [branchSetup], fun _ => by simp [printerSetup]⟩

@[simp] theorem scoreError_keeps (b : Branch) (r : ErrorReport) (p : Part) :
    (scoreError b r p).held = p.held ∧ (scoreError b r p).setup = p.setup ∧
    (scoreError b r p).loader = p.loader ∧ (scoreError b r p).pool = p.pool ∧
    (scoreError b r p).stations = p.stations ∧ (scoreError b r p).units = p.units ∧
    (scoreError b r p).nodes = p.nodes ∧ (scoreError b r p).engines = p.engines ∧
    (scoreError b r p).paths = p.paths ∧ (scoreError b r p).router = p.router ∧
    (scoreError b r p).toTrunk = p.toTrunk ∧ (scoreError b r p).submit = p.submit ∧
    (scoreError b r p).copy = p.copy ∧ (scoreError b r p).jobs = p.jobs ∧
    (scoreError b r p).queues = p.queues ∧ (scoreError b r p).stamp = p.stamp ∧
    (scoreError b r p).moveJob = p.moveJob ∧ (scoreError b r p).ports = p.ports ∧
    (scoreError b r p).sense = p.sense ∧ (scoreError b r p).switches = p.switches ∧
    (scoreError b r p).branchSel = p.branchSel ∧ (scoreError b r p).button = p.button ∧
    (scoreError b r p).probe = p.probe ∧ (scoreError b r p).records = p.records ∧
    (scoreError b r p).ring = p.ring ∧
    (scoreError b r p).arbiter = p.arbiter ∧ (scoreError b r p).hostWait = p.hostWait ∧
    (scoreError b r p).hostData = p.hostData ∧ (scoreError b r p).live = p.live ∧
    (scoreError b r p).lastBlocked = p.lastBlocked ∧ (scoreError b r p).snap = p.snap ∧
    (scoreError b r p).draws = p.draws := by
  simp only [scoreError]; (repeat' split) <;> simp

@[simp] theorem scoreError_views (b : Branch) (r : ErrorReport) (p : Part) :
    (∀ y, (scoreError b r p).engine y = p.engine y) ∧ (∀ y, (scoreError b r p).switch y = p.switch y) ∧
    (∀ y, (scoreError b r p).path y = p.path y) ∧ (∀ y, (scoreError b r p).port y = p.port y) ∧
    (∀ y, (scoreError b r p).queue y = p.queue y) ∧ (∀ y, (scoreError b r p).job y = p.job y) ∧
    (∀ y z, (scoreError b r p).station y z = p.station y z) ∧
    (∀ y, (scoreError b r p).branchSetup y = p.branchSetup y) ∧
    (∀ y, (scoreError b r p).printerSetup y = p.printerSetup y) := by
  refine ⟨fun _ => by simp [engine], fun _ => by simp [switch], fun _ => by simp [path],
    fun _ => by simp [port], fun _ => by simp [queue], fun _ => by simp [job],
    fun _ _ => by simp [station], fun _ => by simp [branchSetup], fun _ => by simp [printerSetup]⟩

@[simp] theorem releaseCapture_keeps (b : Branch) (p : Part) :
    (releaseCapture b p).held = p.held ∧ (releaseCapture b p).setup = p.setup ∧
    (releaseCapture b p).loader = p.loader ∧ (releaseCapture b p).notices = p.notices ∧
    (releaseCapture b p).pool = p.pool ∧ (releaseCapture b p).stations = p.stations ∧
    (releaseCapture b p).units = p.units ∧ (releaseCapture b p).nodes = p.nodes ∧
    (releaseCapture b p).engines = p.engines ∧ (releaseCapture b p).paths = p.paths ∧
    (releaseCapture b p).router = p.router ∧ (releaseCapture b p).toTrunk = p.toTrunk ∧
    (releaseCapture b p).submit = p.submit ∧ (releaseCapture b p).copy = p.copy ∧
    (releaseCapture b p).jobs = p.jobs ∧ (releaseCapture b p).queues = p.queues ∧
    (releaseCapture b p).stamp = p.stamp ∧ (releaseCapture b p).moveJob = p.moveJob ∧
    (releaseCapture b p).ports = p.ports ∧ (releaseCapture b p).sense = p.sense ∧
    (releaseCapture b p).switches = p.switches ∧ (releaseCapture b p).branchSel = p.branchSel ∧
    (releaseCapture b p).button = p.button ∧ (releaseCapture b p).probe = p.probe ∧
    (releaseCapture b p).records = p.records ∧ (releaseCapture b p).ring = p.ring ∧
    (releaseCapture b p).arbiter = p.arbiter ∧
    (releaseCapture b p).hostWait = p.hostWait ∧ (releaseCapture b p).hostData = p.hostData ∧
    (releaseCapture b p).live = p.live ∧ (releaseCapture b p).lastBlocked = p.lastBlocked ∧
    (releaseCapture b p).snap = p.snap ∧ (releaseCapture b p).draws = p.draws := by
  refine ⟨rfl, rfl, rfl, rfl, rfl, rfl, rfl, rfl, rfl, rfl, rfl, rfl, rfl, rfl, rfl, rfl, rfl, rfl, rfl, rfl,
    rfl, rfl, rfl, rfl, rfl, rfl, rfl, rfl, rfl, rfl, rfl, rfl, rfl⟩

@[simp] theorem releaseCapture_views (b : Branch) (p : Part) :
    (∀ y, (releaseCapture b p).engine y = p.engine y) ∧ (∀ y, (releaseCapture b p).switch y = p.switch y) ∧
    (∀ y, (releaseCapture b p).path y = p.path y) ∧ (∀ y, (releaseCapture b p).port y = p.port y) ∧
    (∀ y, (releaseCapture b p).queue y = p.queue y) ∧ (∀ y, (releaseCapture b p).job y = p.job y) ∧
    (∀ y z, (releaseCapture b p).station y z = p.station y z) ∧
    (∀ y, (releaseCapture b p).branchSetup y = p.branchSetup y) ∧
    (∀ y, (releaseCapture b p).printerSetup y = p.printerSetup y) := by
  refine ⟨fun _ => by simp [engine], fun _ => by simp [switch], fun _ => by simp [path],
    fun _ => by simp [port], fun _ => by simp [queue], fun _ => by simp [job],
    fun _ _ => by simp [station], fun _ => by simp [branchSetup], fun _ => by simp [printerSetup]⟩

@[simp] theorem decayScore_keeps (b : Branch) (p : Part) :
    (decayScore b p).held = p.held ∧ (decayScore b p).setup = p.setup ∧
    (decayScore b p).loader = p.loader ∧ (decayScore b p).pool = p.pool ∧
    (decayScore b p).stations = p.stations ∧ (decayScore b p).units = p.units ∧
    (decayScore b p).nodes = p.nodes ∧ (decayScore b p).engines = p.engines ∧
    (decayScore b p).paths = p.paths ∧ (decayScore b p).router = p.router ∧
    (decayScore b p).toTrunk = p.toTrunk ∧ (decayScore b p).submit = p.submit ∧
    (decayScore b p).copy = p.copy ∧ (decayScore b p).jobs = p.jobs ∧ (decayScore b p).queues = p.queues ∧
    (decayScore b p).stamp = p.stamp ∧ (decayScore b p).moveJob = p.moveJob ∧
    (decayScore b p).ports = p.ports ∧ (decayScore b p).sense = p.sense ∧
    (decayScore b p).switches = p.switches ∧ (decayScore b p).branchSel = p.branchSel ∧
    (decayScore b p).button = p.button ∧ (decayScore b p).probe = p.probe ∧
    (decayScore b p).records = p.records ∧ (decayScore b p).writer = p.writer ∧
    (decayScore b p).ring = p.ring ∧
    (decayScore b p).arbiter = p.arbiter ∧ (decayScore b p).hostWait = p.hostWait ∧
    (decayScore b p).hostData = p.hostData ∧ (decayScore b p).live = p.live ∧
    (decayScore b p).lastBlocked = p.lastBlocked ∧ (decayScore b p).snap = p.snap ∧
    (decayScore b p).draws = p.draws := by
  simp only [decayScore]; (repeat' split) <;> simp

@[simp] theorem decayScore_views (b : Branch) (p : Part) :
    (∀ y, (decayScore b p).engine y = p.engine y) ∧ (∀ y, (decayScore b p).switch y = p.switch y) ∧
    (∀ y, (decayScore b p).path y = p.path y) ∧ (∀ y, (decayScore b p).port y = p.port y) ∧
    (∀ y, (decayScore b p).queue y = p.queue y) ∧ (∀ y, (decayScore b p).job y = p.job y) ∧
    (∀ y z, (decayScore b p).station y z = p.station y z) ∧
    (∀ y, (decayScore b p).branchSetup y = p.branchSetup y) ∧
    (∀ y, (decayScore b p).printerSetup y = p.printerSetup y) := by
  refine ⟨fun _ => by simp [engine], fun _ => by simp [switch], fun _ => by simp [path],
    fun _ => by simp [port], fun _ => by simp [queue], fun _ => by simp [job],
    fun _ _ => by simp [station], fun _ => by simp [branchSetup], fun _ => by simp [printerSetup]⟩

@[simp] theorem creditRound_keeps (b : Branch) (p : Part) :
    (creditRound b p).held = p.held ∧ (creditRound b p).setup = p.setup ∧
    (creditRound b p).loader = p.loader ∧ (creditRound b p).pool = p.pool ∧
    (creditRound b p).stations = p.stations ∧ (creditRound b p).units = p.units ∧
    (creditRound b p).nodes = p.nodes ∧ (creditRound b p).engines = p.engines ∧
    (creditRound b p).paths = p.paths ∧ (creditRound b p).router = p.router ∧
    (creditRound b p).toTrunk = p.toTrunk ∧ (creditRound b p).submit = p.submit ∧
    (creditRound b p).copy = p.copy ∧ (creditRound b p).jobs = p.jobs ∧
    (creditRound b p).queues = p.queues ∧ (creditRound b p).stamp = p.stamp ∧
    (creditRound b p).moveJob = p.moveJob ∧ (creditRound b p).ports = p.ports ∧
    (creditRound b p).sense = p.sense ∧ (creditRound b p).switches = p.switches ∧
    (creditRound b p).branchSel = p.branchSel ∧ (creditRound b p).button = p.button ∧
    (creditRound b p).probe = p.probe ∧ (creditRound b p).records = p.records ∧
    (creditRound b p).writer = p.writer ∧ (creditRound b p).ring = p.ring ∧
    (creditRound b p).arbiter = p.arbiter ∧
    (creditRound b p).hostWait = p.hostWait ∧ (creditRound b p).hostData = p.hostData ∧
    (creditRound b p).live = p.live ∧ (creditRound b p).lastBlocked = p.lastBlocked ∧
    (creditRound b p).snap = p.snap ∧ (creditRound b p).draws = p.draws := by
  simp only [creditRound]; (repeat' split) <;> simp

@[simp] theorem creditRound_views (b : Branch) (p : Part) :
    (∀ y, (creditRound b p).engine y = p.engine y) ∧ (∀ y, (creditRound b p).switch y = p.switch y) ∧
    (∀ y, (creditRound b p).path y = p.path y) ∧ (∀ y, (creditRound b p).port y = p.port y) ∧
    (∀ y, (creditRound b p).queue y = p.queue y) ∧ (∀ y, (creditRound b p).job y = p.job y) ∧
    (∀ y z, (creditRound b p).station y z = p.station y z) ∧
    (∀ y, (creditRound b p).branchSetup y = p.branchSetup y) ∧
    (∀ y, (creditRound b p).printerSetup y = p.printerSetup y) := by
  refine ⟨fun _ => by simp [engine], fun _ => by simp [switch], fun _ => by simp [path],
    fun _ => by simp [port], fun _ => by simp [queue], fun _ => by simp [job],
    fun _ _ => by simp [station], fun _ => by simp [branchSetup], fun _ => by simp [printerSetup]⟩

@[simp] theorem zeroScore_keeps (b : Branch) (p : Part) :
    (zeroScore b p).held = p.held ∧ (zeroScore b p).setup = p.setup ∧ (zeroScore b p).loader = p.loader ∧
    (zeroScore b p).notices = p.notices ∧ (zeroScore b p).pool = p.pool ∧
    (zeroScore b p).stations = p.stations ∧ (zeroScore b p).units = p.units ∧
    (zeroScore b p).nodes = p.nodes ∧ (zeroScore b p).engines = p.engines ∧
    (zeroScore b p).paths = p.paths ∧ (zeroScore b p).router = p.router ∧
    (zeroScore b p).toTrunk = p.toTrunk ∧ (zeroScore b p).submit = p.submit ∧
    (zeroScore b p).copy = p.copy ∧ (zeroScore b p).jobs = p.jobs ∧ (zeroScore b p).queues = p.queues ∧
    (zeroScore b p).stamp = p.stamp ∧ (zeroScore b p).moveJob = p.moveJob ∧
    (zeroScore b p).ports = p.ports ∧ (zeroScore b p).sense = p.sense ∧
    (zeroScore b p).switches = p.switches ∧ (zeroScore b p).branchSel = p.branchSel ∧
    (zeroScore b p).button = p.button ∧ (zeroScore b p).probe = p.probe ∧
    (zeroScore b p).records = p.records ∧ (zeroScore b p).writer = p.writer ∧
    (zeroScore b p).ring = p.ring ∧
    (zeroScore b p).arbiter = p.arbiter ∧ (zeroScore b p).hostWait = p.hostWait ∧
    (zeroScore b p).hostData = p.hostData ∧ (zeroScore b p).live = p.live ∧
    (zeroScore b p).lastBlocked = p.lastBlocked ∧ (zeroScore b p).snap = p.snap ∧
    (zeroScore b p).draws = p.draws := by
  refine ⟨rfl, rfl, rfl, rfl, rfl, rfl, rfl, rfl, rfl, rfl, rfl, rfl, rfl, rfl, rfl, rfl, rfl, rfl, rfl, rfl,
    rfl, rfl, rfl, rfl, rfl, rfl, rfl, rfl, rfl, rfl, rfl, rfl, rfl, rfl⟩

@[simp] theorem zeroScore_views (b : Branch) (p : Part) :
    (∀ y, (zeroScore b p).engine y = p.engine y) ∧ (∀ y, (zeroScore b p).switch y = p.switch y) ∧
    (∀ y, (zeroScore b p).path y = p.path y) ∧ (∀ y, (zeroScore b p).port y = p.port y) ∧
    (∀ y, (zeroScore b p).queue y = p.queue y) ∧ (∀ y, (zeroScore b p).job y = p.job y) ∧
    (∀ y z, (zeroScore b p).station y z = p.station y z) ∧
    (∀ y, (zeroScore b p).branchSetup y = p.branchSetup y) ∧
    (∀ y, (zeroScore b p).printerSetup y = p.printerSetup y) := by
  refine ⟨fun _ => by simp [engine], fun _ => by simp [switch], fun _ => by simp [path],
    fun _ => by simp [port], fun _ => by simp [queue], fun _ => by simp [job],
    fun _ _ => by simp [station], fun _ => by simp [branchSetup], fun _ => by simp [printerSetup]⟩

@[simp] theorem trialScore_keeps (b : Branch) (p : Part) :
    (trialScore b p).held = p.held ∧ (trialScore b p).setup = p.setup ∧
    (trialScore b p).loader = p.loader ∧ (trialScore b p).pool = p.pool ∧
    (trialScore b p).stations = p.stations ∧ (trialScore b p).units = p.units ∧
    (trialScore b p).nodes = p.nodes ∧ (trialScore b p).engines = p.engines ∧
    (trialScore b p).paths = p.paths ∧ (trialScore b p).router = p.router ∧
    (trialScore b p).toTrunk = p.toTrunk ∧ (trialScore b p).submit = p.submit ∧
    (trialScore b p).copy = p.copy ∧ (trialScore b p).jobs = p.jobs ∧ (trialScore b p).queues = p.queues ∧
    (trialScore b p).stamp = p.stamp ∧ (trialScore b p).moveJob = p.moveJob ∧
    (trialScore b p).ports = p.ports ∧ (trialScore b p).sense = p.sense ∧
    (trialScore b p).switches = p.switches ∧ (trialScore b p).branchSel = p.branchSel ∧
    (trialScore b p).button = p.button ∧ (trialScore b p).probe = p.probe ∧
    (trialScore b p).records = p.records ∧ (trialScore b p).writer = p.writer ∧
    (trialScore b p).ring = p.ring ∧
    (trialScore b p).arbiter = p.arbiter ∧ (trialScore b p).hostWait = p.hostWait ∧
    (trialScore b p).hostData = p.hostData ∧ (trialScore b p).live = p.live ∧
    (trialScore b p).lastBlocked = p.lastBlocked ∧ (trialScore b p).snap = p.snap ∧
    (trialScore b p).draws = p.draws := by
  simp only [trialScore]; (repeat' split) <;> simp

@[simp] theorem trialScore_views (b : Branch) (p : Part) :
    (∀ y, (trialScore b p).engine y = p.engine y) ∧ (∀ y, (trialScore b p).switch y = p.switch y) ∧
    (∀ y, (trialScore b p).path y = p.path y) ∧ (∀ y, (trialScore b p).port y = p.port y) ∧
    (∀ y, (trialScore b p).queue y = p.queue y) ∧ (∀ y, (trialScore b p).job y = p.job y) ∧
    (∀ y z, (trialScore b p).station y z = p.station y z) ∧
    (∀ y, (trialScore b p).branchSetup y = p.branchSetup y) ∧
    (∀ y, (trialScore b p).printerSetup y = p.printerSetup y) := by
  refine ⟨fun _ => by simp [engine], fun _ => by simp [switch], fun _ => by simp [path],
    fun _ => by simp [port], fun _ => by simp [queue], fun _ => by simp [job],
    fun _ _ => by simp [station], fun _ => by simp [branchSetup], fun _ => by simp [printerSetup]⟩

@[simp] theorem openGate_keeps (b : Branch) (p : Part) :
    (openGate b p).held = p.held ∧ (openGate b p).setup = p.setup ∧ (openGate b p).loader = p.loader ∧
    (openGate b p).notices = p.notices ∧ (openGate b p).pool = p.pool ∧
    (openGate b p).stations = p.stations ∧ (openGate b p).units = p.units ∧
    (openGate b p).nodes = p.nodes ∧ (openGate b p).engines = p.engines ∧ (openGate b p).paths = p.paths ∧
    (openGate b p).router = p.router ∧ (openGate b p).toTrunk = p.toTrunk ∧
    (openGate b p).submit = p.submit ∧ (openGate b p).copy = p.copy ∧ (openGate b p).jobs = p.jobs ∧
    (openGate b p).queues = p.queues ∧ (openGate b p).stamp = p.stamp ∧
    (openGate b p).moveJob = p.moveJob ∧ (openGate b p).ports = p.ports ∧ (openGate b p).sense = p.sense ∧
    (openGate b p).switches = p.switches ∧ (openGate b p).branchSel = p.branchSel ∧
    (openGate b p).button = p.button ∧ (openGate b p).probe = p.probe ∧
    (openGate b p).records = p.records ∧ (openGate b p).writer = p.writer ∧
    (openGate b p).ring = p.ring ∧
    (openGate b p).arbiter = p.arbiter ∧ (openGate b p).hostWait = p.hostWait ∧
    (openGate b p).hostData = p.hostData ∧ (openGate b p).live = p.live ∧
    (openGate b p).lastBlocked = p.lastBlocked ∧ (openGate b p).snap = p.snap ∧
    (openGate b p).draws = p.draws := by
  refine ⟨rfl, rfl, rfl, rfl, rfl, rfl, rfl, rfl, rfl, rfl, rfl, rfl, rfl, rfl, rfl, rfl, rfl, rfl, rfl, rfl,
    rfl, rfl, rfl, rfl, rfl, rfl, rfl, rfl, rfl, rfl, rfl, rfl, rfl, rfl⟩

@[simp] theorem openGate_views (b : Branch) (p : Part) :
    (∀ y, (openGate b p).engine y = p.engine y) ∧ (∀ y, (openGate b p).switch y = p.switch y) ∧
    (∀ y, (openGate b p).path y = p.path y) ∧ (∀ y, (openGate b p).port y = p.port y) ∧
    (∀ y, (openGate b p).queue y = p.queue y) ∧ (∀ y, (openGate b p).job y = p.job y) ∧
    (∀ y z, (openGate b p).station y z = p.station y z) ∧
    (∀ y, (openGate b p).branchSetup y = p.branchSetup y) ∧
    (∀ y, (openGate b p).printerSetup y = p.printerSetup y) := by
  refine ⟨fun _ => by simp [engine], fun _ => by simp [switch], fun _ => by simp [path],
    fun _ => by simp [port], fun _ => by simp [queue], fun _ => by simp [job],
    fun _ _ => by simp [station], fun _ => by simp [branchSetup], fun _ => by simp [printerSetup]⟩

@[simp] theorem closeGate_keeps (b : Branch) (p : Part) :
    (closeGate b p).held = p.held ∧ (closeGate b p).setup = p.setup ∧ (closeGate b p).loader = p.loader ∧
    (closeGate b p).notices = p.notices ∧ (closeGate b p).pool = p.pool ∧
    (closeGate b p).stations = p.stations ∧ (closeGate b p).units = p.units ∧
    (closeGate b p).nodes = p.nodes ∧ (closeGate b p).engines = p.engines ∧
    (closeGate b p).paths = p.paths ∧ (closeGate b p).router = p.router ∧
    (closeGate b p).toTrunk = p.toTrunk ∧ (closeGate b p).submit = p.submit ∧
    (closeGate b p).copy = p.copy ∧ (closeGate b p).jobs = p.jobs ∧ (closeGate b p).queues = p.queues ∧
    (closeGate b p).stamp = p.stamp ∧ (closeGate b p).moveJob = p.moveJob ∧
    (closeGate b p).ports = p.ports ∧ (closeGate b p).sense = p.sense ∧
    (closeGate b p).switches = p.switches ∧ (closeGate b p).branchSel = p.branchSel ∧
    (closeGate b p).button = p.button ∧ (closeGate b p).probe = p.probe ∧
    (closeGate b p).records = p.records ∧ (closeGate b p).writer = p.writer ∧
    (closeGate b p).ring = p.ring ∧
    (closeGate b p).arbiter = p.arbiter ∧ (closeGate b p).hostWait = p.hostWait ∧
    (closeGate b p).hostData = p.hostData ∧ (closeGate b p).live = p.live ∧
    (closeGate b p).lastBlocked = p.lastBlocked ∧ (closeGate b p).snap = p.snap ∧
    (closeGate b p).draws = p.draws := by
  refine ⟨rfl, rfl, rfl, rfl, rfl, rfl, rfl, rfl, rfl, rfl, rfl, rfl, rfl, rfl, rfl, rfl, rfl, rfl, rfl, rfl,
    rfl, rfl, rfl, rfl, rfl, rfl, rfl, rfl, rfl, rfl, rfl, rfl, rfl, rfl⟩

@[simp] theorem closeGate_views (b : Branch) (p : Part) :
    (∀ y, (closeGate b p).engine y = p.engine y) ∧ (∀ y, (closeGate b p).switch y = p.switch y) ∧
    (∀ y, (closeGate b p).path y = p.path y) ∧ (∀ y, (closeGate b p).port y = p.port y) ∧
    (∀ y, (closeGate b p).queue y = p.queue y) ∧ (∀ y, (closeGate b p).job y = p.job y) ∧
    (∀ y z, (closeGate b p).station y z = p.station y z) ∧
    (∀ y, (closeGate b p).branchSetup y = p.branchSetup y) ∧
    (∀ y, (closeGate b p).printerSetup y = p.printerSetup y) := by
  refine ⟨fun _ => by simp [engine], fun _ => by simp [switch], fun _ => by simp [path],
    fun _ => by simp [port], fun _ => by simp [queue], fun _ => by simp [job],
    fun _ _ => by simp [station], fun _ => by simp [branchSetup], fun _ => by simp [printerSetup]⟩

@[simp] theorem discardGate_keeps (b : Branch) (p : Part) :
    (discardGate b p).held = p.held ∧ (discardGate b p).setup = p.setup ∧
    (discardGate b p).loader = p.loader ∧ (discardGate b p).notices = p.notices ∧
    (discardGate b p).pool = p.pool ∧ (discardGate b p).stations = p.stations ∧
    (discardGate b p).units = p.units ∧ (discardGate b p).nodes = p.nodes ∧
    (discardGate b p).engines = p.engines ∧ (discardGate b p).paths = p.paths ∧
    (discardGate b p).router = p.router ∧ (discardGate b p).toTrunk = p.toTrunk ∧
    (discardGate b p).submit = p.submit ∧ (discardGate b p).copy = p.copy ∧
    (discardGate b p).jobs = p.jobs ∧ (discardGate b p).queues = p.queues ∧
    (discardGate b p).stamp = p.stamp ∧ (discardGate b p).moveJob = p.moveJob ∧
    (discardGate b p).ports = p.ports ∧ (discardGate b p).sense = p.sense ∧
    (discardGate b p).switches = p.switches ∧ (discardGate b p).branchSel = p.branchSel ∧
    (discardGate b p).button = p.button ∧ (discardGate b p).probe = p.probe ∧
    (discardGate b p).records = p.records ∧ (discardGate b p).writer = p.writer ∧
    (discardGate b p).ring = p.ring ∧
    (discardGate b p).arbiter = p.arbiter ∧ (discardGate b p).hostWait = p.hostWait ∧
    (discardGate b p).hostData = p.hostData ∧ (discardGate b p).live = p.live ∧
    (discardGate b p).lastBlocked = p.lastBlocked ∧ (discardGate b p).snap = p.snap ∧
    (discardGate b p).draws = p.draws := by
  refine ⟨rfl, rfl, rfl, rfl, rfl, rfl, rfl, rfl, rfl, rfl, rfl, rfl, rfl, rfl, rfl, rfl, rfl, rfl, rfl, rfl,
    rfl, rfl, rfl, rfl, rfl, rfl, rfl, rfl, rfl, rfl, rfl, rfl, rfl, rfl⟩

@[simp] theorem discardGate_views (b : Branch) (p : Part) :
    (∀ y, (discardGate b p).engine y = p.engine y) ∧ (∀ y, (discardGate b p).switch y = p.switch y) ∧
    (∀ y, (discardGate b p).path y = p.path y) ∧ (∀ y, (discardGate b p).port y = p.port y) ∧
    (∀ y, (discardGate b p).queue y = p.queue y) ∧ (∀ y, (discardGate b p).job y = p.job y) ∧
    (∀ y z, (discardGate b p).station y z = p.station y z) ∧
    (∀ y, (discardGate b p).branchSetup y = p.branchSetup y) ∧
    (∀ y, (discardGate b p).printerSetup y = p.printerSetup y) := by
  refine ⟨fun _ => by simp [engine], fun _ => by simp [switch], fun _ => by simp [path],
    fun _ => by simp [port], fun _ => by simp [queue], fun _ => by simp [job],
    fun _ _ => by simp [station], fun _ => by simp [branchSetup], fun _ => by simp [printerSetup]⟩

@[simp] theorem updStation_keeps (b : Branch) (n : StationNo) (f : Station → Station) (p : Part) :
    (updStation b n f p).held = p.held ∧ (updStation b n f p).setup = p.setup ∧
    (updStation b n f p).loader = p.loader ∧ (updStation b n f p).notices = p.notices ∧
    (updStation b n f p).pool = p.pool ∧ (updStation b n f p).units = p.units ∧
    (updStation b n f p).nodes = p.nodes ∧ (updStation b n f p).engines = p.engines ∧
    (updStation b n f p).paths = p.paths ∧ (updStation b n f p).router = p.router ∧
    (updStation b n f p).toTrunk = p.toTrunk ∧ (updStation b n f p).submit = p.submit ∧
    (updStation b n f p).copy = p.copy ∧ (updStation b n f p).jobs = p.jobs ∧
    (updStation b n f p).queues = p.queues ∧ (updStation b n f p).stamp = p.stamp ∧
    (updStation b n f p).moveJob = p.moveJob ∧ (updStation b n f p).ports = p.ports ∧
    (updStation b n f p).sups = p.sups ∧ (updStation b n f p).sense = p.sense ∧
    (updStation b n f p).switches = p.switches ∧ (updStation b n f p).branchSel = p.branchSel ∧
    (updStation b n f p).button = p.button ∧ (updStation b n f p).probe = p.probe ∧
    (updStation b n f p).records = p.records ∧ (updStation b n f p).ring = p.ring ∧
    (updStation b n f p).arbiter = p.arbiter ∧
    (updStation b n f p).hostWait = p.hostWait ∧ (updStation b n f p).hostData = p.hostData ∧
    (updStation b n f p).live = p.live ∧ (updStation b n f p).lastBlocked = p.lastBlocked ∧
    (updStation b n f p).snap = p.snap ∧ (updStation b n f p).draws = p.draws := by
  simp only [updStation]; (repeat' split) <;> simp

@[simp] theorem updStation_views (b : Branch) (n : StationNo) (f : Station → Station) (p : Part) :
    (∀ y, (updStation b n f p).engine y = p.engine y) ∧ (∀ y, (updStation b n f p).switch y = p.switch y) ∧
    (∀ y, (updStation b n f p).sup y = p.sup y) ∧ (∀ y, (updStation b n f p).path y = p.path y) ∧
    (∀ y, (updStation b n f p).port y = p.port y) ∧ (∀ y, (updStation b n f p).queue y = p.queue y) ∧
    (∀ y, (updStation b n f p).job y = p.job y) ∧
    (∀ y, (updStation b n f p).branchSetup y = p.branchSetup y) ∧
    (∀ y, (updStation b n f p).printerSetup y = p.printerSetup y) := by
  refine ⟨fun _ => by simp [engine], fun _ => by simp [switch], fun _ => by simp [sup],
    fun _ => by simp [path], fun _ => by simp [port], fun _ => by simp [queue], fun _ => by simp [job],
    fun _ => by simp [branchSetup], fun _ => by simp [printerSetup]⟩

@[simp] theorem updJob_keeps (j : JobNo) (f : Job → Job) (n : BitVec 16) (p : Part) :
    (updJob j f n p).held = p.held ∧ (updJob j f n p).setup = p.setup ∧
    (updJob j f n p).loader = p.loader ∧ (updJob j f n p).notices = p.notices ∧
    (updJob j f n p).pool = p.pool ∧ (updJob j f n p).stations = p.stations ∧
    (updJob j f n p).units = p.units ∧ (updJob j f n p).nodes = p.nodes ∧
    (updJob j f n p).engines = p.engines ∧ (updJob j f n p).paths = p.paths ∧
    (updJob j f n p).router = p.router ∧ (updJob j f n p).toTrunk = p.toTrunk ∧
    (updJob j f n p).submit = p.submit ∧ (updJob j f n p).copy = p.copy ∧
    (updJob j f n p).queues = p.queues ∧ (updJob j f n p).stamp = p.stamp ∧
    (updJob j f n p).moveJob = p.moveJob ∧ (updJob j f n p).ports = p.ports ∧
    (updJob j f n p).sups = p.sups ∧ (updJob j f n p).sense = p.sense ∧
    (updJob j f n p).switches = p.switches ∧ (updJob j f n p).branchSel = p.branchSel ∧
    (updJob j f n p).button = p.button ∧ (updJob j f n p).probe = p.probe ∧
    (updJob j f n p).records = p.records ∧ (updJob j f n p).ring = p.ring ∧
    (updJob j f n p).arbiter = p.arbiter ∧
    (updJob j f n p).hostWait = p.hostWait ∧ (updJob j f n p).hostData = p.hostData ∧
    (updJob j f n p).live = p.live ∧ (updJob j f n p).lastBlocked = p.lastBlocked ∧
    (updJob j f n p).snap = p.snap ∧ (updJob j f n p).draws = p.draws := by
  refine ⟨rfl, rfl, rfl, rfl, rfl, rfl, rfl, rfl, rfl, rfl, rfl, rfl, rfl, rfl, rfl, rfl, rfl, rfl, rfl, rfl,
    rfl, rfl, rfl, rfl, rfl, rfl, rfl, rfl, rfl, rfl, rfl, rfl, rfl⟩

@[simp] theorem updJob_views (j : JobNo) (f : Job → Job) (n : BitVec 16) (p : Part) :
    (∀ y, (updJob j f n p).engine y = p.engine y) ∧ (∀ y, (updJob j f n p).switch y = p.switch y) ∧
    (∀ y, (updJob j f n p).sup y = p.sup y) ∧ (∀ y, (updJob j f n p).path y = p.path y) ∧
    (∀ y, (updJob j f n p).port y = p.port y) ∧ (∀ y, (updJob j f n p).queue y = p.queue y) ∧
    (∀ y z, (updJob j f n p).station y z = p.station y z) ∧
    (∀ y, (updJob j f n p).branchSetup y = p.branchSetup y) ∧
    (∀ y, (updJob j f n p).printerSetup y = p.printerSetup y) := by
  refine ⟨fun _ => by simp [engine], fun _ => by simp [switch], fun _ => by simp [sup],
    fun _ => by simp [path], fun _ => by simp [port], fun _ => by simp [queue],
    fun _ _ => by simp [station], fun _ => by simp [branchSetup], fun _ => by simp [printerSetup]⟩

@[simp] theorem reportOpened_keeps (x : JobOrigin) (p : Part) :
    (reportOpened x p).held = p.held ∧ (reportOpened x p).setup = p.setup ∧
    (reportOpened x p).loader = p.loader ∧ (reportOpened x p).notices = p.notices ∧
    (reportOpened x p).pool = p.pool ∧ (reportOpened x p).units = p.units ∧
    (reportOpened x p).nodes = p.nodes ∧ (reportOpened x p).engines = p.engines ∧
    (reportOpened x p).paths = p.paths ∧ (reportOpened x p).router = p.router ∧
    (reportOpened x p).toTrunk = p.toTrunk ∧ (reportOpened x p).submit = p.submit ∧
    (reportOpened x p).copy = p.copy ∧ (reportOpened x p).jobs = p.jobs ∧
    (reportOpened x p).queues = p.queues ∧ (reportOpened x p).stamp = p.stamp ∧
    (reportOpened x p).moveJob = p.moveJob ∧ (reportOpened x p).ports = p.ports ∧
    (reportOpened x p).sups = p.sups ∧ (reportOpened x p).sense = p.sense ∧
    (reportOpened x p).switches = p.switches ∧ (reportOpened x p).branchSel = p.branchSel ∧
    (reportOpened x p).button = p.button ∧ (reportOpened x p).probe = p.probe ∧
    (reportOpened x p).records = p.records ∧ (reportOpened x p).ring = p.ring ∧
    (reportOpened x p).arbiter = p.arbiter ∧
    (reportOpened x p).hostWait = p.hostWait ∧ (reportOpened x p).hostData = p.hostData ∧
    (reportOpened x p).live = p.live ∧ (reportOpened x p).lastBlocked = p.lastBlocked ∧
    (reportOpened x p).snap = p.snap ∧ (reportOpened x p).draws = p.draws := by
  simp only [reportOpened]; (repeat' split) <;> simp

@[simp] theorem reportOpened_views (x : JobOrigin) (p : Part) :
    (∀ y, (reportOpened x p).engine y = p.engine y) ∧ (∀ y, (reportOpened x p).switch y = p.switch y) ∧
    (∀ y, (reportOpened x p).sup y = p.sup y) ∧ (∀ y, (reportOpened x p).path y = p.path y) ∧
    (∀ y, (reportOpened x p).port y = p.port y) ∧ (∀ y, (reportOpened x p).queue y = p.queue y) ∧
    (∀ y, (reportOpened x p).job y = p.job y) ∧ (∀ y, (reportOpened x p).branchSetup y = p.branchSetup y) ∧
    (∀ y, (reportOpened x p).printerSetup y = p.printerSetup y) := by
  refine ⟨fun _ => by simp [engine], fun _ => by simp [switch], fun _ => by simp [sup],
    fun _ => by simp [path], fun _ => by simp [port], fun _ => by simp [queue], fun _ => by simp [job],
    fun _ => by simp [branchSetup], fun _ => by simp [printerSetup]⟩

@[simp] theorem reportLeft_keeps (x : JobOrigin) (p : Part) :
    (reportLeft x p).held = p.held ∧ (reportLeft x p).setup = p.setup ∧
    (reportLeft x p).loader = p.loader ∧ (reportLeft x p).notices = p.notices ∧
    (reportLeft x p).pool = p.pool ∧ (reportLeft x p).units = p.units ∧ (reportLeft x p).nodes = p.nodes ∧
    (reportLeft x p).engines = p.engines ∧ (reportLeft x p).paths = p.paths ∧
    (reportLeft x p).router = p.router ∧ (reportLeft x p).toTrunk = p.toTrunk ∧
    (reportLeft x p).submit = p.submit ∧ (reportLeft x p).copy = p.copy ∧ (reportLeft x p).jobs = p.jobs ∧
    (reportLeft x p).queues = p.queues ∧ (reportLeft x p).stamp = p.stamp ∧
    (reportLeft x p).moveJob = p.moveJob ∧ (reportLeft x p).ports = p.ports ∧
    (reportLeft x p).sups = p.sups ∧ (reportLeft x p).sense = p.sense ∧
    (reportLeft x p).switches = p.switches ∧ (reportLeft x p).branchSel = p.branchSel ∧
    (reportLeft x p).button = p.button ∧ (reportLeft x p).probe = p.probe ∧
    (reportLeft x p).records = p.records ∧ (reportLeft x p).ring = p.ring ∧
    (reportLeft x p).arbiter = p.arbiter ∧
    (reportLeft x p).hostWait = p.hostWait ∧ (reportLeft x p).hostData = p.hostData ∧
    (reportLeft x p).live = p.live ∧ (reportLeft x p).lastBlocked = p.lastBlocked ∧
    (reportLeft x p).snap = p.snap ∧ (reportLeft x p).draws = p.draws := by
  simp only [reportLeft]; (repeat' split) <;> simp

@[simp] theorem reportLeft_views (x : JobOrigin) (p : Part) :
    (∀ y, (reportLeft x p).engine y = p.engine y) ∧ (∀ y, (reportLeft x p).switch y = p.switch y) ∧
    (∀ y, (reportLeft x p).sup y = p.sup y) ∧ (∀ y, (reportLeft x p).path y = p.path y) ∧
    (∀ y, (reportLeft x p).port y = p.port y) ∧ (∀ y, (reportLeft x p).queue y = p.queue y) ∧
    (∀ y, (reportLeft x p).job y = p.job y) ∧ (∀ y, (reportLeft x p).branchSetup y = p.branchSetup y) ∧
    (∀ y, (reportLeft x p).printerSetup y = p.printerSetup y) := by
  refine ⟨fun _ => by simp [engine], fun _ => by simp [switch], fun _ => by simp [sup],
    fun _ => by simp [path], fun _ => by simp [port], fun _ => by simp [queue], fun _ => by simp [job],
    fun _ => by simp [branchSetup], fun _ => by simp [printerSetup]⟩

@[simp] theorem openJob_keeps (j : JobNo) (k : Port) (x : JobOrigin) (p : Part) :
    (openJob j k x p).held = p.held ∧ (openJob j k x p).setup = p.setup ∧
    (openJob j k x p).loader = p.loader ∧ (openJob j k x p).notices = p.notices ∧
    (openJob j k x p).pool = p.pool ∧ (openJob j k x p).units = p.units ∧
    (openJob j k x p).nodes = p.nodes ∧ (openJob j k x p).engines = p.engines ∧
    (openJob j k x p).paths = p.paths ∧ (openJob j k x p).router = p.router ∧
    (openJob j k x p).toTrunk = p.toTrunk ∧ (openJob j k x p).submit = p.submit ∧
    (openJob j k x p).copy = p.copy ∧ (openJob j k x p).queues = p.queues ∧
    (openJob j k x p).stamp = p.stamp ∧ (openJob j k x p).moveJob = p.moveJob ∧
    (openJob j k x p).ports = p.ports ∧ (openJob j k x p).sups = p.sups ∧
    (openJob j k x p).sense = p.sense ∧ (openJob j k x p).switches = p.switches ∧
    (openJob j k x p).branchSel = p.branchSel ∧ (openJob j k x p).button = p.button ∧
    (openJob j k x p).probe = p.probe ∧ (openJob j k x p).records = p.records ∧
    (openJob j k x p).ring = p.ring ∧
    (openJob j k x p).arbiter = p.arbiter ∧ (openJob j k x p).hostWait = p.hostWait ∧
    (openJob j k x p).hostData = p.hostData ∧ (openJob j k x p).live = p.live ∧
    (openJob j k x p).lastBlocked = p.lastBlocked ∧ (openJob j k x p).snap = p.snap ∧
    (openJob j k x p).draws = p.draws := by
  simp only [openJob]; (repeat' split) <;> simp

@[simp] theorem openJob_views (j : JobNo) (k : Port) (x : JobOrigin) (p : Part) :
    (∀ y, (openJob j k x p).engine y = p.engine y) ∧ (∀ y, (openJob j k x p).switch y = p.switch y) ∧
    (∀ y, (openJob j k x p).sup y = p.sup y) ∧ (∀ y, (openJob j k x p).path y = p.path y) ∧
    (∀ y, (openJob j k x p).port y = p.port y) ∧ (∀ y, (openJob j k x p).queue y = p.queue y) ∧
    (∀ y, (openJob j k x p).branchSetup y = p.branchSetup y) ∧
    (∀ y, (openJob j k x p).printerSetup y = p.printerSetup y) := by
  refine ⟨fun _ => by simp [engine], fun _ => by simp [switch], fun _ => by simp [sup],
    fun _ => by simp [path], fun _ => by simp [port], fun _ => by simp [queue],
    fun _ => by simp [branchSetup], fun _ => by simp [printerSetup]⟩

/-- A chain is full where it has as many entries as the limit in force (R80). -/
@[simp] theorem chainFull_eq_true (p : Part) (j : JobNo) :
    p.chainFull j = true ↔ p.setup.jobBufferLimit ≤ (p.job j).chain.length := by simp [chainFull]

/-- A chain that is not full has room for an entry (R80). -/
@[simp] theorem chainFull_eq_false (p : Part) (j : JobNo) :
    p.chainFull j = false ↔ (p.job j).chain.length < p.setup.jobBufferLimit := by simp [chainFull]

@[simp] theorem addToChain_keeps (j : JobNo) (e : ChainEntry) (p : Part) :
    (addToChain j e p).held = p.held ∧ (addToChain j e p).setup = p.setup ∧
    (addToChain j e p).loader = p.loader ∧ (addToChain j e p).notices = p.notices ∧
    (addToChain j e p).pool = p.pool ∧ (addToChain j e p).stations = p.stations ∧
    (addToChain j e p).units = p.units ∧ (addToChain j e p).nodes = p.nodes ∧
    (addToChain j e p).engines = p.engines ∧ (addToChain j e p).paths = p.paths ∧
    (addToChain j e p).router = p.router ∧ (addToChain j e p).toTrunk = p.toTrunk ∧
    (addToChain j e p).submit = p.submit ∧ (addToChain j e p).copy = p.copy ∧
    (addToChain j e p).queues = p.queues ∧ (addToChain j e p).stamp = p.stamp ∧
    (addToChain j e p).moveJob = p.moveJob ∧ (addToChain j e p).ports = p.ports ∧
    (addToChain j e p).sups = p.sups ∧ (addToChain j e p).sense = p.sense ∧
    (addToChain j e p).switches = p.switches ∧ (addToChain j e p).branchSel = p.branchSel ∧
    (addToChain j e p).button = p.button ∧ (addToChain j e p).probe = p.probe ∧
    (addToChain j e p).records = p.records ∧ (addToChain j e p).ring = p.ring ∧
    (addToChain j e p).arbiter = p.arbiter ∧
    (addToChain j e p).hostWait = p.hostWait ∧ (addToChain j e p).hostData = p.hostData ∧
    (addToChain j e p).live = p.live ∧ (addToChain j e p).lastBlocked = p.lastBlocked ∧
    (addToChain j e p).snap = p.snap ∧ (addToChain j e p).draws = p.draws := by
  refine ⟨rfl, rfl, rfl, rfl, rfl, rfl, rfl, rfl, rfl, rfl, rfl, rfl, rfl, rfl, rfl, rfl, rfl, rfl, rfl, rfl,
    rfl, rfl, rfl, rfl, rfl, rfl, rfl, rfl, rfl, rfl, rfl, rfl, rfl⟩

@[simp] theorem addToChain_views (j : JobNo) (e : ChainEntry) (p : Part) :
    (∀ y, (addToChain j e p).engine y = p.engine y) ∧ (∀ y, (addToChain j e p).switch y = p.switch y) ∧
    (∀ y, (addToChain j e p).sup y = p.sup y) ∧ (∀ y, (addToChain j e p).path y = p.path y) ∧
    (∀ y, (addToChain j e p).port y = p.port y) ∧ (∀ y, (addToChain j e p).queue y = p.queue y) ∧
    (∀ y z, (addToChain j e p).station y z = p.station y z) ∧
    (∀ y, (addToChain j e p).branchSetup y = p.branchSetup y) ∧
    (∀ y, (addToChain j e p).printerSetup y = p.printerSetup y) := by
  refine ⟨fun _ => by simp [engine], fun _ => by simp [switch], fun _ => by simp [sup],
    fun _ => by simp [path], fun _ => by simp [port], fun _ => by simp [queue],
    fun _ _ => by simp [station], fun _ => by simp [branchSetup], fun _ => by simp [printerSetup]⟩

@[simp] theorem leaveQueue_keeps (j : JobNo) (k : Port) (p : Part) :
    (leaveQueue j k p).held = p.held ∧ (leaveQueue j k p).setup = p.setup ∧
    (leaveQueue j k p).loader = p.loader ∧ (leaveQueue j k p).notices = p.notices ∧
    (leaveQueue j k p).pool = p.pool ∧ (leaveQueue j k p).stations = p.stations ∧
    (leaveQueue j k p).units = p.units ∧ (leaveQueue j k p).nodes = p.nodes ∧
    (leaveQueue j k p).engines = p.engines ∧ (leaveQueue j k p).paths = p.paths ∧
    (leaveQueue j k p).router = p.router ∧ (leaveQueue j k p).toTrunk = p.toTrunk ∧
    (leaveQueue j k p).copy = p.copy ∧ (leaveQueue j k p).jobs = p.jobs ∧
    (leaveQueue j k p).stamp = p.stamp ∧ (leaveQueue j k p).moveJob = p.moveJob ∧
    (leaveQueue j k p).ports = p.ports ∧ (leaveQueue j k p).sups = p.sups ∧
    (leaveQueue j k p).sense = p.sense ∧ (leaveQueue j k p).switches = p.switches ∧
    (leaveQueue j k p).branchSel = p.branchSel ∧ (leaveQueue j k p).button = p.button ∧
    (leaveQueue j k p).probe = p.probe ∧ (leaveQueue j k p).records = p.records ∧
    (leaveQueue j k p).writer = p.writer ∧ (leaveQueue j k p).ring = p.ring ∧
    (leaveQueue j k p).arbiter = p.arbiter ∧
    (leaveQueue j k p).hostWait = p.hostWait ∧ (leaveQueue j k p).hostData = p.hostData ∧
    (leaveQueue j k p).live = p.live ∧ (leaveQueue j k p).lastBlocked = p.lastBlocked ∧
    (leaveQueue j k p).snap = p.snap ∧ (leaveQueue j k p).draws = p.draws := by
  simp only [leaveQueue]; (repeat' split) <;> simp

@[simp] theorem leaveQueue_views (j : JobNo) (k : Port) (p : Part) :
    (∀ y, (leaveQueue j k p).engine y = p.engine y) ∧ (∀ y, (leaveQueue j k p).switch y = p.switch y) ∧
    (∀ y, (leaveQueue j k p).sup y = p.sup y) ∧ (∀ y, (leaveQueue j k p).path y = p.path y) ∧
    (∀ y, (leaveQueue j k p).port y = p.port y) ∧ (∀ y, (leaveQueue j k p).job y = p.job y) ∧
    (∀ y z, (leaveQueue j k p).station y z = p.station y z) ∧
    (∀ y, (leaveQueue j k p).branchSetup y = p.branchSetup y) ∧
    (∀ y, (leaveQueue j k p).printerSetup y = p.printerSetup y) := by
  refine ⟨fun _ => by simp [engine], fun _ => by simp [switch], fun _ => by simp [sup],
    fun _ => by simp [path], fun _ => by simp [port], fun _ => by simp [job], fun _ _ => by simp [station],
    fun _ => by simp [branchSetup], fun _ => by simp [printerSetup]⟩

@[simp] theorem abortJob_keeps (j : JobNo) (r : JobResult) (p : Part) :
    (abortJob j r p).held = p.held ∧ (abortJob j r p).setup = p.setup ∧
    (abortJob j r p).loader = p.loader ∧ (abortJob j r p).notices = p.notices ∧
    (abortJob j r p).units = p.units ∧ (abortJob j r p).nodes = p.nodes ∧
    (abortJob j r p).engines = p.engines ∧ (abortJob j r p).router = p.router ∧
    (abortJob j r p).copy = p.copy ∧ (abortJob j r p).stamp = p.stamp ∧
    (abortJob j r p).moveJob = p.moveJob ∧ (abortJob j r p).ports = p.ports ∧
    (abortJob j r p).sups = p.sups ∧ (abortJob j r p).sense = p.sense ∧
    (abortJob j r p).switches = p.switches ∧ (abortJob j r p).branchSel = p.branchSel ∧
    (abortJob j r p).button = p.button ∧ (abortJob j r p).probe = p.probe ∧
    (abortJob j r p).records = p.records ∧ (abortJob j r p).ring = p.ring ∧
    (abortJob j r p).arbiter = p.arbiter ∧
    (abortJob j r p).hostWait = p.hostWait ∧ (abortJob j r p).hostData = p.hostData ∧
    (abortJob j r p).live = p.live ∧ (abortJob j r p).lastBlocked = p.lastBlocked ∧
    (abortJob j r p).snap = p.snap ∧ (abortJob j r p).draws = p.draws := by
  simp only [abortJob]; (repeat' split) <;> simp

@[simp] theorem abortJob_views (j : JobNo) (r : JobResult) (p : Part) :
    (∀ y, (abortJob j r p).engine y = p.engine y) ∧ (∀ y, (abortJob j r p).switch y = p.switch y) ∧
    (∀ y, (abortJob j r p).sup y = p.sup y) ∧ (∀ y, (abortJob j r p).port y = p.port y) ∧
    (∀ y, (abortJob j r p).branchSetup y = p.branchSetup y) ∧
    (∀ y, (abortJob j r p).printerSetup y = p.printerSetup y) := by
  refine ⟨fun _ => by simp [engine], fun _ => by simp [switch], fun _ => by simp [sup],
    fun _ => by simp [port], fun _ => by simp [branchSetup], fun _ => by simp [printerSetup]⟩

@[simp] theorem finishJob_keeps (j : JobNo) (p : Part) :
    (finishJob j p).held = p.held ∧ (finishJob j p).setup = p.setup ∧ (finishJob j p).loader = p.loader ∧
    (finishJob j p).notices = p.notices ∧ (finishJob j p).units = p.units ∧
    (finishJob j p).nodes = p.nodes ∧ (finishJob j p).engines = p.engines ∧
    (finishJob j p).router = p.router ∧ (finishJob j p).copy = p.copy ∧ (finishJob j p).stamp = p.stamp ∧
    (finishJob j p).moveJob = p.moveJob ∧ (finishJob j p).ports = p.ports ∧ (finishJob j p).sups = p.sups ∧
    (finishJob j p).sense = p.sense ∧ (finishJob j p).switches = p.switches ∧
    (finishJob j p).branchSel = p.branchSel ∧ (finishJob j p).button = p.button ∧
    (finishJob j p).probe = p.probe ∧ (finishJob j p).records = p.records ∧
    (finishJob j p).ring = p.ring ∧
    (finishJob j p).arbiter = p.arbiter ∧ (finishJob j p).hostWait = p.hostWait ∧
    (finishJob j p).hostData = p.hostData ∧ (finishJob j p).live = p.live ∧
    (finishJob j p).lastBlocked = p.lastBlocked ∧ (finishJob j p).snap = p.snap ∧
    (finishJob j p).draws = p.draws := by
  simp only [finishJob]; (repeat' split) <;> simp

@[simp] theorem finishJob_views (j : JobNo) (p : Part) :
    (∀ y, (finishJob j p).engine y = p.engine y) ∧ (∀ y, (finishJob j p).switch y = p.switch y) ∧
    (∀ y, (finishJob j p).sup y = p.sup y) ∧ (∀ y, (finishJob j p).port y = p.port y) ∧
    (∀ y, (finishJob j p).branchSetup y = p.branchSetup y) ∧
    (∀ y, (finishJob j p).printerSetup y = p.printerSetup y) := by
  refine ⟨fun _ => by simp [engine], fun _ => by simp [switch], fun _ => by simp [sup],
    fun _ => by simp [port], fun _ => by simp [branchSetup], fun _ => by simp [printerSetup]⟩

@[simp] theorem leaveQueue_submit (j : JobNo) (k : Port) (p : Part) :
    (leaveQueue j k p).submit.state = p.submit.state ∧ (leaveQueue j k p).submit.index = p.submit.index ∧
    (leaveQueue j k p).submit.pending = p.submit.pending ∧
    (leaveQueue j k p).submit.asking = p.submit.asking ∧ (leaveQueue j k p).submit.wait = p.submit.wait ∧
    (leaveQueue j k p).submit.slot = p.submit.slot ∧ (leaveQueue j k p).submit.job = p.submit.job ∧
    (leaveQueue j k p).submit.pos = p.submit.pos := by
  simp only [leaveQueue]; split <;> simp

@[simp] theorem abortJob_submit (j : JobNo) (r : JobResult) (p : Part) :
    (abortJob j r p).submit.state = p.submit.state ∧ (abortJob j r p).submit.index = p.submit.index ∧
    (abortJob j r p).submit.pending = p.submit.pending ∧ (abortJob j r p).submit.asking = p.submit.asking ∧
    (abortJob j r p).submit.wait = p.submit.wait ∧ (abortJob j r p).submit.slot = p.submit.slot ∧
    (abortJob j r p).submit.job = p.submit.job ∧ (abortJob j r p).submit.pos = p.submit.pos := by
  simp only [abortJob]; (repeat' split) <;> simp

@[simp] theorem abortJob_toTrunk (j : JobNo) (r : JobResult) (p : Part) :
    (abortJob j r p).toTrunk.state = p.toTrunk.state ∧ (abortJob j r p).toTrunk.index = p.toTrunk.index ∧
    (abortJob j r p).toTrunk.pending = p.toTrunk.pending ∧
    (abortJob j r p).toTrunk.asking = p.toTrunk.asking ∧ (abortJob j r p).toTrunk.slot = p.toTrunk.slot := by
  simp only [abortJob]; (repeat' split) <;> simp

@[simp] theorem finishJob_submit (j : JobNo) (p : Part) :
    (finishJob j p).submit.state = p.submit.state ∧ (finishJob j p).submit.index = p.submit.index ∧
    (finishJob j p).submit.pending = p.submit.pending ∧ (finishJob j p).submit.asking = p.submit.asking ∧
    (finishJob j p).submit.wait = p.submit.wait ∧ (finishJob j p).submit.slot = p.submit.slot ∧
    (finishJob j p).submit.job = p.submit.job ∧ (finishJob j p).submit.pos = p.submit.pos := by
  simp [finishJob]

@[simp] theorem finishJob_toTrunk (j : JobNo) (p : Part) :
    (finishJob j p).toTrunk.state = p.toTrunk.state ∧ (finishJob j p).toTrunk.index = p.toTrunk.index ∧
    (finishJob j p).toTrunk.pending = p.toTrunk.pending ∧
    (finishJob j p).toTrunk.asking = p.toTrunk.asking ∧ (finishJob j p).toTrunk.slot = p.toTrunk.slot := by
  simp [finishJob]

@[simp] theorem abortAssemblingOf_keeps (b : Branch) (n : StationNo) (r : JobResult) (p : Part) :
    (abortAssemblingOf b n r p).held = p.held ∧ (abortAssemblingOf b n r p).setup = p.setup ∧
    (abortAssemblingOf b n r p).loader = p.loader ∧ (abortAssemblingOf b n r p).notices = p.notices ∧
    (abortAssemblingOf b n r p).units = p.units ∧ (abortAssemblingOf b n r p).nodes = p.nodes ∧
    (abortAssemblingOf b n r p).engines = p.engines ∧ (abortAssemblingOf b n r p).router = p.router ∧
    (abortAssemblingOf b n r p).copy = p.copy ∧ (abortAssemblingOf b n r p).stamp = p.stamp ∧
    (abortAssemblingOf b n r p).moveJob = p.moveJob ∧ (abortAssemblingOf b n r p).ports = p.ports ∧
    (abortAssemblingOf b n r p).sups = p.sups ∧ (abortAssemblingOf b n r p).sense = p.sense ∧
    (abortAssemblingOf b n r p).switches = p.switches ∧
    (abortAssemblingOf b n r p).branchSel = p.branchSel ∧ (abortAssemblingOf b n r p).button = p.button ∧
    (abortAssemblingOf b n r p).probe = p.probe ∧ (abortAssemblingOf b n r p).records = p.records ∧
    (abortAssemblingOf b n r p).ring = p.ring ∧
    (abortAssemblingOf b n r p).arbiter = p.arbiter ∧ (abortAssemblingOf b n r p).hostWait = p.hostWait ∧
    (abortAssemblingOf b n r p).hostData = p.hostData ∧ (abortAssemblingOf b n r p).live = p.live ∧
    (abortAssemblingOf b n r p).lastBlocked = p.lastBlocked ∧ (abortAssemblingOf b n r p).snap = p.snap ∧
    (abortAssemblingOf b n r p).draws = p.draws := by
  simp only [abortAssemblingOf]; (repeat' split) <;> simp

@[simp] theorem abortAssemblingOf_views (b : Branch) (n : StationNo) (r : JobResult) (p : Part) :
    (∀ y, (abortAssemblingOf b n r p).engine y = p.engine y) ∧
    (∀ y, (abortAssemblingOf b n r p).switch y = p.switch y) ∧
    (∀ y, (abortAssemblingOf b n r p).sup y = p.sup y) ∧
    (∀ y, (abortAssemblingOf b n r p).port y = p.port y) ∧
    (∀ y, (abortAssemblingOf b n r p).branchSetup y = p.branchSetup y) ∧
    (∀ y, (abortAssemblingOf b n r p).printerSetup y = p.printerSetup y) := by
  refine ⟨fun _ => by simp [engine], fun _ => by simp [switch], fun _ => by simp [sup],
    fun _ => by simp [port], fun _ => by simp [branchSetup], fun _ => by simp [printerSetup]⟩

@[simp] theorem abortAssemblingOfBranch_keeps (b : Branch) (p : Part) :
    (abortAssemblingOfBranch b p).held = p.held ∧ (abortAssemblingOfBranch b p).setup = p.setup ∧
    (abortAssemblingOfBranch b p).loader = p.loader ∧ (abortAssemblingOfBranch b p).notices = p.notices ∧
    (abortAssemblingOfBranch b p).units = p.units ∧ (abortAssemblingOfBranch b p).nodes = p.nodes ∧
    (abortAssemblingOfBranch b p).engines = p.engines ∧ (abortAssemblingOfBranch b p).router = p.router ∧
    (abortAssemblingOfBranch b p).copy = p.copy ∧ (abortAssemblingOfBranch b p).stamp = p.stamp ∧
    (abortAssemblingOfBranch b p).moveJob = p.moveJob ∧ (abortAssemblingOfBranch b p).ports = p.ports ∧
    (abortAssemblingOfBranch b p).sups = p.sups ∧ (abortAssemblingOfBranch b p).sense = p.sense ∧
    (abortAssemblingOfBranch b p).switches = p.switches ∧
    (abortAssemblingOfBranch b p).branchSel = p.branchSel ∧
    (abortAssemblingOfBranch b p).button = p.button ∧ (abortAssemblingOfBranch b p).probe = p.probe ∧
    (abortAssemblingOfBranch b p).records = p.records ∧ (abortAssemblingOfBranch b p).ring = p.ring ∧
    (abortAssemblingOfBranch b p).arbiter = p.arbiter ∧
    (abortAssemblingOfBranch b p).hostWait = p.hostWait ∧
    (abortAssemblingOfBranch b p).hostData = p.hostData ∧ (abortAssemblingOfBranch b p).live = p.live ∧
    (abortAssemblingOfBranch b p).lastBlocked = p.lastBlocked ∧
    (abortAssemblingOfBranch b p).snap = p.snap ∧ (abortAssemblingOfBranch b p).draws = p.draws := by
  unfold abortAssemblingOfBranch
  refine ⟨each_keeps_view Part.held _ _ (fun _ _ => by (repeat' split) <;> simp) p,
    each_keeps_view Part.setup _ _ (fun _ _ => by (repeat' split) <;> simp) p,
    each_keeps_view Part.loader _ _ (fun _ _ => by (repeat' split) <;> simp) p,
    each_keeps_view Part.notices _ _ (fun _ _ => by (repeat' split) <;> simp) p,
    each_keeps_view Part.units _ _ (fun _ _ => by (repeat' split) <;> simp) p,
    each_keeps_view Part.nodes _ _ (fun _ _ => by (repeat' split) <;> simp) p,
    each_keeps_view Part.engines _ _ (fun _ _ => by (repeat' split) <;> simp) p,
    each_keeps_view Part.router _ _ (fun _ _ => by (repeat' split) <;> simp) p,
    each_keeps_view Part.copy _ _ (fun _ _ => by (repeat' split) <;> simp) p,
    each_keeps_view Part.stamp _ _ (fun _ _ => by (repeat' split) <;> simp) p,
    each_keeps_view Part.moveJob _ _ (fun _ _ => by (repeat' split) <;> simp) p,
    each_keeps_view Part.ports _ _ (fun _ _ => by (repeat' split) <;> simp) p,
    each_keeps_view Part.sups _ _ (fun _ _ => by (repeat' split) <;> simp) p,
    each_keeps_view Part.sense _ _ (fun _ _ => by (repeat' split) <;> simp) p,
    each_keeps_view Part.switches _ _ (fun _ _ => by (repeat' split) <;> simp) p,
    each_keeps_view Part.branchSel _ _ (fun _ _ => by (repeat' split) <;> simp) p,
    each_keeps_view Part.button _ _ (fun _ _ => by (repeat' split) <;> simp) p,
    each_keeps_view Part.probe _ _ (fun _ _ => by (repeat' split) <;> simp) p,
    each_keeps_view Part.records _ _ (fun _ _ => by (repeat' split) <;> simp) p,
    each_keeps_view Part.ring _ _ (fun _ _ => by (repeat' split) <;> simp) p,
    each_keeps_view Part.arbiter _ _ (fun _ _ => by (repeat' split) <;> simp) p,
    each_keeps_view Part.hostWait _ _ (fun _ _ => by (repeat' split) <;> simp) p,
    each_keeps_view Part.hostData _ _ (fun _ _ => by (repeat' split) <;> simp) p,
    each_keeps_view Part.live _ _ (fun _ _ => by (repeat' split) <;> simp) p,
    each_keeps_view Part.lastBlocked _ _ (fun _ _ => by (repeat' split) <;> simp) p,
    each_keeps_view Part.snap _ _ (fun _ _ => by (repeat' split) <;> simp) p,
    each_keeps_view Part.draws _ _ (fun _ _ => by (repeat' split) <;> simp) p⟩

@[simp] theorem abortAssemblingOfBranch_views (b : Branch) (p : Part) :
    (∀ y, (abortAssemblingOfBranch b p).engine y = p.engine y) ∧
    (∀ y, (abortAssemblingOfBranch b p).switch y = p.switch y) ∧
    (∀ y, (abortAssemblingOfBranch b p).sup y = p.sup y) ∧
    (∀ y, (abortAssemblingOfBranch b p).port y = p.port y) ∧
    (∀ y, (abortAssemblingOfBranch b p).branchSetup y = p.branchSetup y) ∧
    (∀ y, (abortAssemblingOfBranch b p).printerSetup y = p.printerSetup y) := by
  refine ⟨fun _ => by simp [engine], fun _ => by simp [switch], fun _ => by simp [sup],
    fun _ => by simp [port], fun _ => by simp [branchSetup], fun _ => by simp [printerSetup]⟩

@[simp] theorem appendEntry_keeps (b : Branch) (e : TxEntry) (p : Part) :
    (appendEntry b e p).held = p.held ∧ (appendEntry b e p).setup = p.setup ∧
    (appendEntry b e p).loader = p.loader ∧ (appendEntry b e p).notices = p.notices ∧
    (appendEntry b e p).pool = p.pool ∧ (appendEntry b e p).units = p.units ∧
    (appendEntry b e p).nodes = p.nodes ∧ (appendEntry b e p).paths = p.paths ∧
    (appendEntry b e p).router = p.router ∧ (appendEntry b e p).toTrunk = p.toTrunk ∧
    (appendEntry b e p).submit = p.submit ∧ (appendEntry b e p).copy = p.copy ∧
    (appendEntry b e p).jobs = p.jobs ∧ (appendEntry b e p).queues = p.queues ∧
    (appendEntry b e p).stamp = p.stamp ∧ (appendEntry b e p).moveJob = p.moveJob ∧
    (appendEntry b e p).ports = p.ports ∧ (appendEntry b e p).sups = p.sups ∧
    (appendEntry b e p).sense = p.sense ∧ (appendEntry b e p).switches = p.switches ∧
    (appendEntry b e p).branchSel = p.branchSel ∧ (appendEntry b e p).button = p.button ∧
    (appendEntry b e p).probe = p.probe ∧ (appendEntry b e p).records = p.records ∧
    (appendEntry b e p).ring = p.ring ∧
    (appendEntry b e p).arbiter = p.arbiter ∧ (appendEntry b e p).hostWait = p.hostWait ∧
    (appendEntry b e p).hostData = p.hostData ∧ (appendEntry b e p).live = p.live ∧
    (appendEntry b e p).lastBlocked = p.lastBlocked ∧ (appendEntry b e p).snap = p.snap ∧
    (appendEntry b e p).draws = p.draws := by
  simp only [appendEntry]; (repeat' split) <;> simp

@[simp] theorem appendEntry_views (b : Branch) (e : TxEntry) (p : Part) :
    (∀ y, (appendEntry b e p).switch y = p.switch y) ∧ (∀ y, (appendEntry b e p).sup y = p.sup y) ∧
    (∀ y, (appendEntry b e p).path y = p.path y) ∧ (∀ y, (appendEntry b e p).port y = p.port y) ∧
    (∀ y, (appendEntry b e p).queue y = p.queue y) ∧ (∀ y, (appendEntry b e p).job y = p.job y) ∧
    (∀ y, (appendEntry b e p).branchSetup y = p.branchSetup y) ∧
    (∀ y, (appendEntry b e p).printerSetup y = p.printerSetup y) := by
  refine ⟨fun _ => by simp [switch], fun _ => by simp [sup], fun _ => by simp [path],
    fun _ => by simp [port], fun _ => by simp [queue], fun _ => by simp [job],
    fun _ => by simp [branchSetup], fun _ => by simp [printerSetup]⟩

@[simp] theorem doneSlot_keeps (i : Fin 32) (c : List Byte) (r : Nat) (p : Part) :
    (doneSlot i c r p).held = p.held ∧ (doneSlot i c r p).setup = p.setup ∧
    (doneSlot i c r p).loader = p.loader ∧ (doneSlot i c r p).notices = p.notices ∧
    (doneSlot i c r p).pool = p.pool ∧ (doneSlot i c r p).stations = p.stations ∧
    (doneSlot i c r p).units = p.units ∧ (doneSlot i c r p).nodes = p.nodes ∧
    (doneSlot i c r p).engines = p.engines ∧ (doneSlot i c r p).paths = p.paths ∧
    (doneSlot i c r p).router = p.router ∧ (doneSlot i c r p).toTrunk = p.toTrunk ∧
    (doneSlot i c r p).submit = p.submit ∧ (doneSlot i c r p).copy = p.copy ∧
    (doneSlot i c r p).jobs = p.jobs ∧ (doneSlot i c r p).queues = p.queues ∧
    (doneSlot i c r p).stamp = p.stamp ∧ (doneSlot i c r p).moveJob = p.moveJob ∧
    (doneSlot i c r p).ports = p.ports ∧ (doneSlot i c r p).sups = p.sups ∧
    (doneSlot i c r p).sense = p.sense ∧ (doneSlot i c r p).switches = p.switches ∧
    (doneSlot i c r p).branchSel = p.branchSel ∧ (doneSlot i c r p).button = p.button ∧
    (doneSlot i c r p).probe = p.probe ∧ (doneSlot i c r p).records = p.records ∧
    (doneSlot i c r p).ring = p.ring ∧
    (doneSlot i c r p).arbiter = p.arbiter ∧ (doneSlot i c r p).hostWait = p.hostWait ∧
    (doneSlot i c r p).hostData = p.hostData ∧ (doneSlot i c r p).live = p.live ∧
    (doneSlot i c r p).lastBlocked = p.lastBlocked ∧ (doneSlot i c r p).snap = p.snap ∧
    (doneSlot i c r p).draws = p.draws := by
  refine ⟨rfl, rfl, rfl, rfl, rfl, rfl, rfl, rfl, rfl, rfl, rfl, rfl, rfl, rfl, rfl, rfl, rfl, rfl, rfl, rfl,
    rfl, rfl, rfl, rfl, rfl, rfl, rfl, rfl, rfl, rfl, rfl, rfl, rfl, rfl⟩

@[simp] theorem doneSlot_views (i : Fin 32) (c : List Byte) (r : Nat) (p : Part) :
    (∀ y, (doneSlot i c r p).engine y = p.engine y) ∧ (∀ y, (doneSlot i c r p).switch y = p.switch y) ∧
    (∀ y, (doneSlot i c r p).sup y = p.sup y) ∧ (∀ y, (doneSlot i c r p).path y = p.path y) ∧
    (∀ y, (doneSlot i c r p).port y = p.port y) ∧ (∀ y, (doneSlot i c r p).queue y = p.queue y) ∧
    (∀ y, (doneSlot i c r p).job y = p.job y) ∧ (∀ y z, (doneSlot i c r p).station y z = p.station y z) ∧
    (∀ y, (doneSlot i c r p).branchSetup y = p.branchSetup y) ∧
    (∀ y, (doneSlot i c r p).printerSetup y = p.printerSetup y) := by
  refine ⟨fun _ => by simp [engine], fun _ => by simp [switch], fun _ => by simp [sup],
    fun _ => by simp [path], fun _ => by simp [port], fun _ => by simp [queue], fun _ => by simp [job],
    fun _ _ => by simp [station], fun _ => by simp [branchSetup], fun _ => by simp [printerSetup]⟩

@[simp] theorem completeEntry_keeps (b : Branch) (e : TxEntry) (c : TxCode) (p : Part) :
    (completeEntry b e c p).held = p.held ∧ (completeEntry b e c p).setup = p.setup ∧
    (completeEntry b e c p).loader = p.loader ∧ (completeEntry b e c p).notices = p.notices ∧
    (completeEntry b e c p).units = p.units ∧ (completeEntry b e c p).nodes = p.nodes ∧
    (completeEntry b e c p).router = p.router ∧ (completeEntry b e c p).copy = p.copy ∧
    (completeEntry b e c p).jobs = p.jobs ∧ (completeEntry b e c p).queues = p.queues ∧
    (completeEntry b e c p).stamp = p.stamp ∧ (completeEntry b e c p).moveJob = p.moveJob ∧
    (completeEntry b e c p).ports = p.ports ∧ (completeEntry b e c p).sups = p.sups ∧
    (completeEntry b e c p).sense = p.sense ∧ (completeEntry b e c p).switches = p.switches ∧
    (completeEntry b e c p).branchSel = p.branchSel ∧ (completeEntry b e c p).button = p.button ∧
    (completeEntry b e c p).probe = p.probe ∧ (completeEntry b e c p).records = p.records ∧
    (completeEntry b e c p).ring = p.ring ∧
    (completeEntry b e c p).arbiter = p.arbiter ∧ (completeEntry b e c p).hostWait = p.hostWait ∧
    (completeEntry b e c p).hostData = p.hostData ∧ (completeEntry b e c p).live = p.live ∧
    (completeEntry b e c p).lastBlocked = p.lastBlocked ∧ (completeEntry b e c p).snap = p.snap ∧
    (completeEntry b e c p).draws = p.draws := by
  simp only [completeEntry]; (repeat' split) <;> simp

@[simp] theorem completeEntry_views (b : Branch) (e : TxEntry) (c : TxCode) (p : Part) :
    (∀ y, (completeEntry b e c p).switch y = p.switch y) ∧ (∀ y, (completeEntry b e c p).sup y = p.sup y) ∧
    (∀ y, (completeEntry b e c p).port y = p.port y) ∧ (∀ y, (completeEntry b e c p).queue y = p.queue y) ∧
    (∀ y, (completeEntry b e c p).job y = p.job y) ∧
    (∀ y, (completeEntry b e c p).branchSetup y = p.branchSetup y) ∧
    (∀ y, (completeEntry b e c p).printerSetup y = p.printerSetup y) := by
  refine ⟨fun _ => by simp [switch], fun _ => by simp [sup], fun _ => by simp [port],
    fun _ => by simp [queue], fun _ => by simp [job], fun _ => by simp [branchSetup],
    fun _ => by simp [printerSetup]⟩

@[simp] theorem completeWhere_keeps (b : Branch) (c : TxCode) (w : TxEntry → Bool) (p : Part) :
    (completeWhere b c w p).held = p.held ∧ (completeWhere b c w p).setup = p.setup ∧
    (completeWhere b c w p).loader = p.loader ∧ (completeWhere b c w p).notices = p.notices ∧
    (completeWhere b c w p).units = p.units ∧ (completeWhere b c w p).nodes = p.nodes ∧
    (completeWhere b c w p).router = p.router ∧ (completeWhere b c w p).copy = p.copy ∧
    (completeWhere b c w p).jobs = p.jobs ∧ (completeWhere b c w p).queues = p.queues ∧
    (completeWhere b c w p).stamp = p.stamp ∧ (completeWhere b c w p).moveJob = p.moveJob ∧
    (completeWhere b c w p).ports = p.ports ∧ (completeWhere b c w p).sups = p.sups ∧
    (completeWhere b c w p).sense = p.sense ∧ (completeWhere b c w p).switches = p.switches ∧
    (completeWhere b c w p).branchSel = p.branchSel ∧ (completeWhere b c w p).button = p.button ∧
    (completeWhere b c w p).probe = p.probe ∧ (completeWhere b c w p).records = p.records ∧
    (completeWhere b c w p).ring = p.ring ∧
    (completeWhere b c w p).arbiter = p.arbiter ∧ (completeWhere b c w p).hostWait = p.hostWait ∧
    (completeWhere b c w p).hostData = p.hostData ∧ (completeWhere b c w p).live = p.live ∧
    (completeWhere b c w p).lastBlocked = p.lastBlocked ∧ (completeWhere b c w p).snap = p.snap ∧
    (completeWhere b c w p).draws = p.draws := by
  unfold completeWhere
  refine ⟨each_keeps_view Part.held _ _ (fun _ _ => by split <;> simp) p,
    each_keeps_view Part.setup _ _ (fun _ _ => by split <;> simp) p,
    each_keeps_view Part.loader _ _ (fun _ _ => by split <;> simp) p,
    each_keeps_view Part.notices _ _ (fun _ _ => by split <;> simp) p,
    each_keeps_view Part.units _ _ (fun _ _ => by split <;> simp) p,
    each_keeps_view Part.nodes _ _ (fun _ _ => by split <;> simp) p,
    each_keeps_view Part.router _ _ (fun _ _ => by split <;> simp) p,
    each_keeps_view Part.copy _ _ (fun _ _ => by split <;> simp) p,
    each_keeps_view Part.jobs _ _ (fun _ _ => by split <;> simp) p,
    each_keeps_view Part.queues _ _ (fun _ _ => by split <;> simp) p,
    each_keeps_view Part.stamp _ _ (fun _ _ => by split <;> simp) p,
    each_keeps_view Part.moveJob _ _ (fun _ _ => by split <;> simp) p,
    each_keeps_view Part.ports _ _ (fun _ _ => by split <;> simp) p,
    each_keeps_view Part.sups _ _ (fun _ _ => by split <;> simp) p,
    each_keeps_view Part.sense _ _ (fun _ _ => by split <;> simp) p,
    each_keeps_view Part.switches _ _ (fun _ _ => by split <;> simp) p,
    each_keeps_view Part.branchSel _ _ (fun _ _ => by split <;> simp) p,
    each_keeps_view Part.button _ _ (fun _ _ => by split <;> simp) p,
    each_keeps_view Part.probe _ _ (fun _ _ => by split <;> simp) p,
    each_keeps_view Part.records _ _ (fun _ _ => by split <;> simp) p,
    each_keeps_view Part.ring _ _ (fun _ _ => by split <;> simp) p,
    each_keeps_view Part.arbiter _ _ (fun _ _ => by split <;> simp) p,
    each_keeps_view Part.hostWait _ _ (fun _ _ => by split <;> simp) p,
    each_keeps_view Part.hostData _ _ (fun _ _ => by split <;> simp) p,
    each_keeps_view Part.live _ _ (fun _ _ => by split <;> simp) p,
    each_keeps_view Part.lastBlocked _ _ (fun _ _ => by split <;> simp) p,
    each_keeps_view Part.snap _ _ (fun _ _ => by split <;> simp) p,
    each_keeps_view Part.draws _ _ (fun _ _ => by split <;> simp) p⟩

@[simp] theorem completeWhere_views (b : Branch) (c : TxCode) (w : TxEntry → Bool) (p : Part) :
    (∀ y, (completeWhere b c w p).switch y = p.switch y) ∧ (∀ y, (completeWhere b c w p).sup y = p.sup y) ∧
    (∀ y, (completeWhere b c w p).port y = p.port y) ∧ (∀ y, (completeWhere b c w p).queue y = p.queue y) ∧
    (∀ y, (completeWhere b c w p).job y = p.job y) ∧
    (∀ y, (completeWhere b c w p).branchSetup y = p.branchSetup y) ∧
    (∀ y, (completeWhere b c w p).printerSetup y = p.printerSetup y) := by
  refine ⟨fun _ => by simp [switch], fun _ => by simp [sup], fun _ => by simp [port],
    fun _ => by simp [queue], fun _ => by simp [job], fun _ => by simp [branchSetup],
    fun _ => by simp [printerSetup]⟩

@[simp] theorem completeStation_keeps (b : Branch) (n : StationNo) (c : TxCode) (p : Part) :
    (completeStation b n c p).held = p.held ∧ (completeStation b n c p).setup = p.setup ∧
    (completeStation b n c p).loader = p.loader ∧ (completeStation b n c p).notices = p.notices ∧
    (completeStation b n c p).units = p.units ∧ (completeStation b n c p).nodes = p.nodes ∧
    (completeStation b n c p).router = p.router ∧ (completeStation b n c p).copy = p.copy ∧
    (completeStation b n c p).jobs = p.jobs ∧ (completeStation b n c p).queues = p.queues ∧
    (completeStation b n c p).stamp = p.stamp ∧ (completeStation b n c p).moveJob = p.moveJob ∧
    (completeStation b n c p).ports = p.ports ∧ (completeStation b n c p).sups = p.sups ∧
    (completeStation b n c p).sense = p.sense ∧ (completeStation b n c p).switches = p.switches ∧
    (completeStation b n c p).branchSel = p.branchSel ∧ (completeStation b n c p).button = p.button ∧
    (completeStation b n c p).probe = p.probe ∧ (completeStation b n c p).records = p.records ∧
    (completeStation b n c p).ring = p.ring ∧
    (completeStation b n c p).arbiter = p.arbiter ∧ (completeStation b n c p).hostWait = p.hostWait ∧
    (completeStation b n c p).hostData = p.hostData ∧ (completeStation b n c p).live = p.live ∧
    (completeStation b n c p).lastBlocked = p.lastBlocked ∧ (completeStation b n c p).snap = p.snap ∧
    (completeStation b n c p).draws = p.draws := by
  simp only [completeStation]; (repeat' split) <;> simp

@[simp] theorem completeStation_views (b : Branch) (n : StationNo) (c : TxCode) (p : Part) :
    (∀ y, (completeStation b n c p).switch y = p.switch y) ∧
    (∀ y, (completeStation b n c p).sup y = p.sup y) ∧ (∀ y, (completeStation b n c p).port y = p.port y) ∧
    (∀ y, (completeStation b n c p).queue y = p.queue y) ∧
    (∀ y, (completeStation b n c p).job y = p.job y) ∧
    (∀ y, (completeStation b n c p).branchSetup y = p.branchSetup y) ∧
    (∀ y, (completeStation b n c p).printerSetup y = p.printerSetup y) := by
  refine ⟨fun _ => by simp [switch], fun _ => by simp [sup], fun _ => by simp [port],
    fun _ => by simp [queue], fun _ => by simp [job], fun _ => by simp [branchSetup],
    fun _ => by simp [printerSetup]⟩

@[simp] theorem flushQueue_keeps (b : Branch) (p : Part) :
    (flushQueue b p).held = p.held ∧ (flushQueue b p).setup = p.setup ∧
    (flushQueue b p).loader = p.loader ∧ (flushQueue b p).notices = p.notices ∧
    (flushQueue b p).units = p.units ∧ (flushQueue b p).nodes = p.nodes ∧
    (flushQueue b p).router = p.router ∧ (flushQueue b p).copy = p.copy ∧ (flushQueue b p).jobs = p.jobs ∧
    (flushQueue b p).queues = p.queues ∧ (flushQueue b p).stamp = p.stamp ∧
    (flushQueue b p).moveJob = p.moveJob ∧ (flushQueue b p).ports = p.ports ∧
    (flushQueue b p).sups = p.sups ∧ (flushQueue b p).sense = p.sense ∧
    (flushQueue b p).switches = p.switches ∧ (flushQueue b p).branchSel = p.branchSel ∧
    (flushQueue b p).button = p.button ∧ (flushQueue b p).probe = p.probe ∧
    (flushQueue b p).records = p.records ∧ (flushQueue b p).ring = p.ring ∧
    (flushQueue b p).arbiter = p.arbiter ∧
    (flushQueue b p).hostWait = p.hostWait ∧ (flushQueue b p).hostData = p.hostData ∧
    (flushQueue b p).live = p.live ∧ (flushQueue b p).lastBlocked = p.lastBlocked ∧
    (flushQueue b p).snap = p.snap ∧ (flushQueue b p).draws = p.draws := by
  simp only [flushQueue]; (repeat' split) <;> simp

@[simp] theorem flushQueue_views (b : Branch) (p : Part) :
    (∀ y, (flushQueue b p).switch y = p.switch y) ∧ (∀ y, (flushQueue b p).sup y = p.sup y) ∧
    (∀ y, (flushQueue b p).port y = p.port y) ∧ (∀ y, (flushQueue b p).queue y = p.queue y) ∧
    (∀ y, (flushQueue b p).job y = p.job y) ∧ (∀ y, (flushQueue b p).branchSetup y = p.branchSetup y) ∧
    (∀ y, (flushQueue b p).printerSetup y = p.printerSetup y) := by
  refine ⟨fun _ => by simp [switch], fun _ => by simp [sup], fun _ => by simp [port],
    fun _ => by simp [queue], fun _ => by simp [job], fun _ => by simp [branchSetup],
    fun _ => by simp [printerSetup]⟩

@[simp] theorem changeStation_keeps (b : Branch) (n : StationNo) (f : Station → Station) (p : Part) :
    (changeStation b n f p).held = p.held ∧ (changeStation b n f p).setup = p.setup ∧
    (changeStation b n f p).loader = p.loader ∧ (changeStation b n f p).pool = p.pool ∧
    (changeStation b n f p).units = p.units ∧ (changeStation b n f p).nodes = p.nodes ∧
    (changeStation b n f p).engines = p.engines ∧ (changeStation b n f p).paths = p.paths ∧
    (changeStation b n f p).router = p.router ∧ (changeStation b n f p).submit = p.submit ∧
    (changeStation b n f p).copy = p.copy ∧ (changeStation b n f p).jobs = p.jobs ∧
    (changeStation b n f p).queues = p.queues ∧ (changeStation b n f p).stamp = p.stamp ∧
    (changeStation b n f p).moveJob = p.moveJob ∧ (changeStation b n f p).ports = p.ports ∧
    (changeStation b n f p).sups = p.sups ∧ (changeStation b n f p).sense = p.sense ∧
    (changeStation b n f p).switches = p.switches ∧ (changeStation b n f p).branchSel = p.branchSel ∧
    (changeStation b n f p).button = p.button ∧ (changeStation b n f p).probe = p.probe ∧
    (changeStation b n f p).records = p.records ∧ (changeStation b n f p).ring = p.ring ∧
    (changeStation b n f p).arbiter = p.arbiter ∧
    (changeStation b n f p).hostWait = p.hostWait ∧ (changeStation b n f p).hostData = p.hostData ∧
    (changeStation b n f p).live = p.live ∧ (changeStation b n f p).lastBlocked = p.lastBlocked ∧
    (changeStation b n f p).snap = p.snap ∧ (changeStation b n f p).draws = p.draws := by
  simp only [changeStation]; (repeat' split) <;> simp

@[simp] theorem changeStation_views (b : Branch) (n : StationNo) (f : Station → Station) (p : Part) :
    (∀ y, (changeStation b n f p).engine y = p.engine y) ∧
    (∀ y, (changeStation b n f p).switch y = p.switch y) ∧ (∀ y, (changeStation b n f p).sup y = p.sup y) ∧
    (∀ y, (changeStation b n f p).path y = p.path y) ∧ (∀ y, (changeStation b n f p).port y = p.port y) ∧
    (∀ y, (changeStation b n f p).queue y = p.queue y) ∧ (∀ y, (changeStation b n f p).job y = p.job y) ∧
    (∀ y, (changeStation b n f p).branchSetup y = p.branchSetup y) ∧
    (∀ y, (changeStation b n f p).printerSetup y = p.printerSetup y) := by
  refine ⟨fun _ => by simp [engine], fun _ => by simp [switch], fun _ => by simp [sup],
    fun _ => by simp [path], fun _ => by simp [port], fun _ => by simp [queue], fun _ => by simp [job],
    fun _ => by simp [branchSetup], fun _ => by simp [printerSetup]⟩

@[simp] theorem leaveFor_keeps (b : Branch) (n : StationNo) (s : StationState) (f : Station → Station) (p :
    Part) :
    (leaveFor b n s f p).held = p.held ∧ (leaveFor b n s f p).setup = p.setup ∧
    (leaveFor b n s f p).loader = p.loader ∧ (leaveFor b n s f p).units = p.units ∧
    (leaveFor b n s f p).nodes = p.nodes ∧ (leaveFor b n s f p).router = p.router ∧
    (leaveFor b n s f p).copy = p.copy ∧ (leaveFor b n s f p).stamp = p.stamp ∧
    (leaveFor b n s f p).moveJob = p.moveJob ∧ (leaveFor b n s f p).ports = p.ports ∧
    (leaveFor b n s f p).sups = p.sups ∧ (leaveFor b n s f p).sense = p.sense ∧
    (leaveFor b n s f p).switches = p.switches ∧ (leaveFor b n s f p).branchSel = p.branchSel ∧
    (leaveFor b n s f p).button = p.button ∧ (leaveFor b n s f p).probe = p.probe ∧
    (leaveFor b n s f p).records = p.records ∧ (leaveFor b n s f p).ring = p.ring ∧
    (leaveFor b n s f p).arbiter = p.arbiter ∧
    (leaveFor b n s f p).hostWait = p.hostWait ∧ (leaveFor b n s f p).hostData = p.hostData ∧
    (leaveFor b n s f p).live = p.live ∧ (leaveFor b n s f p).lastBlocked = p.lastBlocked ∧
    (leaveFor b n s f p).snap = p.snap ∧ (leaveFor b n s f p).draws = p.draws := by
  simp only [leaveFor]; (repeat' split) <;> simp

@[simp] theorem leaveFor_views (b : Branch) (n : StationNo) (s : StationState) (f : Station → Station) (p :
    Part) :
    (∀ y, (leaveFor b n s f p).switch y = p.switch y) ∧ (∀ y, (leaveFor b n s f p).sup y = p.sup y) ∧
    (∀ y, (leaveFor b n s f p).port y = p.port y) ∧
    (∀ y, (leaveFor b n s f p).branchSetup y = p.branchSetup y) ∧
    (∀ y, (leaveFor b n s f p).printerSetup y = p.printerSetup y) := by
  refine ⟨fun _ => by simp [switch], fun _ => by simp [sup], fun _ => by simp [port],
    fun _ => by simp [branchSetup], fun _ => by simp [printerSetup]⟩

@[simp] theorem barStation_keeps (b : Branch) (n : StationNo) (p : Part) :
    (barStation b n p).held = p.held ∧ (barStation b n p).setup = p.setup ∧
    (barStation b n p).loader = p.loader ∧ (barStation b n p).units = p.units ∧
    (barStation b n p).nodes = p.nodes ∧ (barStation b n p).router = p.router ∧
    (barStation b n p).copy = p.copy ∧ (barStation b n p).stamp = p.stamp ∧
    (barStation b n p).moveJob = p.moveJob ∧ (barStation b n p).ports = p.ports ∧
    (barStation b n p).sups = p.sups ∧ (barStation b n p).sense = p.sense ∧
    (barStation b n p).switches = p.switches ∧ (barStation b n p).branchSel = p.branchSel ∧
    (barStation b n p).button = p.button ∧ (barStation b n p).probe = p.probe ∧
    (barStation b n p).records = p.records ∧ (barStation b n p).ring = p.ring ∧
    (barStation b n p).arbiter = p.arbiter ∧
    (barStation b n p).hostWait = p.hostWait ∧ (barStation b n p).hostData = p.hostData ∧
    (barStation b n p).live = p.live ∧ (barStation b n p).lastBlocked = p.lastBlocked ∧
    (barStation b n p).snap = p.snap ∧ (barStation b n p).draws = p.draws := by
  simp only [barStation]; (repeat' split) <;> simp

@[simp] theorem barStation_views (b : Branch) (n : StationNo) (p : Part) :
    (∀ y, (barStation b n p).switch y = p.switch y) ∧ (∀ y, (barStation b n p).sup y = p.sup y) ∧
    (∀ y, (barStation b n p).port y = p.port y) ∧
    (∀ y, (barStation b n p).branchSetup y = p.branchSetup y) ∧
    (∀ y, (barStation b n p).printerSetup y = p.printerSetup y) := by
  refine ⟨fun _ => by simp [switch], fun _ => by simp [sup], fun _ => by simp [port],
    fun _ => by simp [branchSetup], fun _ => by simp [printerSetup]⟩

@[simp] theorem unbarStation_keeps (b : Branch) (n : StationNo) (p : Part) :
    (unbarStation b n p).held = p.held ∧ (unbarStation b n p).setup = p.setup ∧
    (unbarStation b n p).loader = p.loader ∧ (unbarStation b n p).pool = p.pool ∧
    (unbarStation b n p).units = p.units ∧ (unbarStation b n p).nodes = p.nodes ∧
    (unbarStation b n p).engines = p.engines ∧ (unbarStation b n p).paths = p.paths ∧
    (unbarStation b n p).router = p.router ∧ (unbarStation b n p).submit = p.submit ∧
    (unbarStation b n p).copy = p.copy ∧ (unbarStation b n p).jobs = p.jobs ∧
    (unbarStation b n p).queues = p.queues ∧ (unbarStation b n p).stamp = p.stamp ∧
    (unbarStation b n p).moveJob = p.moveJob ∧ (unbarStation b n p).ports = p.ports ∧
    (unbarStation b n p).sups = p.sups ∧ (unbarStation b n p).sense = p.sense ∧
    (unbarStation b n p).switches = p.switches ∧ (unbarStation b n p).branchSel = p.branchSel ∧
    (unbarStation b n p).button = p.button ∧ (unbarStation b n p).probe = p.probe ∧
    (unbarStation b n p).records = p.records ∧ (unbarStation b n p).ring = p.ring ∧
    (unbarStation b n p).arbiter = p.arbiter ∧
    (unbarStation b n p).hostWait = p.hostWait ∧ (unbarStation b n p).hostData = p.hostData ∧
    (unbarStation b n p).live = p.live ∧ (unbarStation b n p).lastBlocked = p.lastBlocked ∧
    (unbarStation b n p).snap = p.snap ∧ (unbarStation b n p).draws = p.draws := by
  simp only [unbarStation]; (repeat' split) <;> simp

@[simp] theorem unbarStation_views (b : Branch) (n : StationNo) (p : Part) :
    (∀ y, (unbarStation b n p).engine y = p.engine y) ∧ (∀ y, (unbarStation b n p).switch y = p.switch y) ∧
    (∀ y, (unbarStation b n p).sup y = p.sup y) ∧ (∀ y, (unbarStation b n p).path y = p.path y) ∧
    (∀ y, (unbarStation b n p).port y = p.port y) ∧ (∀ y, (unbarStation b n p).queue y = p.queue y) ∧
    (∀ y, (unbarStation b n p).job y = p.job y) ∧
    (∀ y, (unbarStation b n p).branchSetup y = p.branchSetup y) ∧
    (∀ y, (unbarStation b n p).printerSetup y = p.printerSetup y) := by
  refine ⟨fun _ => by simp [engine], fun _ => by simp [switch], fun _ => by simp [sup],
    fun _ => by simp [path], fun _ => by simp [port], fun _ => by simp [queue], fun _ => by simp [job],
    fun _ => by simp [branchSetup], fun _ => by simp [printerSetup]⟩

@[simp] theorem clearConflict_keeps (b : Branch) (n : StationNo) (p : Part) :
    (clearConflict b n p).held = p.held ∧ (clearConflict b n p).setup = p.setup ∧
    (clearConflict b n p).loader = p.loader ∧ (clearConflict b n p).pool = p.pool ∧
    (clearConflict b n p).units = p.units ∧ (clearConflict b n p).nodes = p.nodes ∧
    (clearConflict b n p).engines = p.engines ∧ (clearConflict b n p).paths = p.paths ∧
    (clearConflict b n p).router = p.router ∧ (clearConflict b n p).submit = p.submit ∧
    (clearConflict b n p).copy = p.copy ∧ (clearConflict b n p).jobs = p.jobs ∧
    (clearConflict b n p).queues = p.queues ∧ (clearConflict b n p).stamp = p.stamp ∧
    (clearConflict b n p).moveJob = p.moveJob ∧ (clearConflict b n p).ports = p.ports ∧
    (clearConflict b n p).sups = p.sups ∧ (clearConflict b n p).sense = p.sense ∧
    (clearConflict b n p).switches = p.switches ∧ (clearConflict b n p).branchSel = p.branchSel ∧
    (clearConflict b n p).button = p.button ∧ (clearConflict b n p).probe = p.probe ∧
    (clearConflict b n p).records = p.records ∧ (clearConflict b n p).ring = p.ring ∧
    (clearConflict b n p).arbiter = p.arbiter ∧
    (clearConflict b n p).hostWait = p.hostWait ∧ (clearConflict b n p).hostData = p.hostData ∧
    (clearConflict b n p).live = p.live ∧ (clearConflict b n p).lastBlocked = p.lastBlocked ∧
    (clearConflict b n p).snap = p.snap ∧ (clearConflict b n p).draws = p.draws := by
  simp only [clearConflict]; (repeat' split) <;> simp

@[simp] theorem clearConflict_views (b : Branch) (n : StationNo) (p : Part) :
    (∀ y, (clearConflict b n p).engine y = p.engine y) ∧
    (∀ y, (clearConflict b n p).switch y = p.switch y) ∧ (∀ y, (clearConflict b n p).sup y = p.sup y) ∧
    (∀ y, (clearConflict b n p).path y = p.path y) ∧ (∀ y, (clearConflict b n p).port y = p.port y) ∧
    (∀ y, (clearConflict b n p).queue y = p.queue y) ∧ (∀ y, (clearConflict b n p).job y = p.job y) ∧
    (∀ y, (clearConflict b n p).branchSetup y = p.branchSetup y) ∧
    (∀ y, (clearConflict b n p).printerSetup y = p.printerSetup y) := by
  refine ⟨fun _ => by simp [engine], fun _ => by simp [switch], fun _ => by simp [sup],
    fun _ => by simp [path], fun _ => by simp [port], fun _ => by simp [queue], fun _ => by simp [job],
    fun _ => by simp [branchSetup], fun _ => by simp [printerSetup]⟩

@[simp] theorem disableStations_keeps (b : Branch) (p : Part) :
    (disableStations b p).held = p.held ∧ (disableStations b p).setup = p.setup ∧
    (disableStations b p).loader = p.loader ∧ (disableStations b p).units = p.units ∧
    (disableStations b p).nodes = p.nodes ∧ (disableStations b p).router = p.router ∧
    (disableStations b p).copy = p.copy ∧ (disableStations b p).stamp = p.stamp ∧
    (disableStations b p).moveJob = p.moveJob ∧ (disableStations b p).ports = p.ports ∧
    (disableStations b p).sups = p.sups ∧ (disableStations b p).sense = p.sense ∧
    (disableStations b p).switches = p.switches ∧ (disableStations b p).branchSel = p.branchSel ∧
    (disableStations b p).button = p.button ∧ (disableStations b p).probe = p.probe ∧
    (disableStations b p).records = p.records ∧ (disableStations b p).ring = p.ring ∧
    (disableStations b p).arbiter = p.arbiter ∧
    (disableStations b p).hostWait = p.hostWait ∧ (disableStations b p).hostData = p.hostData ∧
    (disableStations b p).live = p.live ∧ (disableStations b p).lastBlocked = p.lastBlocked ∧
    (disableStations b p).snap = p.snap ∧ (disableStations b p).draws = p.draws := by
  unfold disableStations
  refine ⟨each_keeps_view Part.held _ _ (fun _ _ => by split <;> simp) p,
    each_keeps_view Part.setup _ _ (fun _ _ => by split <;> simp) p,
    each_keeps_view Part.loader _ _ (fun _ _ => by split <;> simp) p,
    each_keeps_view Part.units _ _ (fun _ _ => by split <;> simp) p,
    each_keeps_view Part.nodes _ _ (fun _ _ => by split <;> simp) p,
    each_keeps_view Part.router _ _ (fun _ _ => by split <;> simp) p,
    each_keeps_view Part.copy _ _ (fun _ _ => by split <;> simp) p,
    each_keeps_view Part.stamp _ _ (fun _ _ => by split <;> simp) p,
    each_keeps_view Part.moveJob _ _ (fun _ _ => by split <;> simp) p,
    each_keeps_view Part.ports _ _ (fun _ _ => by split <;> simp) p,
    each_keeps_view Part.sups _ _ (fun _ _ => by split <;> simp) p,
    each_keeps_view Part.sense _ _ (fun _ _ => by split <;> simp) p,
    each_keeps_view Part.switches _ _ (fun _ _ => by split <;> simp) p,
    each_keeps_view Part.branchSel _ _ (fun _ _ => by split <;> simp) p,
    each_keeps_view Part.button _ _ (fun _ _ => by split <;> simp) p,
    each_keeps_view Part.probe _ _ (fun _ _ => by split <;> simp) p,
    each_keeps_view Part.records _ _ (fun _ _ => by split <;> simp) p,
    each_keeps_view Part.ring _ _ (fun _ _ => by split <;> simp) p,
    each_keeps_view Part.arbiter _ _ (fun _ _ => by split <;> simp) p,
    each_keeps_view Part.hostWait _ _ (fun _ _ => by split <;> simp) p,
    each_keeps_view Part.hostData _ _ (fun _ _ => by split <;> simp) p,
    each_keeps_view Part.live _ _ (fun _ _ => by split <;> simp) p,
    each_keeps_view Part.lastBlocked _ _ (fun _ _ => by split <;> simp) p,
    each_keeps_view Part.snap _ _ (fun _ _ => by split <;> simp) p,
    each_keeps_view Part.draws _ _ (fun _ _ => by split <;> simp) p⟩

@[simp] theorem disableStations_views (b : Branch) (p : Part) :
    (∀ y, (disableStations b p).switch y = p.switch y) ∧ (∀ y, (disableStations b p).sup y = p.sup y) ∧
    (∀ y, (disableStations b p).port y = p.port y) ∧
    (∀ y, (disableStations b p).branchSetup y = p.branchSetup y) ∧
    (∀ y, (disableStations b p).printerSetup y = p.printerSetup y) := by
  refine ⟨fun _ => by simp [switch], fun _ => by simp [sup], fun _ => by simp [port],
    fun _ => by simp [branchSetup], fun _ => by simp [printerSetup]⟩

@[simp] theorem reportDiscovery_keeps (b : Branch) (n : StationNo) (v : Bool) (p : Part) :
    (reportDiscovery b n v p).held = p.held ∧ (reportDiscovery b n v p).setup = p.setup ∧
    (reportDiscovery b n v p).loader = p.loader ∧ (reportDiscovery b n v p).pool = p.pool ∧
    (reportDiscovery b n v p).units = p.units ∧ (reportDiscovery b n v p).nodes = p.nodes ∧
    (reportDiscovery b n v p).paths = p.paths ∧ (reportDiscovery b n v p).router = p.router ∧
    (reportDiscovery b n v p).submit = p.submit ∧ (reportDiscovery b n v p).copy = p.copy ∧
    (reportDiscovery b n v p).jobs = p.jobs ∧ (reportDiscovery b n v p).queues = p.queues ∧
    (reportDiscovery b n v p).stamp = p.stamp ∧ (reportDiscovery b n v p).moveJob = p.moveJob ∧
    (reportDiscovery b n v p).ports = p.ports ∧ (reportDiscovery b n v p).sups = p.sups ∧
    (reportDiscovery b n v p).sense = p.sense ∧ (reportDiscovery b n v p).switches = p.switches ∧
    (reportDiscovery b n v p).branchSel = p.branchSel ∧ (reportDiscovery b n v p).button = p.button ∧
    (reportDiscovery b n v p).probe = p.probe ∧ (reportDiscovery b n v p).records = p.records ∧
    (reportDiscovery b n v p).ring = p.ring ∧
    (reportDiscovery b n v p).arbiter = p.arbiter ∧ (reportDiscovery b n v p).hostWait = p.hostWait ∧
    (reportDiscovery b n v p).hostData = p.hostData ∧ (reportDiscovery b n v p).live = p.live ∧
    (reportDiscovery b n v p).lastBlocked = p.lastBlocked ∧ (reportDiscovery b n v p).snap = p.snap ∧
    (reportDiscovery b n v p).draws = p.draws := by
  simp only [reportDiscovery]; (repeat' split) <;> simp

@[simp] theorem reportDiscovery_views (b : Branch) (n : StationNo) (v : Bool) (p : Part) :
    (∀ y, (reportDiscovery b n v p).switch y = p.switch y) ∧
    (∀ y, (reportDiscovery b n v p).sup y = p.sup y) ∧ (∀ y, (reportDiscovery b n v p).path y = p.path y) ∧
    (∀ y, (reportDiscovery b n v p).port y = p.port y) ∧
    (∀ y, (reportDiscovery b n v p).queue y = p.queue y) ∧
    (∀ y, (reportDiscovery b n v p).job y = p.job y) ∧
    (∀ y, (reportDiscovery b n v p).branchSetup y = p.branchSetup y) ∧
    (∀ y, (reportDiscovery b n v p).printerSetup y = p.printerSetup y) := by
  refine ⟨fun _ => by simp [switch], fun _ => by simp [sup], fun _ => by simp [path],
    fun _ => by simp [port], fun _ => by simp [queue], fun _ => by simp [job],
    fun _ => by simp [branchSetup], fun _ => by simp [printerSetup]⟩

@[simp] theorem reportClean_keeps (b : Branch) (n : StationNo) (v : Bool) (p : Part) :
    (reportClean b n v p).held = p.held ∧ (reportClean b n v p).setup = p.setup ∧
    (reportClean b n v p).loader = p.loader ∧ (reportClean b n v p).notices = p.notices ∧
    (reportClean b n v p).pool = p.pool ∧ (reportClean b n v p).units = p.units ∧
    (reportClean b n v p).nodes = p.nodes ∧ (reportClean b n v p).engines = p.engines ∧
    (reportClean b n v p).paths = p.paths ∧ (reportClean b n v p).router = p.router ∧
    (reportClean b n v p).toTrunk = p.toTrunk ∧ (reportClean b n v p).submit = p.submit ∧
    (reportClean b n v p).copy = p.copy ∧ (reportClean b n v p).jobs = p.jobs ∧
    (reportClean b n v p).queues = p.queues ∧ (reportClean b n v p).stamp = p.stamp ∧
    (reportClean b n v p).moveJob = p.moveJob ∧ (reportClean b n v p).ports = p.ports ∧
    (reportClean b n v p).sups = p.sups ∧ (reportClean b n v p).sense = p.sense ∧
    (reportClean b n v p).switches = p.switches ∧ (reportClean b n v p).branchSel = p.branchSel ∧
    (reportClean b n v p).button = p.button ∧ (reportClean b n v p).probe = p.probe ∧
    (reportClean b n v p).records = p.records ∧ (reportClean b n v p).ring = p.ring ∧
    (reportClean b n v p).arbiter = p.arbiter ∧
    (reportClean b n v p).hostWait = p.hostWait ∧ (reportClean b n v p).hostData = p.hostData ∧
    (reportClean b n v p).live = p.live ∧ (reportClean b n v p).lastBlocked = p.lastBlocked ∧
    (reportClean b n v p).snap = p.snap ∧ (reportClean b n v p).draws = p.draws := by
  simp only [reportClean]; (repeat' split) <;> simp

@[simp] theorem reportClean_views (b : Branch) (n : StationNo) (v : Bool) (p : Part) :
    (∀ y, (reportClean b n v p).engine y = p.engine y) ∧
    (∀ y, (reportClean b n v p).switch y = p.switch y) ∧ (∀ y, (reportClean b n v p).sup y = p.sup y) ∧
    (∀ y, (reportClean b n v p).path y = p.path y) ∧ (∀ y, (reportClean b n v p).port y = p.port y) ∧
    (∀ y, (reportClean b n v p).queue y = p.queue y) ∧ (∀ y, (reportClean b n v p).job y = p.job y) ∧
    (∀ y, (reportClean b n v p).branchSetup y = p.branchSetup y) ∧
    (∀ y, (reportClean b n v p).printerSetup y = p.printerSetup y) := by
  refine ⟨fun _ => by simp [engine], fun _ => by simp [switch], fun _ => by simp [sup],
    fun _ => by simp [path], fun _ => by simp [port], fun _ => by simp [queue], fun _ => by simp [job],
    fun _ => by simp [branchSetup], fun _ => by simp [printerSetup]⟩

@[simp] theorem reportDelivery_keeps (b : Branch) (n : StationNo) (v : Bool) (p : Part) :
    (reportDelivery b n v p).held = p.held ∧ (reportDelivery b n v p).setup = p.setup ∧
    (reportDelivery b n v p).loader = p.loader ∧ (reportDelivery b n v p).notices = p.notices ∧
    (reportDelivery b n v p).pool = p.pool ∧ (reportDelivery b n v p).units = p.units ∧
    (reportDelivery b n v p).nodes = p.nodes ∧ (reportDelivery b n v p).engines = p.engines ∧
    (reportDelivery b n v p).paths = p.paths ∧ (reportDelivery b n v p).router = p.router ∧
    (reportDelivery b n v p).toTrunk = p.toTrunk ∧ (reportDelivery b n v p).submit = p.submit ∧
    (reportDelivery b n v p).copy = p.copy ∧ (reportDelivery b n v p).jobs = p.jobs ∧
    (reportDelivery b n v p).queues = p.queues ∧ (reportDelivery b n v p).stamp = p.stamp ∧
    (reportDelivery b n v p).moveJob = p.moveJob ∧ (reportDelivery b n v p).ports = p.ports ∧
    (reportDelivery b n v p).sups = p.sups ∧ (reportDelivery b n v p).sense = p.sense ∧
    (reportDelivery b n v p).switches = p.switches ∧ (reportDelivery b n v p).branchSel = p.branchSel ∧
    (reportDelivery b n v p).button = p.button ∧ (reportDelivery b n v p).probe = p.probe ∧
    (reportDelivery b n v p).records = p.records ∧ (reportDelivery b n v p).ring = p.ring ∧
    (reportDelivery b n v p).arbiter = p.arbiter ∧
    (reportDelivery b n v p).hostWait = p.hostWait ∧ (reportDelivery b n v p).hostData = p.hostData ∧
    (reportDelivery b n v p).live = p.live ∧ (reportDelivery b n v p).lastBlocked = p.lastBlocked ∧
    (reportDelivery b n v p).snap = p.snap ∧ (reportDelivery b n v p).draws = p.draws := by
  simp only [reportDelivery]; (repeat' split) <;> simp

@[simp] theorem reportDelivery_views (b : Branch) (n : StationNo) (v : Bool) (p : Part) :
    (∀ y, (reportDelivery b n v p).engine y = p.engine y) ∧
    (∀ y, (reportDelivery b n v p).switch y = p.switch y) ∧
    (∀ y, (reportDelivery b n v p).sup y = p.sup y) ∧ (∀ y, (reportDelivery b n v p).path y = p.path y) ∧
    (∀ y, (reportDelivery b n v p).port y = p.port y) ∧
    (∀ y, (reportDelivery b n v p).queue y = p.queue y) ∧ (∀ y, (reportDelivery b n v p).job y = p.job y) ∧
    (∀ y, (reportDelivery b n v p).branchSetup y = p.branchSetup y) ∧
    (∀ y, (reportDelivery b n v p).printerSetup y = p.printerSetup y) := by
  refine ⟨fun _ => by simp [engine], fun _ => by simp [switch], fun _ => by simp [sup],
    fun _ => by simp [path], fun _ => by simp [port], fun _ => by simp [queue], fun _ => by simp [job],
    fun _ => by simp [branchSetup], fun _ => by simp [printerSetup]⟩

@[simp] theorem reportMiss_keeps (b : Branch) (n : StationNo) (v : Bool) (p : Part) :
    (reportMiss b n v p).held = p.held ∧ (reportMiss b n v p).setup = p.setup ∧
    (reportMiss b n v p).loader = p.loader ∧ (reportMiss b n v p).units = p.units ∧
    (reportMiss b n v p).nodes = p.nodes ∧ (reportMiss b n v p).router = p.router ∧
    (reportMiss b n v p).copy = p.copy ∧ (reportMiss b n v p).stamp = p.stamp ∧
    (reportMiss b n v p).moveJob = p.moveJob ∧ (reportMiss b n v p).ports = p.ports ∧
    (reportMiss b n v p).sups = p.sups ∧ (reportMiss b n v p).sense = p.sense ∧
    (reportMiss b n v p).switches = p.switches ∧ (reportMiss b n v p).branchSel = p.branchSel ∧
    (reportMiss b n v p).button = p.button ∧ (reportMiss b n v p).probe = p.probe ∧
    (reportMiss b n v p).records = p.records ∧ (reportMiss b n v p).ring = p.ring ∧
    (reportMiss b n v p).arbiter = p.arbiter ∧
    (reportMiss b n v p).hostWait = p.hostWait ∧ (reportMiss b n v p).hostData = p.hostData ∧
    (reportMiss b n v p).live = p.live ∧ (reportMiss b n v p).lastBlocked = p.lastBlocked ∧
    (reportMiss b n v p).snap = p.snap ∧ (reportMiss b n v p).draws = p.draws := by
  simp only [reportMiss]; (repeat' split) <;> simp

@[simp] theorem reportMiss_views (b : Branch) (n : StationNo) (v : Bool) (p : Part) :
    (∀ y, (reportMiss b n v p).switch y = p.switch y) ∧ (∀ y, (reportMiss b n v p).sup y = p.sup y) ∧
    (∀ y, (reportMiss b n v p).port y = p.port y) ∧
    (∀ y, (reportMiss b n v p).branchSetup y = p.branchSetup y) ∧
    (∀ y, (reportMiss b n v p).printerSetup y = p.printerSetup y) := by
  refine ⟨fun _ => by simp [switch], fun _ => by simp [sup], fun _ => by simp [port],
    fun _ => by simp [branchSetup], fun _ => by simp [printerSetup]⟩

@[simp] theorem reportGarble_keeps (b : Branch) (n : StationNo) (v : Bool) (s : Nat) (p : Part) :
    (reportGarble b n v s p).held = p.held ∧ (reportGarble b n v s p).setup = p.setup ∧
    (reportGarble b n v s p).loader = p.loader ∧ (reportGarble b n v s p).units = p.units ∧
    (reportGarble b n v s p).nodes = p.nodes ∧ (reportGarble b n v s p).router = p.router ∧
    (reportGarble b n v s p).copy = p.copy ∧ (reportGarble b n v s p).stamp = p.stamp ∧
    (reportGarble b n v s p).moveJob = p.moveJob ∧ (reportGarble b n v s p).ports = p.ports ∧
    (reportGarble b n v s p).sups = p.sups ∧ (reportGarble b n v s p).sense = p.sense ∧
    (reportGarble b n v s p).switches = p.switches ∧ (reportGarble b n v s p).branchSel = p.branchSel ∧
    (reportGarble b n v s p).button = p.button ∧ (reportGarble b n v s p).probe = p.probe ∧
    (reportGarble b n v s p).records = p.records ∧ (reportGarble b n v s p).ring = p.ring ∧
    (reportGarble b n v s p).arbiter = p.arbiter ∧
    (reportGarble b n v s p).hostWait = p.hostWait ∧ (reportGarble b n v s p).hostData = p.hostData ∧
    (reportGarble b n v s p).live = p.live ∧ (reportGarble b n v s p).lastBlocked = p.lastBlocked ∧
    (reportGarble b n v s p).snap = p.snap := by
  simp only [reportGarble]; (repeat' split) <;> simp

@[simp] theorem reportGarble_views (b : Branch) (n : StationNo) (v : Bool) (s : Nat) (p : Part) :
    (∀ y, (reportGarble b n v s p).switch y = p.switch y) ∧
    (∀ y, (reportGarble b n v s p).sup y = p.sup y) ∧ (∀ y, (reportGarble b n v s p).port y = p.port y) ∧
    (∀ y, (reportGarble b n v s p).branchSetup y = p.branchSetup y) ∧
    (∀ y, (reportGarble b n v s p).printerSetup y = p.printerSetup y) := by
  refine ⟨fun _ => by simp [switch], fun _ => by simp [sup], fun _ => by simp [port],
    fun _ => by simp [branchSetup], fun _ => by simp [printerSetup]⟩

@[simp] theorem scoreAll_keeps (b : Branch) (l : List ErrorReport) (p : Part) :
    (scoreAll b l p).held = p.held ∧ (scoreAll b l p).setup = p.setup ∧
    (scoreAll b l p).loader = p.loader ∧ (scoreAll b l p).pool = p.pool ∧
    (scoreAll b l p).stations = p.stations ∧ (scoreAll b l p).units = p.units ∧
    (scoreAll b l p).nodes = p.nodes ∧ (scoreAll b l p).engines = p.engines ∧
    (scoreAll b l p).paths = p.paths ∧ (scoreAll b l p).router = p.router ∧
    (scoreAll b l p).toTrunk = p.toTrunk ∧ (scoreAll b l p).submit = p.submit ∧
    (scoreAll b l p).copy = p.copy ∧ (scoreAll b l p).jobs = p.jobs ∧ (scoreAll b l p).queues = p.queues ∧
    (scoreAll b l p).stamp = p.stamp ∧ (scoreAll b l p).moveJob = p.moveJob ∧
    (scoreAll b l p).ports = p.ports ∧ (scoreAll b l p).sense = p.sense ∧
    (scoreAll b l p).switches = p.switches ∧ (scoreAll b l p).branchSel = p.branchSel ∧
    (scoreAll b l p).button = p.button ∧ (scoreAll b l p).probe = p.probe ∧
    (scoreAll b l p).records = p.records ∧ (scoreAll b l p).ring = p.ring ∧
    (scoreAll b l p).arbiter = p.arbiter ∧
    (scoreAll b l p).hostWait = p.hostWait ∧ (scoreAll b l p).hostData = p.hostData ∧
    (scoreAll b l p).live = p.live ∧ (scoreAll b l p).lastBlocked = p.lastBlocked ∧
    (scoreAll b l p).snap = p.snap ∧ (scoreAll b l p).draws = p.draws := by
  unfold scoreAll
  refine ⟨each_keeps_view Part.held _ _ (fun _ _ => by simp) p,
    each_keeps_view Part.setup _ _ (fun _ _ => by simp) p,
    each_keeps_view Part.loader _ _ (fun _ _ => by simp) p,
    each_keeps_view Part.pool _ _ (fun _ _ => by simp) p,
    each_keeps_view Part.stations _ _ (fun _ _ => by simp) p,
    each_keeps_view Part.units _ _ (fun _ _ => by simp) p,
    each_keeps_view Part.nodes _ _ (fun _ _ => by simp) p,
    each_keeps_view Part.engines _ _ (fun _ _ => by simp) p,
    each_keeps_view Part.paths _ _ (fun _ _ => by simp) p,
    each_keeps_view Part.router _ _ (fun _ _ => by simp) p,
    each_keeps_view Part.toTrunk _ _ (fun _ _ => by simp) p,
    each_keeps_view Part.submit _ _ (fun _ _ => by simp) p,
    each_keeps_view Part.copy _ _ (fun _ _ => by simp) p,
    each_keeps_view Part.jobs _ _ (fun _ _ => by simp) p,
    each_keeps_view Part.queues _ _ (fun _ _ => by simp) p,
    each_keeps_view Part.stamp _ _ (fun _ _ => by simp) p,
    each_keeps_view Part.moveJob _ _ (fun _ _ => by simp) p,
    each_keeps_view Part.ports _ _ (fun _ _ => by simp) p,
    each_keeps_view Part.sense _ _ (fun _ _ => by simp) p,
    each_keeps_view Part.switches _ _ (fun _ _ => by simp) p,
    each_keeps_view Part.branchSel _ _ (fun _ _ => by simp) p,
    each_keeps_view Part.button _ _ (fun _ _ => by simp) p,
    each_keeps_view Part.probe _ _ (fun _ _ => by simp) p,
    each_keeps_view Part.records _ _ (fun _ _ => by simp) p,
    each_keeps_view Part.ring _ _ (fun _ _ => by simp) p,
    each_keeps_view Part.arbiter _ _ (fun _ _ => by simp) p,
    each_keeps_view Part.hostWait _ _ (fun _ _ => by simp) p,
    each_keeps_view Part.hostData _ _ (fun _ _ => by simp) p,
    each_keeps_view Part.live _ _ (fun _ _ => by simp) p,
    each_keeps_view Part.lastBlocked _ _ (fun _ _ => by simp) p,
    each_keeps_view Part.snap _ _ (fun _ _ => by simp) p,
    each_keeps_view Part.draws _ _ (fun _ _ => by simp) p⟩

@[simp] theorem scoreAll_views (b : Branch) (l : List ErrorReport) (p : Part) :
    (∀ y, (scoreAll b l p).engine y = p.engine y) ∧ (∀ y, (scoreAll b l p).switch y = p.switch y) ∧
    (∀ y, (scoreAll b l p).path y = p.path y) ∧ (∀ y, (scoreAll b l p).port y = p.port y) ∧
    (∀ y, (scoreAll b l p).queue y = p.queue y) ∧ (∀ y, (scoreAll b l p).job y = p.job y) ∧
    (∀ y z, (scoreAll b l p).station y z = p.station y z) ∧
    (∀ y, (scoreAll b l p).branchSetup y = p.branchSetup y) ∧
    (∀ y, (scoreAll b l p).printerSetup y = p.printerSetup y) := by
  refine ⟨fun _ => by simp [engine], fun _ => by simp [switch], fun _ => by simp [path],
    fun _ => by simp [port], fun _ => by simp [queue], fun _ => by simp [job],
    fun _ _ => by simp [station], fun _ => by simp [branchSetup], fun _ => by simp [printerSetup]⟩

@[simp] theorem setSwitch_keeps (b : Branch) (w : SwitchState) (p : Part) :
    (setSwitch b w p).held = p.held ∧ (setSwitch b w p).setup = p.setup ∧
    (setSwitch b w p).loader = p.loader ∧ (setSwitch b w p).notices = p.notices ∧
    (setSwitch b w p).pool = p.pool ∧ (setSwitch b w p).stations = p.stations ∧
    (setSwitch b w p).units = p.units ∧ (setSwitch b w p).nodes = p.nodes ∧
    (setSwitch b w p).engines = p.engines ∧ (setSwitch b w p).paths = p.paths ∧
    (setSwitch b w p).router = p.router ∧ (setSwitch b w p).submit = p.submit ∧
    (setSwitch b w p).copy = p.copy ∧ (setSwitch b w p).jobs = p.jobs ∧
    (setSwitch b w p).queues = p.queues ∧ (setSwitch b w p).stamp = p.stamp ∧
    (setSwitch b w p).moveJob = p.moveJob ∧ (setSwitch b w p).ports = p.ports ∧
    (setSwitch b w p).sups = p.sups ∧ (setSwitch b w p).branchSel = p.branchSel ∧
    (setSwitch b w p).button = p.button ∧ (setSwitch b w p).probe = p.probe ∧
    (setSwitch b w p).records = p.records ∧ (setSwitch b w p).writer = p.writer ∧
    (setSwitch b w p).ring = p.ring ∧
    (setSwitch b w p).arbiter = p.arbiter ∧ (setSwitch b w p).hostWait = p.hostWait ∧
    (setSwitch b w p).hostData = p.hostData ∧ (setSwitch b w p).live = p.live ∧
    (setSwitch b w p).lastBlocked = p.lastBlocked ∧ (setSwitch b w p).snap = p.snap ∧
    (setSwitch b w p).draws = p.draws := by
  simp only [setSwitch]; (repeat' split) <;> simp

@[simp] theorem setSwitch_views (b : Branch) (w : SwitchState) (p : Part) :
    (∀ y, (setSwitch b w p).engine y = p.engine y) ∧ (∀ y, (setSwitch b w p).sup y = p.sup y) ∧
    (∀ y, (setSwitch b w p).path y = p.path y) ∧ (∀ y, (setSwitch b w p).port y = p.port y) ∧
    (∀ y, (setSwitch b w p).queue y = p.queue y) ∧ (∀ y, (setSwitch b w p).job y = p.job y) ∧
    (∀ y z, (setSwitch b w p).station y z = p.station y z) ∧
    (∀ y, (setSwitch b w p).branchSetup y = p.branchSetup y) ∧
    (∀ y, (setSwitch b w p).printerSetup y = p.printerSetup y) := by
  refine ⟨fun _ => by simp [engine], fun _ => by simp [sup], fun _ => by simp [path],
    fun _ => by simp [port], fun _ => by simp [queue], fun _ => by simp [job],
    fun _ _ => by simp [station], fun _ => by simp [branchSetup], fun _ => by simp [printerSetup]⟩

@[simp] theorem releaseDrives_keeps (b : Branch) (p : Part) :
    (releaseDrives b p).held = p.held ∧ (releaseDrives b p).setup = p.setup ∧
    (releaseDrives b p).loader = p.loader ∧ (releaseDrives b p).notices = p.notices ∧
    (releaseDrives b p).pool = p.pool ∧ (releaseDrives b p).stations = p.stations ∧
    (releaseDrives b p).units = p.units ∧ (releaseDrives b p).nodes = p.nodes ∧
    (releaseDrives b p).engines = p.engines ∧ (releaseDrives b p).paths = p.paths ∧
    (releaseDrives b p).router = p.router ∧ (releaseDrives b p).toTrunk = p.toTrunk ∧
    (releaseDrives b p).submit = p.submit ∧ (releaseDrives b p).copy = p.copy ∧
    (releaseDrives b p).jobs = p.jobs ∧ (releaseDrives b p).queues = p.queues ∧
    (releaseDrives b p).stamp = p.stamp ∧ (releaseDrives b p).moveJob = p.moveJob ∧
    (releaseDrives b p).ports = p.ports ∧ (releaseDrives b p).sups = p.sups ∧
    (releaseDrives b p).sense = p.sense ∧ (releaseDrives b p).branchSel = p.branchSel ∧
    (releaseDrives b p).button = p.button ∧ (releaseDrives b p).probe = p.probe ∧
    (releaseDrives b p).records = p.records ∧ (releaseDrives b p).writer = p.writer ∧
    (releaseDrives b p).ring = p.ring ∧
    (releaseDrives b p).arbiter = p.arbiter ∧ (releaseDrives b p).hostWait = p.hostWait ∧
    (releaseDrives b p).hostData = p.hostData ∧ (releaseDrives b p).live = p.live ∧
    (releaseDrives b p).lastBlocked = p.lastBlocked ∧ (releaseDrives b p).snap = p.snap ∧
    (releaseDrives b p).draws = p.draws := by
  refine ⟨rfl, rfl, rfl, rfl, rfl, rfl, rfl, rfl, rfl, rfl, rfl, rfl, rfl, rfl, rfl, rfl, rfl, rfl, rfl, rfl,
    rfl, rfl, rfl, rfl, rfl, rfl, rfl, rfl, rfl, rfl, rfl, rfl, rfl, rfl⟩

@[simp] theorem releaseDrives_views (b : Branch) (p : Part) :
    (∀ y, (releaseDrives b p).engine y = p.engine y) ∧ (∀ y, (releaseDrives b p).sup y = p.sup y) ∧
    (∀ y, (releaseDrives b p).path y = p.path y) ∧ (∀ y, (releaseDrives b p).port y = p.port y) ∧
    (∀ y, (releaseDrives b p).queue y = p.queue y) ∧ (∀ y, (releaseDrives b p).job y = p.job y) ∧
    (∀ y z, (releaseDrives b p).station y z = p.station y z) ∧
    (∀ y, (releaseDrives b p).branchSetup y = p.branchSetup y) ∧
    (∀ y, (releaseDrives b p).printerSetup y = p.printerSetup y) := by
  refine ⟨fun _ => by simp [engine], fun _ => by simp [sup], fun _ => by simp [path],
    fun _ => by simp [port], fun _ => by simp [queue], fun _ => by simp [job],
    fun _ _ => by simp [station], fun _ => by simp [branchSetup], fun _ => by simp [printerSetup]⟩

@[simp] theorem moveOpen_keeps (b : Branch) (p : Part) :
    (moveOpen b p).held = p.held ∧ (moveOpen b p).setup = p.setup ∧ (moveOpen b p).loader = p.loader ∧
    (moveOpen b p).notices = p.notices ∧ (moveOpen b p).pool = p.pool ∧
    (moveOpen b p).stations = p.stations ∧ (moveOpen b p).units = p.units ∧
    (moveOpen b p).nodes = p.nodes ∧ (moveOpen b p).engines = p.engines ∧ (moveOpen b p).paths = p.paths ∧
    (moveOpen b p).router = p.router ∧ (moveOpen b p).toTrunk = p.toTrunk ∧
    (moveOpen b p).submit = p.submit ∧ (moveOpen b p).copy = p.copy ∧ (moveOpen b p).jobs = p.jobs ∧
    (moveOpen b p).queues = p.queues ∧ (moveOpen b p).stamp = p.stamp ∧
    (moveOpen b p).moveJob = p.moveJob ∧ (moveOpen b p).ports = p.ports ∧ (moveOpen b p).sups = p.sups ∧
    (moveOpen b p).sense = p.sense ∧ (moveOpen b p).branchSel = p.branchSel ∧
    (moveOpen b p).button = p.button ∧ (moveOpen b p).probe = p.probe ∧
    (moveOpen b p).records = p.records ∧ (moveOpen b p).writer = p.writer ∧
    (moveOpen b p).ring = p.ring ∧
    (moveOpen b p).arbiter = p.arbiter ∧ (moveOpen b p).hostWait = p.hostWait ∧
    (moveOpen b p).hostData = p.hostData ∧ (moveOpen b p).live = p.live ∧
    (moveOpen b p).lastBlocked = p.lastBlocked ∧ (moveOpen b p).snap = p.snap ∧
    (moveOpen b p).draws = p.draws := by
  refine ⟨rfl, rfl, rfl, rfl, rfl, rfl, rfl, rfl, rfl, rfl, rfl, rfl, rfl, rfl, rfl, rfl, rfl, rfl, rfl, rfl,
    rfl, rfl, rfl, rfl, rfl, rfl, rfl, rfl, rfl, rfl, rfl, rfl, rfl, rfl⟩

@[simp] theorem moveOpen_views (b : Branch) (p : Part) :
    (∀ y, (moveOpen b p).engine y = p.engine y) ∧ (∀ y, (moveOpen b p).sup y = p.sup y) ∧
    (∀ y, (moveOpen b p).path y = p.path y) ∧ (∀ y, (moveOpen b p).port y = p.port y) ∧
    (∀ y, (moveOpen b p).queue y = p.queue y) ∧ (∀ y, (moveOpen b p).job y = p.job y) ∧
    (∀ y z, (moveOpen b p).station y z = p.station y z) ∧
    (∀ y, (moveOpen b p).branchSetup y = p.branchSetup y) ∧
    (∀ y, (moveOpen b p).printerSetup y = p.printerSetup y) := by
  refine ⟨fun _ => by simp [engine], fun _ => by simp [sup], fun _ => by simp [path],
    fun _ => by simp [port], fun _ => by simp [queue], fun _ => by simp [job],
    fun _ _ => by simp [station], fun _ => by simp [branchSetup], fun _ => by simp [printerSetup]⟩

@[simp] theorem haltEngine_keeps (b : Branch) (p : Part) :
    (haltEngine b p).held = p.held ∧ (haltEngine b p).setup = p.setup ∧
    (haltEngine b p).loader = p.loader ∧ (haltEngine b p).notices = p.notices ∧
    (haltEngine b p).stations = p.stations ∧ (haltEngine b p).units = p.units ∧
    (haltEngine b p).nodes = p.nodes ∧ (haltEngine b p).router = p.router ∧
    (haltEngine b p).copy = p.copy ∧ (haltEngine b p).jobs = p.jobs ∧ (haltEngine b p).queues = p.queues ∧
    (haltEngine b p).stamp = p.stamp ∧ (haltEngine b p).moveJob = p.moveJob ∧
    (haltEngine b p).ports = p.ports ∧ (haltEngine b p).sups = p.sups ∧ (haltEngine b p).sense = p.sense ∧
    (haltEngine b p).switches = p.switches ∧ (haltEngine b p).branchSel = p.branchSel ∧
    (haltEngine b p).button = p.button ∧ (haltEngine b p).probe = p.probe ∧
    (haltEngine b p).records = p.records ∧ (haltEngine b p).writer = p.writer ∧
    (haltEngine b p).ring = p.ring ∧
    (haltEngine b p).arbiter = p.arbiter ∧ (haltEngine b p).hostWait = p.hostWait ∧
    (haltEngine b p).hostData = p.hostData ∧ (haltEngine b p).live = p.live ∧
    (haltEngine b p).lastBlocked = p.lastBlocked ∧ (haltEngine b p).snap = p.snap ∧
    (haltEngine b p).draws = p.draws := by
  simp only [haltEngine]; (repeat' split) <;> simp

@[simp] theorem haltEngine_views (b : Branch) (p : Part) :
    (∀ y, (haltEngine b p).switch y = p.switch y) ∧ (∀ y, (haltEngine b p).sup y = p.sup y) ∧
    (∀ y, (haltEngine b p).port y = p.port y) ∧ (∀ y, (haltEngine b p).queue y = p.queue y) ∧
    (∀ y, (haltEngine b p).job y = p.job y) ∧ (∀ y z, (haltEngine b p).station y z = p.station y z) ∧
    (∀ y, (haltEngine b p).branchSetup y = p.branchSetup y) ∧
    (∀ y, (haltEngine b p).printerSetup y = p.printerSetup y) := by
  refine ⟨fun _ => by simp [switch], fun _ => by simp [sup], fun _ => by simp [port],
    fun _ => by simp [queue], fun _ => by simp [job], fun _ _ => by simp [station],
    fun _ => by simp [branchSetup], fun _ => by simp [printerSetup]⟩

@[simp] theorem enterStopped_keeps (b : Branch) (p : Part) :
    (enterStopped b p).held = p.held ∧ (enterStopped b p).setup = p.setup ∧
    (enterStopped b p).loader = p.loader ∧ (enterStopped b p).stations = p.stations ∧
    (enterStopped b p).units = p.units ∧ (enterStopped b p).nodes = p.nodes ∧
    (enterStopped b p).router = p.router ∧ (enterStopped b p).copy = p.copy ∧
    (enterStopped b p).jobs = p.jobs ∧ (enterStopped b p).queues = p.queues ∧
    (enterStopped b p).stamp = p.stamp ∧ (enterStopped b p).moveJob = p.moveJob ∧
    (enterStopped b p).ports = p.ports ∧ (enterStopped b p).sense = p.sense ∧
    (enterStopped b p).switches = p.switches ∧ (enterStopped b p).branchSel = p.branchSel ∧
    (enterStopped b p).button = p.button ∧ (enterStopped b p).probe = p.probe ∧
    (enterStopped b p).records = p.records ∧ (enterStopped b p).ring = p.ring ∧
    (enterStopped b p).arbiter = p.arbiter ∧
    (enterStopped b p).hostWait = p.hostWait ∧ (enterStopped b p).hostData = p.hostData ∧
    (enterStopped b p).live = p.live ∧ (enterStopped b p).lastBlocked = p.lastBlocked ∧
    (enterStopped b p).snap = p.snap ∧ (enterStopped b p).draws = p.draws := by
  simp only [enterStopped]; (repeat' split) <;> simp

@[simp] theorem enterStopped_views (b : Branch) (p : Part) :
    (∀ y, (enterStopped b p).switch y = p.switch y) ∧ (∀ y, (enterStopped b p).port y = p.port y) ∧
    (∀ y, (enterStopped b p).queue y = p.queue y) ∧ (∀ y, (enterStopped b p).job y = p.job y) ∧
    (∀ y z, (enterStopped b p).station y z = p.station y z) ∧
    (∀ y, (enterStopped b p).branchSetup y = p.branchSetup y) ∧
    (∀ y, (enterStopped b p).printerSetup y = p.printerSetup y) := by
  refine ⟨fun _ => by simp [switch], fun _ => by simp [port], fun _ => by simp [queue],
    fun _ => by simp [job], fun _ _ => by simp [station], fun _ => by simp [branchSetup],
    fun _ => by simp [printerSetup]⟩

@[simp] theorem switchFlush_keeps (b : Branch) (p : Part) :
    (switchFlush b p).held = p.held ∧ (switchFlush b p).setup = p.setup ∧
    (switchFlush b p).loader = p.loader ∧ (switchFlush b p).notices = p.notices ∧
    (switchFlush b p).units = p.units ∧ (switchFlush b p).nodes = p.nodes ∧
    (switchFlush b p).router = p.router ∧ (switchFlush b p).copy = p.copy ∧
    (switchFlush b p).stamp = p.stamp ∧ (switchFlush b p).moveJob = p.moveJob ∧
    (switchFlush b p).ports = p.ports ∧ (switchFlush b p).sups = p.sups ∧
    (switchFlush b p).sense = p.sense ∧ (switchFlush b p).switches = p.switches ∧
    (switchFlush b p).branchSel = p.branchSel ∧ (switchFlush b p).button = p.button ∧
    (switchFlush b p).probe = p.probe ∧ (switchFlush b p).records = p.records ∧
    (switchFlush b p).ring = p.ring ∧
    (switchFlush b p).arbiter = p.arbiter ∧ (switchFlush b p).hostWait = p.hostWait ∧
    (switchFlush b p).hostData = p.hostData ∧ (switchFlush b p).live = p.live ∧
    (switchFlush b p).lastBlocked = p.lastBlocked ∧ (switchFlush b p).snap = p.snap ∧
    (switchFlush b p).draws = p.draws := by
  simp only [switchFlush]; (repeat' split) <;> simp

@[simp] theorem switchFlush_views (b : Branch) (p : Part) :
    (∀ y, (switchFlush b p).switch y = p.switch y) ∧ (∀ y, (switchFlush b p).sup y = p.sup y) ∧
    (∀ y, (switchFlush b p).port y = p.port y) ∧ (∀ y, (switchFlush b p).branchSetup y = p.branchSetup y) ∧
    (∀ y, (switchFlush b p).printerSetup y = p.printerSetup y) := by
  refine ⟨fun _ => by simp [switch], fun _ => by simp [sup], fun _ => by simp [port],
    fun _ => by simp [branchSetup], fun _ => by simp [printerSetup]⟩

@[simp] theorem stopReported_keeps (b : Branch) (p : Part) :
    (stopReported b p).held = p.held ∧ (stopReported b p).setup = p.setup ∧
    (stopReported b p).loader = p.loader ∧ (stopReported b p).units = p.units ∧
    (stopReported b p).nodes = p.nodes ∧ (stopReported b p).router = p.router ∧
    (stopReported b p).copy = p.copy ∧ (stopReported b p).stamp = p.stamp ∧
    (stopReported b p).moveJob = p.moveJob ∧ (stopReported b p).ports = p.ports ∧
    (stopReported b p).branchSel = p.branchSel ∧ (stopReported b p).button = p.button ∧
    (stopReported b p).probe = p.probe ∧ (stopReported b p).records = p.records ∧
    (stopReported b p).ring = p.ring ∧
    (stopReported b p).arbiter = p.arbiter ∧ (stopReported b p).hostWait = p.hostWait ∧
    (stopReported b p).hostData = p.hostData ∧ (stopReported b p).live = p.live ∧
    (stopReported b p).lastBlocked = p.lastBlocked ∧ (stopReported b p).snap = p.snap ∧
    (stopReported b p).draws = p.draws := by
  simp only [stopReported]; (repeat' split) <;> simp

@[simp] theorem stopReported_views (b : Branch) (p : Part) :
    (∀ y, (stopReported b p).port y = p.port y) ∧
    (∀ y, (stopReported b p).branchSetup y = p.branchSetup y) ∧
    (∀ y, (stopReported b p).printerSetup y = p.printerSetup y) := by
  refine ⟨fun _ => by simp [port], fun _ => by simp [branchSetup], fun _ => by simp [printerSetup]⟩

@[simp] theorem stopRequest_keeps (b : Branch) (p : Part) :
    (stopRequest b p).held = p.held ∧ (stopRequest b p).setup = p.setup ∧
    (stopRequest b p).loader = p.loader ∧ (stopRequest b p).units = p.units ∧
    (stopRequest b p).nodes = p.nodes ∧ (stopRequest b p).router = p.router ∧
    (stopRequest b p).copy = p.copy ∧ (stopRequest b p).stamp = p.stamp ∧
    (stopRequest b p).moveJob = p.moveJob ∧ (stopRequest b p).ports = p.ports ∧
    (stopRequest b p).branchSel = p.branchSel ∧ (stopRequest b p).button = p.button ∧
    (stopRequest b p).probe = p.probe ∧ (stopRequest b p).records = p.records ∧
    (stopRequest b p).ring = p.ring ∧
    (stopRequest b p).arbiter = p.arbiter ∧ (stopRequest b p).hostWait = p.hostWait ∧
    (stopRequest b p).hostData = p.hostData ∧ (stopRequest b p).live = p.live ∧
    (stopRequest b p).lastBlocked = p.lastBlocked ∧ (stopRequest b p).snap = p.snap ∧
    (stopRequest b p).draws = p.draws := by
  simp only [stopRequest]; (repeat' split) <;> simp

@[simp] theorem stopRequest_views (b : Branch) (p : Part) :
    (∀ y, (stopRequest b p).port y = p.port y) ∧ (∀ y, (stopRequest b p).branchSetup y = p.branchSetup y) ∧
    (∀ y, (stopRequest b p).printerSetup y = p.printerSetup y) := by
  refine ⟨fun _ => by simp [port], fun _ => by simp [branchSetup], fun _ => by simp [printerSetup]⟩

@[simp] theorem requestIsolation_keeps (b : Branch) (r : IsoReason) (d : Destination) (p : Part) :
    (requestIsolation b r d p).held = p.held ∧ (requestIsolation b r d p).setup = p.setup ∧
    (requestIsolation b r d p).loader = p.loader ∧ (requestIsolation b r d p).units = p.units ∧
    (requestIsolation b r d p).nodes = p.nodes ∧ (requestIsolation b r d p).router = p.router ∧
    (requestIsolation b r d p).copy = p.copy ∧ (requestIsolation b r d p).stamp = p.stamp ∧
    (requestIsolation b r d p).moveJob = p.moveJob ∧ (requestIsolation b r d p).ports = p.ports ∧
    (requestIsolation b r d p).branchSel = p.branchSel ∧ (requestIsolation b r d p).button = p.button ∧
    (requestIsolation b r d p).probe = p.probe ∧ (requestIsolation b r d p).records = p.records ∧
    (requestIsolation b r d p).ring = p.ring ∧
    (requestIsolation b r d p).arbiter = p.arbiter ∧ (requestIsolation b r d p).hostWait = p.hostWait ∧
    (requestIsolation b r d p).hostData = p.hostData ∧ (requestIsolation b r d p).live = p.live ∧
    (requestIsolation b r d p).lastBlocked = p.lastBlocked ∧ (requestIsolation b r d p).snap = p.snap ∧
    (requestIsolation b r d p).draws = p.draws := by
  simp only [requestIsolation]; (repeat' split) <;> simp

@[simp] theorem requestIsolation_views (b : Branch) (r : IsoReason) (d : Destination) (p : Part) :
    (∀ y, (requestIsolation b r d p).port y = p.port y) ∧
    (∀ y, (requestIsolation b r d p).branchSetup y = p.branchSetup y) ∧
    (∀ y, (requestIsolation b r d p).printerSetup y = p.printerSetup y) := by
  refine ⟨fun _ => by simp [port], fun _ => by simp [branchSetup], fun _ => by simp [printerSetup]⟩

@[simp] theorem isolationTest_keeps (b : Branch) (k : ErrorKind) (p : Part) :
    (isolationTest b k p).held = p.held ∧ (isolationTest b k p).setup = p.setup ∧
    (isolationTest b k p).loader = p.loader ∧ (isolationTest b k p).units = p.units ∧
    (isolationTest b k p).nodes = p.nodes ∧ (isolationTest b k p).router = p.router ∧
    (isolationTest b k p).copy = p.copy ∧ (isolationTest b k p).stamp = p.stamp ∧
    (isolationTest b k p).moveJob = p.moveJob ∧ (isolationTest b k p).ports = p.ports ∧
    (isolationTest b k p).branchSel = p.branchSel ∧ (isolationTest b k p).button = p.button ∧
    (isolationTest b k p).probe = p.probe ∧ (isolationTest b k p).records = p.records ∧
    (isolationTest b k p).ring = p.ring ∧
    (isolationTest b k p).arbiter = p.arbiter ∧ (isolationTest b k p).hostWait = p.hostWait ∧
    (isolationTest b k p).hostData = p.hostData ∧ (isolationTest b k p).live = p.live ∧
    (isolationTest b k p).lastBlocked = p.lastBlocked ∧ (isolationTest b k p).snap = p.snap ∧
    (isolationTest b k p).draws = p.draws := by
  simp only [isolationTest]; (repeat' split) <;> simp

@[simp] theorem isolationTest_views (b : Branch) (k : ErrorKind) (p : Part) :
    (∀ y, (isolationTest b k p).port y = p.port y) ∧
    (∀ y, (isolationTest b k p).branchSetup y = p.branchSetup y) ∧
    (∀ y, (isolationTest b k p).printerSetup y = p.printerSetup y) := by
  refine ⟨fun _ => by simp [port], fun _ => by simp [branchSetup], fun _ => by simp [printerSetup]⟩

@[simp] theorem handleError_keeps (b : Branch) (r : ErrorReport) (p : Part) :
    (handleError b r p).held = p.held ∧ (handleError b r p).setup = p.setup ∧
    (handleError b r p).loader = p.loader ∧ (handleError b r p).units = p.units ∧
    (handleError b r p).nodes = p.nodes ∧ (handleError b r p).router = p.router ∧
    (handleError b r p).copy = p.copy ∧ (handleError b r p).stamp = p.stamp ∧
    (handleError b r p).moveJob = p.moveJob ∧ (handleError b r p).ports = p.ports ∧
    (handleError b r p).branchSel = p.branchSel ∧ (handleError b r p).button = p.button ∧
    (handleError b r p).probe = p.probe ∧ (handleError b r p).records = p.records ∧
    (handleError b r p).ring = p.ring ∧
    (handleError b r p).arbiter = p.arbiter ∧ (handleError b r p).hostWait = p.hostWait ∧
    (handleError b r p).hostData = p.hostData ∧ (handleError b r p).live = p.live ∧
    (handleError b r p).lastBlocked = p.lastBlocked ∧ (handleError b r p).snap = p.snap ∧
    (handleError b r p).draws = p.draws := by
  simp only [handleError]; (repeat' split) <;> simp

@[simp] theorem handleError_views (b : Branch) (r : ErrorReport) (p : Part) :
    (∀ y, (handleError b r p).port y = p.port y) ∧
    (∀ y, (handleError b r p).branchSetup y = p.branchSetup y) ∧
    (∀ y, (handleError b r p).printerSetup y = p.printerSetup y) := by
  refine ⟨fun _ => by simp [port], fun _ => by simp [branchSetup], fun _ => by simp [printerSetup]⟩

@[simp] theorem handleAll_keeps (b : Branch) (l : List ErrorReport) (p : Part) :
    (handleAll b l p).held = p.held ∧ (handleAll b l p).setup = p.setup ∧
    (handleAll b l p).loader = p.loader ∧ (handleAll b l p).units = p.units ∧
    (handleAll b l p).nodes = p.nodes ∧ (handleAll b l p).router = p.router ∧
    (handleAll b l p).copy = p.copy ∧ (handleAll b l p).stamp = p.stamp ∧
    (handleAll b l p).moveJob = p.moveJob ∧ (handleAll b l p).ports = p.ports ∧
    (handleAll b l p).branchSel = p.branchSel ∧ (handleAll b l p).button = p.button ∧
    (handleAll b l p).probe = p.probe ∧ (handleAll b l p).records = p.records ∧
    (handleAll b l p).ring = p.ring ∧
    (handleAll b l p).arbiter = p.arbiter ∧ (handleAll b l p).hostWait = p.hostWait ∧
    (handleAll b l p).hostData = p.hostData ∧ (handleAll b l p).live = p.live ∧
    (handleAll b l p).lastBlocked = p.lastBlocked ∧ (handleAll b l p).snap = p.snap ∧
    (handleAll b l p).draws = p.draws := by
  unfold handleAll
  refine ⟨each_keeps_view Part.held _ _ (fun _ _ => by simp) p,
    each_keeps_view Part.setup _ _ (fun _ _ => by simp) p,
    each_keeps_view Part.loader _ _ (fun _ _ => by simp) p,
    each_keeps_view Part.units _ _ (fun _ _ => by simp) p,
    each_keeps_view Part.nodes _ _ (fun _ _ => by simp) p,
    each_keeps_view Part.router _ _ (fun _ _ => by simp) p,
    each_keeps_view Part.copy _ _ (fun _ _ => by simp) p,
    each_keeps_view Part.stamp _ _ (fun _ _ => by simp) p,
    each_keeps_view Part.moveJob _ _ (fun _ _ => by simp) p,
    each_keeps_view Part.ports _ _ (fun _ _ => by simp) p,
    each_keeps_view Part.branchSel _ _ (fun _ _ => by simp) p,
    each_keeps_view Part.button _ _ (fun _ _ => by simp) p,
    each_keeps_view Part.probe _ _ (fun _ _ => by simp) p,
    each_keeps_view Part.records _ _ (fun _ _ => by simp) p,
    each_keeps_view Part.ring _ _ (fun _ _ => by simp) p,
    each_keeps_view Part.arbiter _ _ (fun _ _ => by simp) p,
    each_keeps_view Part.hostWait _ _ (fun _ _ => by simp) p,
    each_keeps_view Part.hostData _ _ (fun _ _ => by simp) p,
    each_keeps_view Part.live _ _ (fun _ _ => by simp) p,
    each_keeps_view Part.lastBlocked _ _ (fun _ _ => by simp) p,
    each_keeps_view Part.snap _ _ (fun _ _ => by simp) p,
    each_keeps_view Part.draws _ _ (fun _ _ => by simp) p⟩

@[simp] theorem handleAll_views (b : Branch) (l : List ErrorReport) (p : Part) :
    (∀ y, (handleAll b l p).port y = p.port y) ∧ (∀ y, (handleAll b l p).branchSetup y = p.branchSetup y) ∧
    (∀ y, (handleAll b l p).printerSetup y = p.printerSetup y) := by
  refine ⟨fun _ => by simp [port], fun _ => by simp [branchSetup], fun _ => by simp [printerSetup]⟩

@[simp] theorem abandonProbe_keeps (b : Branch) (p : Part) :
    (abandonProbe b p).held = p.held ∧ (abandonProbe b p).setup = p.setup ∧
    (abandonProbe b p).loader = p.loader ∧ (abandonProbe b p).notices = p.notices ∧
    (abandonProbe b p).pool = p.pool ∧ (abandonProbe b p).stations = p.stations ∧
    (abandonProbe b p).units = p.units ∧ (abandonProbe b p).nodes = p.nodes ∧
    (abandonProbe b p).engines = p.engines ∧ (abandonProbe b p).paths = p.paths ∧
    (abandonProbe b p).router = p.router ∧ (abandonProbe b p).toTrunk = p.toTrunk ∧
    (abandonProbe b p).submit = p.submit ∧ (abandonProbe b p).copy = p.copy ∧
    (abandonProbe b p).jobs = p.jobs ∧ (abandonProbe b p).queues = p.queues ∧
    (abandonProbe b p).stamp = p.stamp ∧ (abandonProbe b p).moveJob = p.moveJob ∧
    (abandonProbe b p).ports = p.ports ∧ (abandonProbe b p).sups = p.sups ∧
    (abandonProbe b p).sense = p.sense ∧ (abandonProbe b p).switches = p.switches ∧
    (abandonProbe b p).branchSel = p.branchSel ∧ (abandonProbe b p).button = p.button ∧
    (abandonProbe b p).records = p.records ∧ (abandonProbe b p).writer = p.writer ∧
    (abandonProbe b p).ring = p.ring ∧
    (abandonProbe b p).arbiter = p.arbiter ∧ (abandonProbe b p).hostWait = p.hostWait ∧
    (abandonProbe b p).hostData = p.hostData ∧ (abandonProbe b p).live = p.live ∧
    (abandonProbe b p).lastBlocked = p.lastBlocked ∧ (abandonProbe b p).snap = p.snap ∧
    (abandonProbe b p).draws = p.draws := by
  refine ⟨rfl, rfl, rfl, rfl, rfl, rfl, rfl, rfl, rfl, rfl, rfl, rfl, rfl, rfl, rfl, rfl, rfl, rfl, rfl, rfl,
    rfl, rfl, rfl, rfl, rfl, rfl, rfl, rfl, rfl, rfl, rfl, rfl, rfl, rfl⟩

@[simp] theorem abandonProbe_views (b : Branch) (p : Part) :
    (∀ y, (abandonProbe b p).engine y = p.engine y) ∧ (∀ y, (abandonProbe b p).switch y = p.switch y) ∧
    (∀ y, (abandonProbe b p).sup y = p.sup y) ∧ (∀ y, (abandonProbe b p).path y = p.path y) ∧
    (∀ y, (abandonProbe b p).port y = p.port y) ∧ (∀ y, (abandonProbe b p).queue y = p.queue y) ∧
    (∀ y, (abandonProbe b p).job y = p.job y) ∧ (∀ y z, (abandonProbe b p).station y z = p.station y z) ∧
    (∀ y, (abandonProbe b p).branchSetup y = p.branchSetup y) ∧
    (∀ y, (abandonProbe b p).printerSetup y = p.printerSetup y) := by
  refine ⟨fun _ => by simp [engine], fun _ => by simp [switch], fun _ => by simp [sup],
    fun _ => by simp [path], fun _ => by simp [port], fun _ => by simp [queue], fun _ => by simp [job],
    fun _ _ => by simp [station], fun _ => by simp [branchSetup], fun _ => by simp [printerSetup]⟩

@[simp] theorem faultStop_keeps (b : Branch) (p : Part) :
    (faultStop b p).held = p.held ∧ (faultStop b p).setup = p.setup ∧ (faultStop b p).loader = p.loader ∧
    (faultStop b p).units = p.units ∧ (faultStop b p).nodes = p.nodes ∧ (faultStop b p).router = p.router ∧
    (faultStop b p).copy = p.copy ∧ (faultStop b p).stamp = p.stamp ∧ (faultStop b p).moveJob = p.moveJob ∧
    (faultStop b p).ports = p.ports ∧ (faultStop b p).branchSel = p.branchSel ∧
    (faultStop b p).button = p.button ∧ (faultStop b p).records = p.records ∧
    (faultStop b p).ring = p.ring ∧
    (faultStop b p).arbiter = p.arbiter ∧ (faultStop b p).hostWait = p.hostWait ∧
    (faultStop b p).hostData = p.hostData ∧ (faultStop b p).live = p.live ∧
    (faultStop b p).lastBlocked = p.lastBlocked ∧ (faultStop b p).snap = p.snap ∧
    (faultStop b p).draws = p.draws := by
  simp only [faultStop]; (repeat' split) <;> simp

@[simp] theorem faultStop_views (b : Branch) (p : Part) :
    (∀ y, (faultStop b p).port y = p.port y) ∧ (∀ y, (faultStop b p).branchSetup y = p.branchSetup y) ∧
    (∀ y, (faultStop b p).printerSetup y = p.printerSetup y) := by
  refine ⟨fun _ => by simp [port], fun _ => by simp [branchSetup], fun _ => by simp [printerSetup]⟩

@[simp] theorem faultLock_keeps (b : Branch) (p : Part) :
    (faultLock b p).held = p.held ∧ (faultLock b p).setup = p.setup ∧ (faultLock b p).loader = p.loader ∧
    (faultLock b p).units = p.units ∧ (faultLock b p).nodes = p.nodes ∧ (faultLock b p).router = p.router ∧
    (faultLock b p).copy = p.copy ∧ (faultLock b p).stamp = p.stamp ∧ (faultLock b p).moveJob = p.moveJob ∧
    (faultLock b p).ports = p.ports ∧ (faultLock b p).branchSel = p.branchSel ∧
    (faultLock b p).button = p.button ∧ (faultLock b p).records = p.records ∧
    (faultLock b p).ring = p.ring ∧
    (faultLock b p).arbiter = p.arbiter ∧ (faultLock b p).hostWait = p.hostWait ∧
    (faultLock b p).hostData = p.hostData ∧ (faultLock b p).live = p.live ∧
    (faultLock b p).lastBlocked = p.lastBlocked ∧ (faultLock b p).snap = p.snap ∧
    (faultLock b p).draws = p.draws := by
  simp only [faultLock]; (repeat' split) <;> simp

@[simp] theorem faultLock_views (b : Branch) (p : Part) :
    (∀ y, (faultLock b p).port y = p.port y) ∧ (∀ y, (faultLock b p).branchSetup y = p.branchSetup y) ∧
    (∀ y, (faultLock b p).printerSetup y = p.printerSetup y) := by
  refine ⟨fun _ => by simp [port], fun _ => by simp [branchSetup], fun _ => by simp [printerSetup]⟩

@[simp] theorem assertLine_keeps (b : Branch) (p : Part) :
    (assertLine b p).held = p.held ∧ (assertLine b p).setup = p.setup ∧
    (assertLine b p).loader = p.loader ∧ (assertLine b p).units = p.units ∧
    (assertLine b p).nodes = p.nodes ∧ (assertLine b p).router = p.router ∧
    (assertLine b p).copy = p.copy ∧ (assertLine b p).stamp = p.stamp ∧
    (assertLine b p).moveJob = p.moveJob ∧ (assertLine b p).ports = p.ports ∧
    (assertLine b p).branchSel = p.branchSel ∧ (assertLine b p).button = p.button ∧
    (assertLine b p).records = p.records ∧ (assertLine b p).ring = p.ring ∧
    (assertLine b p).arbiter = p.arbiter ∧
    (assertLine b p).hostWait = p.hostWait ∧ (assertLine b p).hostData = p.hostData ∧
    (assertLine b p).live = p.live ∧ (assertLine b p).lastBlocked = p.lastBlocked ∧
    (assertLine b p).snap = p.snap ∧ (assertLine b p).draws = p.draws := by
  simp only [assertLine]; (repeat' split) <;> simp

@[simp] theorem assertLine_views (b : Branch) (p : Part) :
    (∀ y, (assertLine b p).port y = p.port y) ∧ (∀ y, (assertLine b p).branchSetup y = p.branchSetup y) ∧
    (∀ y, (assertLine b p).printerSetup y = p.printerSetup y) := by
  refine ⟨fun _ => by simp [port], fun _ => by simp [branchSetup], fun _ => by simp [printerSetup]⟩

@[simp] theorem assertProbe_keeps (b : Branch) (p : Part) :
    (assertProbe b p).held = p.held ∧ (assertProbe b p).setup = p.setup ∧
    (assertProbe b p).loader = p.loader ∧ (assertProbe b p).units = p.units ∧
    (assertProbe b p).nodes = p.nodes ∧ (assertProbe b p).router = p.router ∧
    (assertProbe b p).copy = p.copy ∧ (assertProbe b p).stamp = p.stamp ∧
    (assertProbe b p).moveJob = p.moveJob ∧ (assertProbe b p).ports = p.ports ∧
    (assertProbe b p).branchSel = p.branchSel ∧ (assertProbe b p).button = p.button ∧
    (assertProbe b p).records = p.records ∧ (assertProbe b p).ring = p.ring ∧
    (assertProbe b p).arbiter = p.arbiter ∧
    (assertProbe b p).hostWait = p.hostWait ∧ (assertProbe b p).hostData = p.hostData ∧
    (assertProbe b p).live = p.live ∧ (assertProbe b p).lastBlocked = p.lastBlocked ∧
    (assertProbe b p).snap = p.snap ∧ (assertProbe b p).draws = p.draws := by
  simp only [assertProbe]; (repeat' split) <;> simp

@[simp] theorem assertProbe_views (b : Branch) (p : Part) :
    (∀ y, (assertProbe b p).port y = p.port y) ∧ (∀ y, (assertProbe b p).branchSetup y = p.branchSetup y) ∧
    (∀ y, (assertProbe b p).printerSetup y = p.printerSetup y) := by
  refine ⟨fun _ => by simp [port], fun _ => by simp [branchSetup], fun _ => by simp [printerSetup]⟩

@[simp] theorem beginEnable_keeps (b : Branch) (p : Part) :
    (beginEnable b p).held = p.held ∧ (beginEnable b p).setup = p.setup ∧
    (beginEnable b p).loader = p.loader ∧ (beginEnable b p).units = p.units ∧
    (beginEnable b p).nodes = p.nodes ∧ (beginEnable b p).router = p.router ∧
    (beginEnable b p).copy = p.copy ∧ (beginEnable b p).stamp = p.stamp ∧
    (beginEnable b p).moveJob = p.moveJob ∧ (beginEnable b p).ports = p.ports ∧
    (beginEnable b p).branchSel = p.branchSel ∧ (beginEnable b p).button = p.button ∧
    (beginEnable b p).records = p.records ∧ (beginEnable b p).ring = p.ring ∧
    (beginEnable b p).arbiter = p.arbiter ∧
    (beginEnable b p).hostWait = p.hostWait ∧ (beginEnable b p).hostData = p.hostData ∧
    (beginEnable b p).live = p.live ∧ (beginEnable b p).lastBlocked = p.lastBlocked ∧
    (beginEnable b p).snap = p.snap ∧ (beginEnable b p).draws = p.draws := by
  simp only [beginEnable]; (repeat' split) <;> simp

@[simp] theorem beginEnable_views (b : Branch) (p : Part) :
    (∀ y, (beginEnable b p).port y = p.port y) ∧ (∀ y, (beginEnable b p).branchSetup y = p.branchSetup y) ∧
    (∀ y, (beginEnable b p).printerSetup y = p.printerSetup y) := by
  refine ⟨fun _ => by simp [port], fun _ => by simp [branchSetup], fun _ => by simp [printerSetup]⟩

@[simp] theorem beginRestore_keeps (b : Branch) (p : Part) :
    (beginRestore b p).held = p.held ∧ (beginRestore b p).setup = p.setup ∧
    (beginRestore b p).loader = p.loader ∧ (beginRestore b p).units = p.units ∧
    (beginRestore b p).nodes = p.nodes ∧ (beginRestore b p).router = p.router ∧
    (beginRestore b p).copy = p.copy ∧ (beginRestore b p).stamp = p.stamp ∧
    (beginRestore b p).moveJob = p.moveJob ∧ (beginRestore b p).ports = p.ports ∧
    (beginRestore b p).branchSel = p.branchSel ∧ (beginRestore b p).button = p.button ∧
    (beginRestore b p).records = p.records ∧ (beginRestore b p).ring = p.ring ∧
    (beginRestore b p).arbiter = p.arbiter ∧
    (beginRestore b p).hostWait = p.hostWait ∧ (beginRestore b p).hostData = p.hostData ∧
    (beginRestore b p).live = p.live ∧ (beginRestore b p).lastBlocked = p.lastBlocked ∧
    (beginRestore b p).snap = p.snap ∧ (beginRestore b p).draws = p.draws := by
  simp only [beginRestore]; (repeat' split) <;> simp

@[simp] theorem beginRestore_views (b : Branch) (p : Part) :
    (∀ y, (beginRestore b p).port y = p.port y) ∧
    (∀ y, (beginRestore b p).branchSetup y = p.branchSetup y) ∧
    (∀ y, (beginRestore b p).printerSetup y = p.printerSetup y) := by
  refine ⟨fun _ => by simp [port], fun _ => by simp [branchSetup], fun _ => by simp [printerSetup]⟩

@[simp] theorem takeRestore_keeps (b : Branch) (p : Part) :
    (takeRestore b p).held = p.held ∧ (takeRestore b p).setup = p.setup ∧
    (takeRestore b p).loader = p.loader ∧ (takeRestore b p).units = p.units ∧
    (takeRestore b p).nodes = p.nodes ∧ (takeRestore b p).router = p.router ∧
    (takeRestore b p).copy = p.copy ∧ (takeRestore b p).stamp = p.stamp ∧
    (takeRestore b p).moveJob = p.moveJob ∧ (takeRestore b p).ports = p.ports ∧
    (takeRestore b p).branchSel = p.branchSel ∧ (takeRestore b p).button = p.button ∧
    (takeRestore b p).records = p.records ∧ (takeRestore b p).ring = p.ring ∧
    (takeRestore b p).arbiter = p.arbiter ∧
    (takeRestore b p).hostWait = p.hostWait ∧ (takeRestore b p).hostData = p.hostData ∧
    (takeRestore b p).live = p.live ∧ (takeRestore b p).lastBlocked = p.lastBlocked ∧
    (takeRestore b p).snap = p.snap ∧ (takeRestore b p).draws = p.draws := by
  simp only [takeRestore]; (repeat' split) <;> simp

@[simp] theorem takeRestore_views (b : Branch) (p : Part) :
    (∀ y, (takeRestore b p).port y = p.port y) ∧ (∀ y, (takeRestore b p).branchSetup y = p.branchSetup y) ∧
    (∀ y, (takeRestore b p).printerSetup y = p.printerSetup y) := by
  refine ⟨fun _ => by simp [port], fun _ => by simp [branchSetup], fun _ => by simp [printerSetup]⟩

@[simp] theorem disabledEntry_keeps (b : Branch) (p : Part) :
    (disabledEntry b p).held = p.held ∧ (disabledEntry b p).setup = p.setup ∧
    (disabledEntry b p).loader = p.loader ∧ (disabledEntry b p).units = p.units ∧
    (disabledEntry b p).nodes = p.nodes ∧ (disabledEntry b p).router = p.router ∧
    (disabledEntry b p).copy = p.copy ∧ (disabledEntry b p).stamp = p.stamp ∧
    (disabledEntry b p).moveJob = p.moveJob ∧ (disabledEntry b p).ports = p.ports ∧
    (disabledEntry b p).branchSel = p.branchSel ∧ (disabledEntry b p).button = p.button ∧
    (disabledEntry b p).records = p.records ∧ (disabledEntry b p).ring = p.ring ∧
    (disabledEntry b p).arbiter = p.arbiter ∧
    (disabledEntry b p).hostWait = p.hostWait ∧ (disabledEntry b p).hostData = p.hostData ∧
    (disabledEntry b p).live = p.live ∧ (disabledEntry b p).lastBlocked = p.lastBlocked ∧
    (disabledEntry b p).snap = p.snap ∧ (disabledEntry b p).draws = p.draws := by
  simp only [disabledEntry]; (repeat' split) <;> simp

@[simp] theorem disabledEntry_views (b : Branch) (p : Part) :
    (∀ y, (disabledEntry b p).port y = p.port y) ∧
    (∀ y, (disabledEntry b p).branchSetup y = p.branchSetup y) ∧
    (∀ y, (disabledEntry b p).printerSetup y = p.printerSetup y) := by
  refine ⟨fun _ => by simp [port], fun _ => by simp [branchSetup], fun _ => by simp [printerSetup]⟩

@[simp] theorem faultDisable_keeps (b : Branch) (p : Part) :
    (faultDisable b p).held = p.held ∧ (faultDisable b p).setup = p.setup ∧
    (faultDisable b p).loader = p.loader ∧ (faultDisable b p).units = p.units ∧
    (faultDisable b p).nodes = p.nodes ∧ (faultDisable b p).router = p.router ∧
    (faultDisable b p).copy = p.copy ∧ (faultDisable b p).stamp = p.stamp ∧
    (faultDisable b p).moveJob = p.moveJob ∧ (faultDisable b p).ports = p.ports ∧
    (faultDisable b p).branchSel = p.branchSel ∧ (faultDisable b p).button = p.button ∧
    (faultDisable b p).records = p.records ∧ (faultDisable b p).ring = p.ring ∧
    (faultDisable b p).arbiter = p.arbiter ∧
    (faultDisable b p).hostWait = p.hostWait ∧ (faultDisable b p).hostData = p.hostData ∧
    (faultDisable b p).live = p.live ∧ (faultDisable b p).lastBlocked = p.lastBlocked ∧
    (faultDisable b p).snap = p.snap ∧ (faultDisable b p).draws = p.draws := by
  simp only [faultDisable]; (repeat' split) <;> simp

@[simp] theorem faultDisable_views (b : Branch) (p : Part) :
    (∀ y, (faultDisable b p).port y = p.port y) ∧
    (∀ y, (faultDisable b p).branchSetup y = p.branchSetup y) ∧
    (∀ y, (faultDisable b p).printerSetup y = p.printerSetup y) := by
  refine ⟨fun _ => by simp [port], fun _ => by simp [branchSetup], fun _ => by simp [printerSetup]⟩

@[simp] theorem takeFault_keeps (b : Branch) (p : Part) :
    (takeFault b p).held = p.held ∧ (takeFault b p).setup = p.setup ∧ (takeFault b p).loader = p.loader ∧
    (takeFault b p).units = p.units ∧ (takeFault b p).nodes = p.nodes ∧ (takeFault b p).router = p.router ∧
    (takeFault b p).copy = p.copy ∧ (takeFault b p).stamp = p.stamp ∧ (takeFault b p).moveJob = p.moveJob ∧
    (takeFault b p).ports = p.ports ∧ (takeFault b p).branchSel = p.branchSel ∧
    (takeFault b p).button = p.button ∧ (takeFault b p).records = p.records ∧
    (takeFault b p).ring = p.ring ∧
    (takeFault b p).arbiter = p.arbiter ∧ (takeFault b p).hostWait = p.hostWait ∧
    (takeFault b p).hostData = p.hostData ∧ (takeFault b p).live = p.live ∧
    (takeFault b p).lastBlocked = p.lastBlocked ∧ (takeFault b p).snap = p.snap ∧
    (takeFault b p).draws = p.draws := by
  simp only [takeFault]; (repeat' split) <;> simp

@[simp] theorem takeFault_views (b : Branch) (p : Part) :
    (∀ y, (takeFault b p).port y = p.port y) ∧ (∀ y, (takeFault b p).branchSetup y = p.branchSetup y) ∧
    (∀ y, (takeFault b p).printerSetup y = p.printerSetup y) := by
  refine ⟨fun _ => by simp [port], fun _ => by simp [branchSetup], fun _ => by simp [printerSetup]⟩

@[simp] theorem enableBranch_keeps (b : Branch) (p : Part) :
    (enableBranch b p).held = p.held ∧ (enableBranch b p).setup = p.setup ∧
    (enableBranch b p).loader = p.loader ∧ (enableBranch b p).units = p.units ∧
    (enableBranch b p).nodes = p.nodes ∧ (enableBranch b p).router = p.router ∧
    (enableBranch b p).copy = p.copy ∧ (enableBranch b p).stamp = p.stamp ∧
    (enableBranch b p).moveJob = p.moveJob ∧ (enableBranch b p).ports = p.ports ∧
    (enableBranch b p).branchSel = p.branchSel ∧ (enableBranch b p).button = p.button ∧
    (enableBranch b p).records = p.records ∧ (enableBranch b p).ring = p.ring ∧
    (enableBranch b p).arbiter = p.arbiter ∧
    (enableBranch b p).hostWait = p.hostWait ∧ (enableBranch b p).hostData = p.hostData ∧
    (enableBranch b p).live = p.live ∧ (enableBranch b p).lastBlocked = p.lastBlocked ∧
    (enableBranch b p).snap = p.snap ∧ (enableBranch b p).draws = p.draws := by
  simp only [enableBranch]; (repeat' split) <;> simp

@[simp] theorem enableBranch_views (b : Branch) (p : Part) :
    (∀ y, (enableBranch b p).port y = p.port y) ∧
    (∀ y, (enableBranch b p).branchSetup y = p.branchSetup y) ∧
    (∀ y, (enableBranch b p).printerSetup y = p.printerSetup y) := by
  refine ⟨fun _ => by simp [port], fun _ => by simp [branchSetup], fun _ => by simp [printerSetup]⟩

@[simp] theorem disableBranch_keeps (b : Branch) (p : Part) :
    (disableBranch b p).held = p.held ∧ (disableBranch b p).setup = p.setup ∧
    (disableBranch b p).loader = p.loader ∧ (disableBranch b p).units = p.units ∧
    (disableBranch b p).nodes = p.nodes ∧ (disableBranch b p).router = p.router ∧
    (disableBranch b p).copy = p.copy ∧ (disableBranch b p).stamp = p.stamp ∧
    (disableBranch b p).moveJob = p.moveJob ∧ (disableBranch b p).ports = p.ports ∧
    (disableBranch b p).branchSel = p.branchSel ∧ (disableBranch b p).button = p.button ∧
    (disableBranch b p).records = p.records ∧ (disableBranch b p).ring = p.ring ∧
    (disableBranch b p).arbiter = p.arbiter ∧
    (disableBranch b p).hostWait = p.hostWait ∧ (disableBranch b p).hostData = p.hostData ∧
    (disableBranch b p).live = p.live ∧ (disableBranch b p).lastBlocked = p.lastBlocked ∧
    (disableBranch b p).snap = p.snap ∧ (disableBranch b p).draws = p.draws := by
  simp only [disableBranch]; (repeat' split) <;> simp

@[simp] theorem disableBranch_views (b : Branch) (p : Part) :
    (∀ y, (disableBranch b p).port y = p.port y) ∧
    (∀ y, (disableBranch b p).branchSetup y = p.branchSetup y) ∧
    (∀ y, (disableBranch b p).printerSetup y = p.printerSetup y) := by
  refine ⟨fun _ => by simp [port], fun _ => by simp [branchSetup], fun _ => by simp [printerSetup]⟩

/-! ## The printer ports -/

@[simp] theorem giveUp_keeps (k : Port) (p : Part) :
    (giveUp k p).held = p.held ∧ (giveUp k p).setup = p.setup ∧ (giveUp k p).loader = p.loader ∧
    (giveUp k p).notices = p.notices ∧ (giveUp k p).pool = p.pool ∧ (giveUp k p).stations = p.stations ∧
    (giveUp k p).units = p.units ∧ (giveUp k p).nodes = p.nodes ∧ (giveUp k p).engines = p.engines ∧
    (giveUp k p).paths = p.paths ∧ (giveUp k p).router = p.router ∧ (giveUp k p).toTrunk = p.toTrunk ∧
    (giveUp k p).submit = p.submit ∧ (giveUp k p).copy = p.copy ∧ (giveUp k p).jobs = p.jobs ∧
    (giveUp k p).queues = p.queues ∧ (giveUp k p).stamp = p.stamp ∧ (giveUp k p).moveJob = p.moveJob ∧
    (giveUp k p).sups = p.sups ∧ (giveUp k p).sense = p.sense ∧ (giveUp k p).switches = p.switches ∧
    (giveUp k p).branchSel = p.branchSel ∧ (giveUp k p).button = p.button ∧ (giveUp k p).probe = p.probe ∧
    (giveUp k p).records = p.records ∧ (giveUp k p).writer = p.writer ∧ (giveUp k p).ring = p.ring ∧
    (giveUp k p).arbiter = p.arbiter ∧
    (giveUp k p).hostWait = p.hostWait ∧ (giveUp k p).hostData = p.hostData ∧ (giveUp k p).live = p.live ∧
    (giveUp k p).lastBlocked = p.lastBlocked ∧ (giveUp k p).snap = p.snap ∧ (giveUp k p).draws = p.draws := by
  refine ⟨rfl, rfl, rfl, rfl, rfl, rfl, rfl, rfl, rfl, rfl, rfl, rfl, rfl, rfl, rfl, rfl, rfl, rfl, rfl, rfl,
    rfl, rfl, rfl, rfl, rfl, rfl, rfl, rfl, rfl, rfl, rfl, rfl, rfl, rfl⟩

@[simp] theorem giveUp_views (k : Port) (p : Part) :
    (∀ y, (giveUp k p).engine y = p.engine y) ∧ (∀ y, (giveUp k p).switch y = p.switch y) ∧
    (∀ y, (giveUp k p).sup y = p.sup y) ∧ (∀ y, (giveUp k p).path y = p.path y) ∧
    (∀ y, (giveUp k p).queue y = p.queue y) ∧ (∀ y, (giveUp k p).job y = p.job y) ∧
    (∀ y z, (giveUp k p).station y z = p.station y z) ∧
    (∀ y, (giveUp k p).branchSetup y = p.branchSetup y) ∧
    (∀ y, (giveUp k p).printerSetup y = p.printerSetup y) := by
  refine ⟨fun _ => by simp [engine], fun _ => by simp [switch], fun _ => by simp [sup],
    fun _ => by simp [path], fun _ => by simp [queue], fun _ => by simp [job],
    fun _ _ => by simp [station], fun _ => by simp [branchSetup], fun _ => by simp [printerSetup]⟩

@[simp] theorem reach_keeps (k : Port) (p : Part) :
    (reach k p).held = p.held ∧ (reach k p).setup = p.setup ∧ (reach k p).loader = p.loader ∧
    (reach k p).notices = p.notices ∧ (reach k p).stations = p.stations ∧ (reach k p).units = p.units ∧
    (reach k p).nodes = p.nodes ∧ (reach k p).engines = p.engines ∧ (reach k p).router = p.router ∧
    (reach k p).copy = p.copy ∧ (reach k p).queues = p.queues ∧ (reach k p).stamp = p.stamp ∧
    (reach k p).moveJob = p.moveJob ∧ (reach k p).ports = p.ports ∧ (reach k p).sups = p.sups ∧
    (reach k p).sense = p.sense ∧ (reach k p).switches = p.switches ∧ (reach k p).branchSel = p.branchSel ∧
    (reach k p).button = p.button ∧ (reach k p).probe = p.probe ∧ (reach k p).records = p.records ∧
    (reach k p).ring = p.ring ∧
    (reach k p).arbiter = p.arbiter ∧ (reach k p).hostWait = p.hostWait ∧
    (reach k p).hostData = p.hostData ∧ (reach k p).live = p.live ∧
    (reach k p).lastBlocked = p.lastBlocked ∧ (reach k p).snap = p.snap ∧ (reach k p).draws = p.draws := by
  simp only [reach]; (repeat' split) <;> simp

@[simp] theorem reach_views (k : Port) (p : Part) :
    (∀ y, (reach k p).engine y = p.engine y) ∧ (∀ y, (reach k p).switch y = p.switch y) ∧
    (∀ y, (reach k p).sup y = p.sup y) ∧ (∀ y, (reach k p).port y = p.port y) ∧
    (∀ y, (reach k p).queue y = p.queue y) ∧ (∀ y z, (reach k p).station y z = p.station y z) ∧
    (∀ y, (reach k p).branchSetup y = p.branchSetup y) ∧
    (∀ y, (reach k p).printerSetup y = p.printerSetup y) := by
  refine ⟨fun _ => by simp [engine], fun _ => by simp [switch], fun _ => by simp [sup],
    fun _ => by simp [port], fun _ => by simp [queue], fun _ _ => by simp [station],
    fun _ => by simp [branchSetup], fun _ => by simp [printerSetup]⟩

@[simp] theorem detach_keeps (k : Port) (p : Part) :
    (detach k p).held = p.held ∧ (detach k p).setup = p.setup ∧ (detach k p).loader = p.loader ∧
    (detach k p).notices = p.notices ∧ (detach k p).pool = p.pool ∧ (detach k p).stations = p.stations ∧
    (detach k p).units = p.units ∧ (detach k p).nodes = p.nodes ∧ (detach k p).engines = p.engines ∧
    (detach k p).paths = p.paths ∧ (detach k p).router = p.router ∧ (detach k p).toTrunk = p.toTrunk ∧
    (detach k p).submit = p.submit ∧ (detach k p).copy = p.copy ∧ (detach k p).jobs = p.jobs ∧
    (detach k p).queues = p.queues ∧ (detach k p).stamp = p.stamp ∧ (detach k p).moveJob = p.moveJob ∧
    (detach k p).sups = p.sups ∧ (detach k p).sense = p.sense ∧ (detach k p).switches = p.switches ∧
    (detach k p).branchSel = p.branchSel ∧ (detach k p).button = p.button ∧ (detach k p).probe = p.probe ∧
    (detach k p).records = p.records ∧ (detach k p).writer = p.writer ∧ (detach k p).ring = p.ring ∧
    (detach k p).arbiter = p.arbiter ∧
    (detach k p).hostWait = p.hostWait ∧ (detach k p).hostData = p.hostData ∧ (detach k p).live = p.live ∧
    (detach k p).lastBlocked = p.lastBlocked ∧ (detach k p).snap = p.snap ∧ (detach k p).draws = p.draws := by
  refine ⟨rfl, rfl, rfl, rfl, rfl, rfl, rfl, rfl, rfl, rfl, rfl, rfl, rfl, rfl, rfl, rfl, rfl, rfl, rfl, rfl,
    rfl, rfl, rfl, rfl, rfl, rfl, rfl, rfl, rfl, rfl, rfl, rfl, rfl, rfl⟩

@[simp] theorem detach_views (k : Port) (p : Part) :
    (∀ y, (detach k p).engine y = p.engine y) ∧ (∀ y, (detach k p).switch y = p.switch y) ∧
    (∀ y, (detach k p).sup y = p.sup y) ∧ (∀ y, (detach k p).path y = p.path y) ∧
    (∀ y, (detach k p).queue y = p.queue y) ∧ (∀ y, (detach k p).job y = p.job y) ∧
    (∀ y z, (detach k p).station y z = p.station y z) ∧
    (∀ y, (detach k p).branchSetup y = p.branchSetup y) ∧
    (∀ y, (detach k p).printerSetup y = p.printerSetup y) := by
  refine ⟨fun _ => by simp [engine], fun _ => by simp [switch], fun _ => by simp [sup],
    fun _ => by simp [path], fun _ => by simp [queue], fun _ => by simp [job],
    fun _ _ => by simp [station], fun _ => by simp [branchSetup], fun _ => by simp [printerSetup]⟩

@[simp] theorem enterTrouble_keeps (k : Port) (s t : PortState) (p : Part) :
    (enterTrouble k s t p).held = p.held ∧ (enterTrouble k s t p).setup = p.setup ∧
    (enterTrouble k s t p).loader = p.loader ∧ (enterTrouble k s t p).units = p.units ∧
    (enterTrouble k s t p).nodes = p.nodes ∧ (enterTrouble k s t p).engines = p.engines ∧
    (enterTrouble k s t p).router = p.router ∧ (enterTrouble k s t p).copy = p.copy ∧
    (enterTrouble k s t p).stamp = p.stamp ∧ (enterTrouble k s t p).moveJob = p.moveJob ∧
    (enterTrouble k s t p).sups = p.sups ∧ (enterTrouble k s t p).sense = p.sense ∧
    (enterTrouble k s t p).switches = p.switches ∧ (enterTrouble k s t p).branchSel = p.branchSel ∧
    (enterTrouble k s t p).button = p.button ∧ (enterTrouble k s t p).probe = p.probe ∧
    (enterTrouble k s t p).records = p.records ∧ (enterTrouble k s t p).ring = p.ring ∧
    (enterTrouble k s t p).arbiter = p.arbiter ∧
    (enterTrouble k s t p).hostWait = p.hostWait ∧ (enterTrouble k s t p).hostData = p.hostData ∧
    (enterTrouble k s t p).live = p.live ∧ (enterTrouble k s t p).lastBlocked = p.lastBlocked ∧
    (enterTrouble k s t p).snap = p.snap ∧ (enterTrouble k s t p).draws = p.draws := by
  simp only [enterTrouble]; (repeat' split) <;> simp

@[simp] theorem enterTrouble_views (k : Port) (s t : PortState) (p : Part) :
    (∀ y, (enterTrouble k s t p).engine y = p.engine y) ∧
    (∀ y, (enterTrouble k s t p).switch y = p.switch y) ∧ (∀ y, (enterTrouble k s t p).sup y = p.sup y) ∧
    (∀ y, (enterTrouble k s t p).branchSetup y = p.branchSetup y) ∧
    (∀ y, (enterTrouble k s t p).printerSetup y = p.printerSetup y) := by
  refine ⟨fun _ => by simp [engine], fun _ => by simp [switch], fun _ => by simp [sup],
    fun _ => by simp [branchSetup], fun _ => by simp [printerSetup]⟩

@[simp] theorem enterRunning_keeps (k : Port) (s : PortState) (p : Part) :
    (enterRunning k s p).held = p.held ∧ (enterRunning k s p).setup = p.setup ∧
    (enterRunning k s p).loader = p.loader ∧ (enterRunning k s p).units = p.units ∧
    (enterRunning k s p).nodes = p.nodes ∧ (enterRunning k s p).engines = p.engines ∧
    (enterRunning k s p).router = p.router ∧ (enterRunning k s p).copy = p.copy ∧
    (enterRunning k s p).stamp = p.stamp ∧ (enterRunning k s p).moveJob = p.moveJob ∧
    (enterRunning k s p).sups = p.sups ∧ (enterRunning k s p).sense = p.sense ∧
    (enterRunning k s p).switches = p.switches ∧ (enterRunning k s p).branchSel = p.branchSel ∧
    (enterRunning k s p).button = p.button ∧ (enterRunning k s p).probe = p.probe ∧
    (enterRunning k s p).records = p.records ∧ (enterRunning k s p).ring = p.ring ∧
    (enterRunning k s p).arbiter = p.arbiter ∧
    (enterRunning k s p).hostWait = p.hostWait ∧ (enterRunning k s p).hostData = p.hostData ∧
    (enterRunning k s p).live = p.live ∧ (enterRunning k s p).lastBlocked = p.lastBlocked ∧
    (enterRunning k s p).snap = p.snap ∧ (enterRunning k s p).draws = p.draws := by
  simp only [enterRunning]; (repeat' split) <;> simp

@[simp] theorem enterRunning_views (k : Port) (s : PortState) (p : Part) :
    (∀ y, (enterRunning k s p).engine y = p.engine y) ∧ (∀ y, (enterRunning k s p).switch y = p.switch y) ∧
    (∀ y, (enterRunning k s p).sup y = p.sup y) ∧
    (∀ y, (enterRunning k s p).branchSetup y = p.branchSetup y) ∧
    (∀ y, (enterRunning k s p).printerSetup y = p.printerSetup y) := by
  refine ⟨fun _ => by simp [engine], fun _ => by simp [switch], fun _ => by simp [sup],
    fun _ => by simp [branchSetup], fun _ => by simp [printerSetup]⟩

@[simp] theorem decidePort_keeps (k : Port) (p : Part) :
    (decidePort k p).held = p.held ∧ (decidePort k p).setup = p.setup ∧
    (decidePort k p).loader = p.loader ∧ (decidePort k p).units = p.units ∧
    (decidePort k p).nodes = p.nodes ∧ (decidePort k p).engines = p.engines ∧
    (decidePort k p).router = p.router ∧ (decidePort k p).copy = p.copy ∧
    (decidePort k p).stamp = p.stamp ∧ (decidePort k p).moveJob = p.moveJob ∧
    (decidePort k p).sups = p.sups ∧ (decidePort k p).sense = p.sense ∧
    (decidePort k p).switches = p.switches ∧ (decidePort k p).branchSel = p.branchSel ∧
    (decidePort k p).button = p.button ∧ (decidePort k p).probe = p.probe ∧
    (decidePort k p).records = p.records ∧ (decidePort k p).ring = p.ring ∧
    (decidePort k p).arbiter = p.arbiter ∧
    (decidePort k p).hostWait = p.hostWait ∧ (decidePort k p).hostData = p.hostData ∧
    (decidePort k p).live = p.live ∧ (decidePort k p).lastBlocked = p.lastBlocked ∧
    (decidePort k p).snap = p.snap ∧ (decidePort k p).draws = p.draws := by
  simp only [decidePort]; (repeat' split) <;> simp

@[simp] theorem decidePort_views (k : Port) (p : Part) :
    (∀ y, (decidePort k p).engine y = p.engine y) ∧ (∀ y, (decidePort k p).switch y = p.switch y) ∧
    (∀ y, (decidePort k p).sup y = p.sup y) ∧ (∀ y, (decidePort k p).branchSetup y = p.branchSetup y) ∧
    (∀ y, (decidePort k p).printerSetup y = p.printerSetup y) := by
  refine ⟨fun _ => by simp [engine], fun _ => by simp [switch], fun _ => by simp [sup],
    fun _ => by simp [branchSetup], fun _ => by simp [printerSetup]⟩

@[simp] theorem startLoad_keeps (k : Port) (p : Part) :
    (startLoad k p).held = p.held ∧ (startLoad k p).setup = p.setup ∧ (startLoad k p).loader = p.loader ∧
    (startLoad k p).notices = p.notices ∧ (startLoad k p).pool = p.pool ∧
    (startLoad k p).stations = p.stations ∧ (startLoad k p).units = p.units ∧
    (startLoad k p).nodes = p.nodes ∧ (startLoad k p).engines = p.engines ∧
    (startLoad k p).paths = p.paths ∧ (startLoad k p).router = p.router ∧
    (startLoad k p).toTrunk = p.toTrunk ∧ (startLoad k p).submit = p.submit ∧
    (startLoad k p).copy = p.copy ∧ (startLoad k p).jobs = p.jobs ∧ (startLoad k p).queues = p.queues ∧
    (startLoad k p).stamp = p.stamp ∧ (startLoad k p).moveJob = p.moveJob ∧ (startLoad k p).sups = p.sups ∧
    (startLoad k p).sense = p.sense ∧ (startLoad k p).switches = p.switches ∧
    (startLoad k p).branchSel = p.branchSel ∧ (startLoad k p).button = p.button ∧
    (startLoad k p).probe = p.probe ∧ (startLoad k p).records = p.records ∧
    (startLoad k p).writer = p.writer ∧ (startLoad k p).ring = p.ring ∧
    (startLoad k p).arbiter = p.arbiter ∧
    (startLoad k p).hostWait = p.hostWait ∧ (startLoad k p).hostData = p.hostData ∧
    (startLoad k p).live = p.live ∧ (startLoad k p).lastBlocked = p.lastBlocked ∧
    (startLoad k p).snap = p.snap ∧ (startLoad k p).draws = p.draws := by
  refine ⟨rfl, rfl, rfl, rfl, rfl, rfl, rfl, rfl, rfl, rfl, rfl, rfl, rfl, rfl, rfl, rfl, rfl, rfl, rfl, rfl,
    rfl, rfl, rfl, rfl, rfl, rfl, rfl, rfl, rfl, rfl, rfl, rfl, rfl, rfl⟩

@[simp] theorem startLoad_views (k : Port) (p : Part) :
    (∀ y, (startLoad k p).engine y = p.engine y) ∧ (∀ y, (startLoad k p).switch y = p.switch y) ∧
    (∀ y, (startLoad k p).sup y = p.sup y) ∧ (∀ y, (startLoad k p).path y = p.path y) ∧
    (∀ y, (startLoad k p).queue y = p.queue y) ∧ (∀ y, (startLoad k p).job y = p.job y) ∧
    (∀ y z, (startLoad k p).station y z = p.station y z) ∧
    (∀ y, (startLoad k p).branchSetup y = p.branchSetup y) ∧
    (∀ y, (startLoad k p).printerSetup y = p.printerSetup y) := by
  refine ⟨fun _ => by simp [engine], fun _ => by simp [switch], fun _ => by simp [sup],
    fun _ => by simp [path], fun _ => by simp [queue], fun _ => by simp [job],
    fun _ _ => by simp [station], fun _ => by simp [branchSetup], fun _ => by simp [printerSetup]⟩

@[simp] theorem idleLoad_keeps (k : Port) (p : Part) :
    (idleLoad k p).held = p.held ∧ (idleLoad k p).setup = p.setup ∧ (idleLoad k p).loader = p.loader ∧
    (idleLoad k p).notices = p.notices ∧ (idleLoad k p).pool = p.pool ∧
    (idleLoad k p).stations = p.stations ∧ (idleLoad k p).units = p.units ∧
    (idleLoad k p).nodes = p.nodes ∧ (idleLoad k p).engines = p.engines ∧ (idleLoad k p).paths = p.paths ∧
    (idleLoad k p).router = p.router ∧ (idleLoad k p).toTrunk = p.toTrunk ∧
    (idleLoad k p).submit = p.submit ∧ (idleLoad k p).copy = p.copy ∧ (idleLoad k p).jobs = p.jobs ∧
    (idleLoad k p).queues = p.queues ∧ (idleLoad k p).stamp = p.stamp ∧
    (idleLoad k p).moveJob = p.moveJob ∧ (idleLoad k p).sups = p.sups ∧ (idleLoad k p).sense = p.sense ∧
    (idleLoad k p).switches = p.switches ∧ (idleLoad k p).branchSel = p.branchSel ∧
    (idleLoad k p).button = p.button ∧ (idleLoad k p).probe = p.probe ∧
    (idleLoad k p).records = p.records ∧ (idleLoad k p).writer = p.writer ∧
    (idleLoad k p).ring = p.ring ∧
    (idleLoad k p).arbiter = p.arbiter ∧ (idleLoad k p).hostWait = p.hostWait ∧
    (idleLoad k p).hostData = p.hostData ∧ (idleLoad k p).live = p.live ∧
    (idleLoad k p).lastBlocked = p.lastBlocked ∧ (idleLoad k p).snap = p.snap ∧
    (idleLoad k p).draws = p.draws := by
  simp only [idleLoad]; (repeat' split) <;> simp

@[simp] theorem idleLoad_views (k : Port) (p : Part) :
    (∀ y, (idleLoad k p).engine y = p.engine y) ∧ (∀ y, (idleLoad k p).switch y = p.switch y) ∧
    (∀ y, (idleLoad k p).sup y = p.sup y) ∧ (∀ y, (idleLoad k p).path y = p.path y) ∧
    (∀ y, (idleLoad k p).queue y = p.queue y) ∧ (∀ y, (idleLoad k p).job y = p.job y) ∧
    (∀ y z, (idleLoad k p).station y z = p.station y z) ∧
    (∀ y, (idleLoad k p).branchSetup y = p.branchSetup y) ∧
    (∀ y, (idleLoad k p).printerSetup y = p.printerSetup y) := by
  refine ⟨fun _ => by simp [engine], fun _ => by simp [switch], fun _ => by simp [sup],
    fun _ => by simp [path], fun _ => by simp [queue], fun _ => by simp [job],
    fun _ _ => by simp [station], fun _ => by simp [branchSetup], fun _ => by simp [printerSetup]⟩

@[simp] theorem grantJob_keeps (k : Port) (j : JobNo) (p : Part) :
    (grantJob k j p).held = p.held ∧ (grantJob k j p).setup = p.setup ∧
    (grantJob k j p).loader = p.loader ∧ (grantJob k j p).units = p.units ∧
    (grantJob k j p).nodes = p.nodes ∧ (grantJob k j p).engines = p.engines ∧
    (grantJob k j p).router = p.router ∧ (grantJob k j p).copy = p.copy ∧
    (grantJob k j p).stamp = p.stamp ∧ (grantJob k j p).moveJob = p.moveJob ∧
    (grantJob k j p).sups = p.sups ∧ (grantJob k j p).sense = p.sense ∧
    (grantJob k j p).switches = p.switches ∧ (grantJob k j p).branchSel = p.branchSel ∧
    (grantJob k j p).button = p.button ∧ (grantJob k j p).probe = p.probe ∧
    (grantJob k j p).records = p.records ∧ (grantJob k j p).ring = p.ring ∧
    (grantJob k j p).arbiter = p.arbiter ∧
    (grantJob k j p).hostWait = p.hostWait ∧ (grantJob k j p).hostData = p.hostData ∧
    (grantJob k j p).live = p.live ∧ (grantJob k j p).lastBlocked = p.lastBlocked ∧
    (grantJob k j p).snap = p.snap ∧ (grantJob k j p).draws = p.draws := by
  simp only [grantJob]; (repeat' split) <;> simp

@[simp] theorem grantJob_views (k : Port) (j : JobNo) (p : Part) :
    (∀ y, (grantJob k j p).engine y = p.engine y) ∧ (∀ y, (grantJob k j p).switch y = p.switch y) ∧
    (∀ y, (grantJob k j p).sup y = p.sup y) ∧ (∀ y, (grantJob k j p).branchSetup y = p.branchSetup y) ∧
    (∀ y, (grantJob k j p).printerSetup y = p.printerSetup y) := by
  refine ⟨fun _ => by simp [engine], fun _ => by simp [switch], fun _ => by simp [sup],
    fun _ => by simp [branchSetup], fun _ => by simp [printerSetup]⟩

/-- What every grant decision keeps, the grants of a port keep. -/
theorem grantLoop_keeps_view {β : Type} (view : Part → β) (k : Port)
    (h : ∀ p q, grantOnce k p = some q → view q = view p) (n : Nat) (p : Part) :
    view (grantLoop k n p) = view p := by
  induction n generalizing p with
  | zero => rfl
  | succ n ih =>
    simp only [grantLoop]
    split
    · rfl
    · rename_i q hq
      rw [ih, h p q hq]

theorem grantOnce_keeps (k : Port) (p q : Part) (h : grantOnce k p = some q) :
    q.held = p.held ∧ q.setup = p.setup ∧ q.loader = p.loader ∧ q.units = p.units ∧ q.nodes = p.nodes ∧
    q.engines = p.engines ∧ q.router = p.router ∧ q.copy = p.copy ∧ q.stamp = p.stamp ∧
    q.moveJob = p.moveJob ∧ q.sups = p.sups ∧ q.sense = p.sense ∧ q.switches = p.switches ∧
    q.branchSel = p.branchSel ∧ q.button = p.button ∧ q.probe = p.probe ∧ q.records = p.records ∧
    q.ring = p.ring ∧ q.arbiter = p.arbiter ∧ q.hostWait = p.hostWait ∧ q.hostData = p.hostData ∧ q.live = p.live ∧
    q.lastBlocked = p.lastBlocked ∧ q.snap = p.snap ∧ q.draws = p.draws := by
  simp only [grantOnce] at h
  (repeat' split at h) <;> first | (cases h; done) | (cases h; simp; done) | (cases h; split <;> simp)

@[simp] theorem grantLoop_keeps (k : Port) (n : Nat) (p : Part) :
    (grantLoop k n p).held = p.held ∧ (grantLoop k n p).setup = p.setup ∧
    (grantLoop k n p).loader = p.loader ∧ (grantLoop k n p).units = p.units ∧
    (grantLoop k n p).nodes = p.nodes ∧ (grantLoop k n p).engines = p.engines ∧
    (grantLoop k n p).router = p.router ∧ (grantLoop k n p).copy = p.copy ∧
    (grantLoop k n p).stamp = p.stamp ∧ (grantLoop k n p).moveJob = p.moveJob ∧
    (grantLoop k n p).sups = p.sups ∧ (grantLoop k n p).sense = p.sense ∧
    (grantLoop k n p).switches = p.switches ∧ (grantLoop k n p).branchSel = p.branchSel ∧
    (grantLoop k n p).button = p.button ∧ (grantLoop k n p).probe = p.probe ∧
    (grantLoop k n p).records = p.records ∧ (grantLoop k n p).ring = p.ring ∧
    (grantLoop k n p).arbiter = p.arbiter ∧
    (grantLoop k n p).hostWait = p.hostWait ∧ (grantLoop k n p).hostData = p.hostData ∧
    (grantLoop k n p).live = p.live ∧ (grantLoop k n p).lastBlocked = p.lastBlocked ∧
    (grantLoop k n p).snap = p.snap ∧ (grantLoop k n p).draws = p.draws := by
  refine ⟨grantLoop_keeps_view Part.held k (fun _ _ h => by simp [grantOnce_keeps k _ _ h]) n p,
    grantLoop_keeps_view Part.setup k (fun _ _ h => by simp [grantOnce_keeps k _ _ h]) n p,
    grantLoop_keeps_view Part.loader k (fun _ _ h => by simp [grantOnce_keeps k _ _ h]) n p,
    grantLoop_keeps_view Part.units k (fun _ _ h => by simp [grantOnce_keeps k _ _ h]) n p,
    grantLoop_keeps_view Part.nodes k (fun _ _ h => by simp [grantOnce_keeps k _ _ h]) n p,
    grantLoop_keeps_view Part.engines k (fun _ _ h => by simp [grantOnce_keeps k _ _ h]) n p,
    grantLoop_keeps_view Part.router k (fun _ _ h => by simp [grantOnce_keeps k _ _ h]) n p,
    grantLoop_keeps_view Part.copy k (fun _ _ h => by simp [grantOnce_keeps k _ _ h]) n p,
    grantLoop_keeps_view Part.stamp k (fun _ _ h => by simp [grantOnce_keeps k _ _ h]) n p,
    grantLoop_keeps_view Part.moveJob k (fun _ _ h => by simp [grantOnce_keeps k _ _ h]) n p,
    grantLoop_keeps_view Part.sups k (fun _ _ h => by simp [grantOnce_keeps k _ _ h]) n p,
    grantLoop_keeps_view Part.sense k (fun _ _ h => by simp [grantOnce_keeps k _ _ h]) n p,
    grantLoop_keeps_view Part.switches k (fun _ _ h => by simp [grantOnce_keeps k _ _ h]) n p,
    grantLoop_keeps_view Part.branchSel k (fun _ _ h => by simp [grantOnce_keeps k _ _ h]) n p,
    grantLoop_keeps_view Part.button k (fun _ _ h => by simp [grantOnce_keeps k _ _ h]) n p,
    grantLoop_keeps_view Part.probe k (fun _ _ h => by simp [grantOnce_keeps k _ _ h]) n p,
    grantLoop_keeps_view Part.records k (fun _ _ h => by simp [grantOnce_keeps k _ _ h]) n p,
    grantLoop_keeps_view Part.ring k (fun _ _ h => by simp [grantOnce_keeps k _ _ h]) n p,
    grantLoop_keeps_view Part.arbiter k (fun _ _ h => by simp [grantOnce_keeps k _ _ h]) n p,
    grantLoop_keeps_view Part.hostWait k (fun _ _ h => by simp [grantOnce_keeps k _ _ h]) n p,
    grantLoop_keeps_view Part.hostData k (fun _ _ h => by simp [grantOnce_keeps k _ _ h]) n p,
    grantLoop_keeps_view Part.live k (fun _ _ h => by simp [grantOnce_keeps k _ _ h]) n p,
    grantLoop_keeps_view Part.lastBlocked k (fun _ _ h => by simp [grantOnce_keeps k _ _ h]) n p,
    grantLoop_keeps_view Part.snap k (fun _ _ h => by simp [grantOnce_keeps k _ _ h]) n p,
    grantLoop_keeps_view Part.draws k (fun _ _ h => by simp [grantOnce_keeps k _ _ h]) n p⟩

@[simp] theorem grantLoop_views (k : Port) (n : Nat) (p : Part) :
    (∀ y, (grantLoop k n p).engine y = p.engine y) ∧ (∀ y, (grantLoop k n p).switch y = p.switch y) ∧
    (∀ y, (grantLoop k n p).sup y = p.sup y) ∧ (∀ y, (grantLoop k n p).branchSetup y = p.branchSetup y) ∧
    (∀ y, (grantLoop k n p).printerSetup y = p.printerSetup y) := by
  refine ⟨fun _ => by simp [engine], fun _ => by simp [switch], fun _ => by simp [sup],
    fun _ => by simp [branchSetup], fun _ => by simp [printerSetup]⟩

@[simp] theorem servePort_keeps (k : Port) (p : Part) :
    (servePort k p).held = p.held ∧ (servePort k p).setup = p.setup ∧ (servePort k p).loader = p.loader ∧
    (servePort k p).units = p.units ∧ (servePort k p).nodes = p.nodes ∧
    (servePort k p).engines = p.engines ∧ (servePort k p).router = p.router ∧
    (servePort k p).copy = p.copy ∧ (servePort k p).stamp = p.stamp ∧ (servePort k p).moveJob = p.moveJob ∧
    (servePort k p).sups = p.sups ∧ (servePort k p).sense = p.sense ∧
    (servePort k p).switches = p.switches ∧ (servePort k p).branchSel = p.branchSel ∧
    (servePort k p).button = p.button ∧ (servePort k p).probe = p.probe ∧
    (servePort k p).records = p.records ∧ (servePort k p).ring = p.ring ∧
    (servePort k p).arbiter = p.arbiter ∧
    (servePort k p).hostWait = p.hostWait ∧ (servePort k p).hostData = p.hostData ∧
    (servePort k p).live = p.live ∧ (servePort k p).lastBlocked = p.lastBlocked ∧
    (servePort k p).snap = p.snap ∧ (servePort k p).draws = p.draws := by
  simp only [servePort]; (repeat' split) <;> simp

@[simp] theorem servePort_views (k : Port) (p : Part) :
    (∀ y, (servePort k p).engine y = p.engine y) ∧ (∀ y, (servePort k p).switch y = p.switch y) ∧
    (∀ y, (servePort k p).sup y = p.sup y) ∧ (∀ y, (servePort k p).branchSetup y = p.branchSetup y) ∧
    (∀ y, (servePort k p).printerSetup y = p.printerSetup y) := by
  refine ⟨fun _ => by simp [engine], fun _ => by simp [switch], fun _ => by simp [sup],
    fun _ => by simp [branchSetup], fun _ => by simp [printerSetup]⟩

@[simp] theorem redecide_keeps (k : Port) (p : Part) :
    (redecide k p).held = p.held ∧ (redecide k p).setup = p.setup ∧ (redecide k p).loader = p.loader ∧
    (redecide k p).units = p.units ∧ (redecide k p).nodes = p.nodes ∧ (redecide k p).engines = p.engines ∧
    (redecide k p).router = p.router ∧ (redecide k p).copy = p.copy ∧ (redecide k p).stamp = p.stamp ∧
    (redecide k p).moveJob = p.moveJob ∧ (redecide k p).sups = p.sups ∧ (redecide k p).sense = p.sense ∧
    (redecide k p).switches = p.switches ∧ (redecide k p).branchSel = p.branchSel ∧
    (redecide k p).button = p.button ∧ (redecide k p).probe = p.probe ∧
    (redecide k p).records = p.records ∧ (redecide k p).ring = p.ring ∧
    (redecide k p).arbiter = p.arbiter ∧
    (redecide k p).hostWait = p.hostWait ∧ (redecide k p).hostData = p.hostData ∧
    (redecide k p).live = p.live ∧ (redecide k p).lastBlocked = p.lastBlocked ∧
    (redecide k p).snap = p.snap ∧ (redecide k p).draws = p.draws := by
  simp only [redecide]; (repeat' split) <;> simp

@[simp] theorem redecide_views (k : Port) (p : Part) :
    (∀ y, (redecide k p).engine y = p.engine y) ∧ (∀ y, (redecide k p).switch y = p.switch y) ∧
    (∀ y, (redecide k p).sup y = p.sup y) ∧ (∀ y, (redecide k p).branchSetup y = p.branchSetup y) ∧
    (∀ y, (redecide k p).printerSetup y = p.printerSetup y) := by
  refine ⟨fun _ => by simp [engine], fun _ => by simp [switch], fun _ => by simp [sup],
    fun _ => by simp [branchSetup], fun _ => by simp [printerSetup]⟩

@[simp] theorem joinQueue_keeps (k : Port) (j : JobNo) (p : Part) :
    (joinQueue k j p).held = p.held ∧ (joinQueue k j p).setup = p.setup ∧
    (joinQueue k j p).loader = p.loader ∧ (joinQueue k j p).units = p.units ∧
    (joinQueue k j p).nodes = p.nodes ∧ (joinQueue k j p).engines = p.engines ∧
    (joinQueue k j p).router = p.router ∧ (joinQueue k j p).copy = p.copy ∧
    (joinQueue k j p).stamp = p.stamp ∧ (joinQueue k j p).moveJob = p.moveJob ∧
    (joinQueue k j p).sups = p.sups ∧ (joinQueue k j p).sense = p.sense ∧
    (joinQueue k j p).switches = p.switches ∧ (joinQueue k j p).branchSel = p.branchSel ∧
    (joinQueue k j p).button = p.button ∧ (joinQueue k j p).probe = p.probe ∧
    (joinQueue k j p).records = p.records ∧ (joinQueue k j p).ring = p.ring ∧
    (joinQueue k j p).arbiter = p.arbiter ∧
    (joinQueue k j p).hostWait = p.hostWait ∧ (joinQueue k j p).hostData = p.hostData ∧
    (joinQueue k j p).live = p.live ∧ (joinQueue k j p).lastBlocked = p.lastBlocked ∧
    (joinQueue k j p).snap = p.snap ∧ (joinQueue k j p).draws = p.draws := by
  simp only [joinQueue]; (repeat' split) <;> simp

@[simp] theorem joinQueue_views (k : Port) (j : JobNo) (p : Part) :
    (∀ y, (joinQueue k j p).engine y = p.engine y) ∧ (∀ y, (joinQueue k j p).switch y = p.switch y) ∧
    (∀ y, (joinQueue k j p).sup y = p.sup y) ∧ (∀ y, (joinQueue k j p).branchSetup y = p.branchSetup y) ∧
    (∀ y, (joinQueue k j p).printerSetup y = p.printerSetup y) := by
  refine ⟨fun _ => by simp [engine], fun _ => by simp [switch], fun _ => by simp [sup],
    fun _ => by simp [branchSetup], fun _ => by simp [printerSetup]⟩

@[simp] theorem closeJob_keeps (j : JobNo) (p : Part) :
    (closeJob j p).held = p.held ∧ (closeJob j p).setup = p.setup ∧ (closeJob j p).loader = p.loader ∧
    (closeJob j p).units = p.units ∧ (closeJob j p).nodes = p.nodes ∧ (closeJob j p).engines = p.engines ∧
    (closeJob j p).router = p.router ∧ (closeJob j p).copy = p.copy ∧ (closeJob j p).moveJob = p.moveJob ∧
    (closeJob j p).sups = p.sups ∧ (closeJob j p).sense = p.sense ∧ (closeJob j p).switches = p.switches ∧
    (closeJob j p).branchSel = p.branchSel ∧ (closeJob j p).button = p.button ∧
    (closeJob j p).probe = p.probe ∧ (closeJob j p).records = p.records ∧
    (closeJob j p).ring = p.ring ∧
    (closeJob j p).arbiter = p.arbiter ∧ (closeJob j p).hostWait = p.hostWait ∧
    (closeJob j p).hostData = p.hostData ∧ (closeJob j p).live = p.live ∧
    (closeJob j p).lastBlocked = p.lastBlocked ∧ (closeJob j p).snap = p.snap ∧
    (closeJob j p).draws = p.draws := by
  simp only [closeJob]; (repeat' split) <;> simp

@[simp] theorem closeJob_views (j : JobNo) (p : Part) :
    (∀ y, (closeJob j p).engine y = p.engine y) ∧ (∀ y, (closeJob j p).switch y = p.switch y) ∧
    (∀ y, (closeJob j p).sup y = p.sup y) ∧ (∀ y, (closeJob j p).branchSetup y = p.branchSetup y) ∧
    (∀ y, (closeJob j p).printerSetup y = p.printerSetup y) := by
  refine ⟨fun _ => by simp [engine], fun _ => by simp [switch], fun _ => by simp [sup],
    fun _ => by simp [branchSetup], fun _ => by simp [printerSetup]⟩

@[simp] theorem moveWaiting_keeps (j : JobNo) (k a : Port) (p : Part) :
    (moveWaiting j k a p).held = p.held ∧ (moveWaiting j k a p).setup = p.setup ∧
    (moveWaiting j k a p).loader = p.loader ∧ (moveWaiting j k a p).units = p.units ∧
    (moveWaiting j k a p).nodes = p.nodes ∧ (moveWaiting j k a p).engines = p.engines ∧
    (moveWaiting j k a p).router = p.router ∧ (moveWaiting j k a p).copy = p.copy ∧
    (moveWaiting j k a p).stamp = p.stamp ∧ (moveWaiting j k a p).moveJob = p.moveJob ∧
    (moveWaiting j k a p).sups = p.sups ∧ (moveWaiting j k a p).sense = p.sense ∧
    (moveWaiting j k a p).switches = p.switches ∧ (moveWaiting j k a p).branchSel = p.branchSel ∧
    (moveWaiting j k a p).button = p.button ∧ (moveWaiting j k a p).probe = p.probe ∧
    (moveWaiting j k a p).records = p.records ∧ (moveWaiting j k a p).ring = p.ring ∧
    (moveWaiting j k a p).arbiter = p.arbiter ∧
    (moveWaiting j k a p).hostWait = p.hostWait ∧ (moveWaiting j k a p).hostData = p.hostData ∧
    (moveWaiting j k a p).live = p.live ∧ (moveWaiting j k a p).lastBlocked = p.lastBlocked ∧
    (moveWaiting j k a p).snap = p.snap ∧ (moveWaiting j k a p).draws = p.draws := by
  simp only [moveWaiting]; (repeat' split) <;> simp

@[simp] theorem moveWaiting_views (j : JobNo) (k a : Port) (p : Part) :
    (∀ y, (moveWaiting j k a p).engine y = p.engine y) ∧
    (∀ y, (moveWaiting j k a p).switch y = p.switch y) ∧ (∀ y, (moveWaiting j k a p).sup y = p.sup y) ∧
    (∀ y, (moveWaiting j k a p).branchSetup y = p.branchSetup y) ∧
    (∀ y, (moveWaiting j k a p).printerSetup y = p.printerSetup y) := by
  refine ⟨fun _ => by simp [engine], fun _ => by simp [switch], fun _ => by simp [sup],
    fun _ => by simp [branchSetup], fun _ => by simp [printerSetup]⟩

@[simp] theorem countByte_keeps (k : Port) (j : JobNo) (p : Part) :
    (countByte k j p).held = p.held ∧ (countByte k j p).setup = p.setup ∧
    (countByte k j p).loader = p.loader ∧ (countByte k j p).units = p.units ∧
    (countByte k j p).nodes = p.nodes ∧ (countByte k j p).engines = p.engines ∧
    (countByte k j p).router = p.router ∧ (countByte k j p).copy = p.copy ∧
    (countByte k j p).stamp = p.stamp ∧ (countByte k j p).moveJob = p.moveJob ∧
    (countByte k j p).sups = p.sups ∧ (countByte k j p).sense = p.sense ∧
    (countByte k j p).switches = p.switches ∧ (countByte k j p).branchSel = p.branchSel ∧
    (countByte k j p).button = p.button ∧ (countByte k j p).probe = p.probe ∧
    (countByte k j p).records = p.records ∧ (countByte k j p).ring = p.ring ∧
    (countByte k j p).arbiter = p.arbiter ∧
    (countByte k j p).hostWait = p.hostWait ∧ (countByte k j p).hostData = p.hostData ∧
    (countByte k j p).live = p.live ∧ (countByte k j p).lastBlocked = p.lastBlocked ∧
    (countByte k j p).snap = p.snap ∧ (countByte k j p).draws = p.draws := by
  simp only [countByte]; (repeat' split) <;> simp

@[simp] theorem countByte_views (k : Port) (j : JobNo) (p : Part) :
    (∀ y, (countByte k j p).engine y = p.engine y) ∧ (∀ y, (countByte k j p).switch y = p.switch y) ∧
    (∀ y, (countByte k j p).sup y = p.sup y) ∧ (∀ y, (countByte k j p).branchSetup y = p.branchSetup y) ∧
    (∀ y, (countByte k j p).printerSetup y = p.printerSetup y) := by
  refine ⟨fun _ => by simp [engine], fun _ => by simp [switch], fun _ => by simp [sup],
    fun _ => by simp [branchSetup], fun _ => by simp [printerSetup]⟩

@[simp] theorem countingAck_keeps (k : Port) (j : JobNo) (p : Part) :
    (countingAck k j p).held = p.held ∧ (countingAck k j p).setup = p.setup ∧
    (countingAck k j p).loader = p.loader ∧ (countingAck k j p).units = p.units ∧
    (countingAck k j p).nodes = p.nodes ∧ (countingAck k j p).engines = p.engines ∧
    (countingAck k j p).router = p.router ∧ (countingAck k j p).copy = p.copy ∧
    (countingAck k j p).stamp = p.stamp ∧ (countingAck k j p).moveJob = p.moveJob ∧
    (countingAck k j p).sups = p.sups ∧ (countingAck k j p).sense = p.sense ∧
    (countingAck k j p).switches = p.switches ∧ (countingAck k j p).branchSel = p.branchSel ∧
    (countingAck k j p).button = p.button ∧ (countingAck k j p).probe = p.probe ∧
    (countingAck k j p).records = p.records ∧ (countingAck k j p).ring = p.ring ∧
    (countingAck k j p).arbiter = p.arbiter ∧
    (countingAck k j p).hostWait = p.hostWait ∧ (countingAck k j p).hostData = p.hostData ∧
    (countingAck k j p).live = p.live ∧ (countingAck k j p).lastBlocked = p.lastBlocked ∧
    (countingAck k j p).snap = p.snap ∧ (countingAck k j p).draws = p.draws := by
  simp only [countingAck]; (repeat' split) <;> simp

@[simp] theorem countingAck_views (k : Port) (j : JobNo) (p : Part) :
    (∀ y, (countingAck k j p).engine y = p.engine y) ∧ (∀ y, (countingAck k j p).switch y = p.switch y) ∧
    (∀ y, (countingAck k j p).sup y = p.sup y) ∧
    (∀ y, (countingAck k j p).branchSetup y = p.branchSetup y) ∧
    (∀ y, (countingAck k j p).printerSetup y = p.printerSetup y) := by
  refine ⟨fun _ => by simp [engine], fun _ => by simp [switch], fun _ => by simp [sup],
    fun _ => by simp [branchSetup], fun _ => by simp [printerSetup]⟩

/-- The abandoned-byte mark is a matter of its port alone. -/
@[simp] theorem clearAbandoned_keeps (k : Port) (p : Part) :
    (clearAbandoned k p).held = p.held ∧ (clearAbandoned k p).setup = p.setup ∧
    (clearAbandoned k p).loader = p.loader ∧ (clearAbandoned k p).notices = p.notices ∧
    (clearAbandoned k p).pool = p.pool ∧ (clearAbandoned k p).stations = p.stations ∧
    (clearAbandoned k p).units = p.units ∧ (clearAbandoned k p).nodes = p.nodes ∧
    (clearAbandoned k p).engines = p.engines ∧ (clearAbandoned k p).paths = p.paths ∧
    (clearAbandoned k p).router = p.router ∧ (clearAbandoned k p).toTrunk = p.toTrunk ∧
    (clearAbandoned k p).submit = p.submit ∧ (clearAbandoned k p).copy = p.copy ∧
    (clearAbandoned k p).jobs = p.jobs ∧ (clearAbandoned k p).queues = p.queues ∧
    (clearAbandoned k p).stamp = p.stamp ∧ (clearAbandoned k p).moveJob = p.moveJob ∧
    (clearAbandoned k p).sups = p.sups ∧ (clearAbandoned k p).sense = p.sense ∧
    (clearAbandoned k p).switches = p.switches ∧ (clearAbandoned k p).branchSel = p.branchSel ∧
    (clearAbandoned k p).button = p.button ∧ (clearAbandoned k p).probe = p.probe ∧
    (clearAbandoned k p).records = p.records ∧ (clearAbandoned k p).writer = p.writer ∧
    (clearAbandoned k p).ring = p.ring ∧ (clearAbandoned k p).arbiter = p.arbiter ∧
    (clearAbandoned k p).hostWait = p.hostWait ∧ (clearAbandoned k p).hostData = p.hostData ∧
    (clearAbandoned k p).live = p.live ∧ (clearAbandoned k p).lastBlocked = p.lastBlocked ∧
    (clearAbandoned k p).snap = p.snap ∧ (clearAbandoned k p).draws = p.draws := by
  simp [clearAbandoned]

@[simp] theorem clearAbandoned_views (k : Port) (p : Part) :
    (∀ y, (clearAbandoned k p).engine y = p.engine y) ∧ (∀ y, (clearAbandoned k p).switch y = p.switch y) ∧
    (∀ y, (clearAbandoned k p).sup y = p.sup y) ∧ (∀ y, (clearAbandoned k p).path y = p.path y) ∧
    (∀ y, (clearAbandoned k p).queue y = p.queue y) ∧ (∀ y, (clearAbandoned k p).job y = p.job y) ∧
    (∀ y z, (clearAbandoned k p).station y z = p.station y z) ∧
    (∀ y, (clearAbandoned k p).branchSetup y = p.branchSetup y) ∧
    (∀ y, (clearAbandoned k p).printerSetup y = p.printerSetup y) := by
  refine ⟨fun _ => by simp [engine], fun _ => by simp [switch], fun _ => by simp [sup],
    fun _ => by simp [path], fun _ => by simp [queue], fun _ => by simp [job],
    fun _ _ => by simp [station], fun _ => by simp [branchSetup], fun _ => by simp [printerSetup]⟩

@[simp] theorem abandonedTimeout_keeps (k : Port) (p : Part) :
    (abandonedTimeout k p).held = p.held ∧ (abandonedTimeout k p).setup = p.setup ∧
    (abandonedTimeout k p).loader = p.loader ∧ (abandonedTimeout k p).notices = p.notices ∧
    (abandonedTimeout k p).pool = p.pool ∧ (abandonedTimeout k p).stations = p.stations ∧
    (abandonedTimeout k p).units = p.units ∧ (abandonedTimeout k p).nodes = p.nodes ∧
    (abandonedTimeout k p).engines = p.engines ∧ (abandonedTimeout k p).paths = p.paths ∧
    (abandonedTimeout k p).router = p.router ∧ (abandonedTimeout k p).toTrunk = p.toTrunk ∧
    (abandonedTimeout k p).submit = p.submit ∧ (abandonedTimeout k p).copy = p.copy ∧
    (abandonedTimeout k p).jobs = p.jobs ∧ (abandonedTimeout k p).queues = p.queues ∧
    (abandonedTimeout k p).stamp = p.stamp ∧ (abandonedTimeout k p).moveJob = p.moveJob ∧
    (abandonedTimeout k p).sups = p.sups ∧ (abandonedTimeout k p).sense = p.sense ∧
    (abandonedTimeout k p).switches = p.switches ∧ (abandonedTimeout k p).branchSel = p.branchSel ∧
    (abandonedTimeout k p).button = p.button ∧ (abandonedTimeout k p).probe = p.probe ∧
    (abandonedTimeout k p).records = p.records ∧ (abandonedTimeout k p).writer = p.writer ∧
    (abandonedTimeout k p).ring = p.ring ∧ (abandonedTimeout k p).arbiter = p.arbiter ∧
    (abandonedTimeout k p).hostWait = p.hostWait ∧ (abandonedTimeout k p).hostData = p.hostData ∧
    (abandonedTimeout k p).live = p.live ∧ (abandonedTimeout k p).lastBlocked = p.lastBlocked ∧
    (abandonedTimeout k p).snap = p.snap ∧ (abandonedTimeout k p).draws = p.draws := by
  simp only [abandonedTimeout]; (repeat' split) <;> simp

@[simp] theorem abandonedTimeout_views (k : Port) (p : Part) :
    (∀ y, (abandonedTimeout k p).engine y = p.engine y) ∧
    (∀ y, (abandonedTimeout k p).switch y = p.switch y) ∧ (∀ y, (abandonedTimeout k p).sup y = p.sup y) ∧
    (∀ y, (abandonedTimeout k p).path y = p.path y) ∧ (∀ y, (abandonedTimeout k p).queue y = p.queue y) ∧
    (∀ y, (abandonedTimeout k p).job y = p.job y) ∧
    (∀ y z, (abandonedTimeout k p).station y z = p.station y z) ∧
    (∀ y, (abandonedTimeout k p).branchSetup y = p.branchSetup y) ∧
    (∀ y, (abandonedTimeout k p).printerSetup y = p.printerSetup y) := by
  refine ⟨fun _ => by simp [engine], fun _ => by simp [switch], fun _ => by simp [sup],
    fun _ => by simp [path], fun _ => by simp [queue], fun _ => by simp [job],
    fun _ _ => by simp [station], fun _ => by simp [branchSetup], fun _ => by simp [printerSetup]⟩

@[simp] theorem acknowledge_keeps (k : Port) (p : Part) :
    (acknowledge k p).held = p.held ∧ (acknowledge k p).setup = p.setup ∧
    (acknowledge k p).loader = p.loader ∧ (acknowledge k p).units = p.units ∧
    (acknowledge k p).nodes = p.nodes ∧ (acknowledge k p).engines = p.engines ∧
    (acknowledge k p).router = p.router ∧ (acknowledge k p).copy = p.copy ∧
    (acknowledge k p).stamp = p.stamp ∧ (acknowledge k p).moveJob = p.moveJob ∧
    (acknowledge k p).sups = p.sups ∧ (acknowledge k p).sense = p.sense ∧
    (acknowledge k p).switches = p.switches ∧ (acknowledge k p).branchSel = p.branchSel ∧
    (acknowledge k p).button = p.button ∧ (acknowledge k p).probe = p.probe ∧
    (acknowledge k p).records = p.records ∧ (acknowledge k p).ring = p.ring ∧
    (acknowledge k p).arbiter = p.arbiter ∧
    (acknowledge k p).hostWait = p.hostWait ∧ (acknowledge k p).hostData = p.hostData ∧
    (acknowledge k p).live = p.live ∧ (acknowledge k p).lastBlocked = p.lastBlocked ∧
    (acknowledge k p).snap = p.snap ∧ (acknowledge k p).draws = p.draws := by
  simp only [acknowledge]; (repeat' split) <;> simp

@[simp] theorem acknowledge_views (k : Port) (p : Part) :
    (∀ y, (acknowledge k p).engine y = p.engine y) ∧ (∀ y, (acknowledge k p).switch y = p.switch y) ∧
    (∀ y, (acknowledge k p).sup y = p.sup y) ∧ (∀ y, (acknowledge k p).branchSetup y = p.branchSetup y) ∧
    (∀ y, (acknowledge k p).printerSetup y = p.printerSetup y) := by
  refine ⟨fun _ => by simp [engine], fun _ => by simp [switch], fun _ => by simp [sup],
    fun _ => by simp [branchSetup], fun _ => by simp [printerSetup]⟩

@[simp] theorem conditionChange_keeps (k : Port) (c : PrinterCondition) (on : Bool) (p : Part) :
    (conditionChange k c on p).held = p.held ∧ (conditionChange k c on p).setup = p.setup ∧
    (conditionChange k c on p).loader = p.loader ∧ (conditionChange k c on p).units = p.units ∧
    (conditionChange k c on p).nodes = p.nodes ∧ (conditionChange k c on p).engines = p.engines ∧
    (conditionChange k c on p).router = p.router ∧ (conditionChange k c on p).copy = p.copy ∧
    (conditionChange k c on p).stamp = p.stamp ∧ (conditionChange k c on p).moveJob = p.moveJob ∧
    (conditionChange k c on p).sups = p.sups ∧ (conditionChange k c on p).sense = p.sense ∧
    (conditionChange k c on p).switches = p.switches ∧ (conditionChange k c on p).branchSel = p.branchSel ∧
    (conditionChange k c on p).button = p.button ∧ (conditionChange k c on p).probe = p.probe ∧
    (conditionChange k c on p).records = p.records ∧ (conditionChange k c on p).ring = p.ring ∧
    (conditionChange k c on p).arbiter = p.arbiter ∧
    (conditionChange k c on p).hostWait = p.hostWait ∧ (conditionChange k c on p).hostData = p.hostData ∧
    (conditionChange k c on p).live = p.live ∧ (conditionChange k c on p).lastBlocked = p.lastBlocked ∧
    (conditionChange k c on p).snap = p.snap ∧ (conditionChange k c on p).draws = p.draws := by
  simp only [conditionChange]; (repeat' split) <;> simp

@[simp] theorem conditionChange_views (k : Port) (c : PrinterCondition) (on : Bool) (p : Part) :
    (∀ y, (conditionChange k c on p).engine y = p.engine y) ∧
    (∀ y, (conditionChange k c on p).switch y = p.switch y) ∧
    (∀ y, (conditionChange k c on p).sup y = p.sup y) ∧
    (∀ y, (conditionChange k c on p).branchSetup y = p.branchSetup y) ∧
    (∀ y, (conditionChange k c on p).printerSetup y = p.printerSetup y) := by
  refine ⟨fun _ => by simp [engine], fun _ => by simp [switch], fun _ => by simp [sup],
    fun _ => by simp [branchSetup], fun _ => by simp [printerSetup]⟩

@[simp] theorem presentByte_keeps (k : Port) (p : Part) :
    (presentByte k p).held = p.held ∧ (presentByte k p).setup = p.setup ∧
    (presentByte k p).loader = p.loader ∧ (presentByte k p).notices = p.notices ∧
    (presentByte k p).pool = p.pool ∧ (presentByte k p).stations = p.stations ∧
    (presentByte k p).units = p.units ∧ (presentByte k p).nodes = p.nodes ∧
    (presentByte k p).engines = p.engines ∧ (presentByte k p).paths = p.paths ∧
    (presentByte k p).router = p.router ∧ (presentByte k p).toTrunk = p.toTrunk ∧
    (presentByte k p).submit = p.submit ∧ (presentByte k p).copy = p.copy ∧
    (presentByte k p).jobs = p.jobs ∧ (presentByte k p).queues = p.queues ∧
    (presentByte k p).stamp = p.stamp ∧ (presentByte k p).moveJob = p.moveJob ∧
    (presentByte k p).sups = p.sups ∧ (presentByte k p).sense = p.sense ∧
    (presentByte k p).switches = p.switches ∧ (presentByte k p).branchSel = p.branchSel ∧
    (presentByte k p).button = p.button ∧ (presentByte k p).probe = p.probe ∧
    (presentByte k p).records = p.records ∧ (presentByte k p).writer = p.writer ∧
    (presentByte k p).ring = p.ring ∧
    (presentByte k p).arbiter = p.arbiter ∧ (presentByte k p).hostWait = p.hostWait ∧
    (presentByte k p).hostData = p.hostData ∧ (presentByte k p).live = p.live ∧
    (presentByte k p).lastBlocked = p.lastBlocked ∧ (presentByte k p).snap = p.snap ∧
    (presentByte k p).draws = p.draws := by
  simp only [presentByte]; (repeat' split) <;> simp

@[simp] theorem presentByte_views (k : Port) (p : Part) :
    (∀ y, (presentByte k p).engine y = p.engine y) ∧ (∀ y, (presentByte k p).switch y = p.switch y) ∧
    (∀ y, (presentByte k p).sup y = p.sup y) ∧ (∀ y, (presentByte k p).path y = p.path y) ∧
    (∀ y, (presentByte k p).queue y = p.queue y) ∧ (∀ y, (presentByte k p).job y = p.job y) ∧
    (∀ y z, (presentByte k p).station y z = p.station y z) ∧
    (∀ y, (presentByte k p).branchSetup y = p.branchSetup y) ∧
    (∀ y, (presentByte k p).printerSetup y = p.printerSetup y) := by
  refine ⟨fun _ => by simp [engine], fun _ => by simp [switch], fun _ => by simp [sup],
    fun _ => by simp [path], fun _ => by simp [queue], fun _ => by simp [job],
    fun _ _ => by simp [station], fun _ => by simp [branchSetup], fun _ => by simp [printerSetup]⟩

@[simp] theorem stallExpiry_keeps (k : Port) (p : Part) :
    (stallExpiry k p).held = p.held ∧ (stallExpiry k p).setup = p.setup ∧
    (stallExpiry k p).loader = p.loader ∧ (stallExpiry k p).units = p.units ∧
    (stallExpiry k p).nodes = p.nodes ∧ (stallExpiry k p).engines = p.engines ∧
    (stallExpiry k p).router = p.router ∧ (stallExpiry k p).copy = p.copy ∧
    (stallExpiry k p).stamp = p.stamp ∧ (stallExpiry k p).moveJob = p.moveJob ∧
    (stallExpiry k p).sups = p.sups ∧ (stallExpiry k p).sense = p.sense ∧
    (stallExpiry k p).switches = p.switches ∧ (stallExpiry k p).branchSel = p.branchSel ∧
    (stallExpiry k p).button = p.button ∧ (stallExpiry k p).probe = p.probe ∧
    (stallExpiry k p).records = p.records ∧ (stallExpiry k p).ring = p.ring ∧
    (stallExpiry k p).arbiter = p.arbiter ∧
    (stallExpiry k p).hostWait = p.hostWait ∧ (stallExpiry k p).hostData = p.hostData ∧
    (stallExpiry k p).live = p.live ∧ (stallExpiry k p).lastBlocked = p.lastBlocked ∧
    (stallExpiry k p).snap = p.snap ∧ (stallExpiry k p).draws = p.draws := by
  simp only [stallExpiry]; (repeat' split) <;> simp

@[simp] theorem stallExpiry_views (k : Port) (p : Part) :
    (∀ y, (stallExpiry k p).engine y = p.engine y) ∧ (∀ y, (stallExpiry k p).switch y = p.switch y) ∧
    (∀ y, (stallExpiry k p).sup y = p.sup y) ∧ (∀ y, (stallExpiry k p).branchSetup y = p.branchSetup y) ∧
    (∀ y, (stallExpiry k p).printerSetup y = p.printerSetup y) := by
  refine ⟨fun _ => by simp [engine], fun _ => by simp [switch], fun _ => by simp [sup],
    fun _ => by simp [branchSetup], fun _ => by simp [printerSetup]⟩

@[simp] theorem stallEndBusyLow_keeps (k : Port) (p : Part) :
    (stallEndBusyLow k p).held = p.held ∧ (stallEndBusyLow k p).setup = p.setup ∧
    (stallEndBusyLow k p).loader = p.loader ∧ (stallEndBusyLow k p).units = p.units ∧
    (stallEndBusyLow k p).nodes = p.nodes ∧ (stallEndBusyLow k p).engines = p.engines ∧
    (stallEndBusyLow k p).router = p.router ∧ (stallEndBusyLow k p).copy = p.copy ∧
    (stallEndBusyLow k p).stamp = p.stamp ∧ (stallEndBusyLow k p).moveJob = p.moveJob ∧
    (stallEndBusyLow k p).sups = p.sups ∧ (stallEndBusyLow k p).sense = p.sense ∧
    (stallEndBusyLow k p).switches = p.switches ∧ (stallEndBusyLow k p).branchSel = p.branchSel ∧
    (stallEndBusyLow k p).button = p.button ∧ (stallEndBusyLow k p).probe = p.probe ∧
    (stallEndBusyLow k p).records = p.records ∧ (stallEndBusyLow k p).ring = p.ring ∧
    (stallEndBusyLow k p).arbiter = p.arbiter ∧
    (stallEndBusyLow k p).hostWait = p.hostWait ∧ (stallEndBusyLow k p).hostData = p.hostData ∧
    (stallEndBusyLow k p).live = p.live ∧ (stallEndBusyLow k p).lastBlocked = p.lastBlocked ∧
    (stallEndBusyLow k p).snap = p.snap ∧ (stallEndBusyLow k p).draws = p.draws := by
  simp only [stallEndBusyLow]; (repeat' split) <;> simp

@[simp] theorem stallEndBusyLow_views (k : Port) (p : Part) :
    (∀ y, (stallEndBusyLow k p).engine y = p.engine y) ∧
    (∀ y, (stallEndBusyLow k p).switch y = p.switch y) ∧ (∀ y, (stallEndBusyLow k p).sup y = p.sup y) ∧
    (∀ y, (stallEndBusyLow k p).branchSetup y = p.branchSetup y) ∧
    (∀ y, (stallEndBusyLow k p).printerSetup y = p.printerSetup y) := by
  refine ⟨fun _ => by simp [engine], fun _ => by simp [switch], fun _ => by simp [sup],
    fun _ => by simp [branchSetup], fun _ => by simp [printerSetup]⟩

/-! ## The ring and descriptor requester's reads (R168) -/

@[simp] theorem askReads_ring (u : RingUser) (a n : Nat) (p : Part) :
    (askReads u a n p).ring = p.ring ++ [{ user := u, addr := a, left := n, got := [] }] := rfl

@[simp] theorem askReads_keeps (u : RingUser) (a n : Nat) (p : Part) :
    (askReads u a n p).held = p.held ∧ (askReads u a n p).setup = p.setup ∧
    (askReads u a n p).loader = p.loader ∧ (askReads u a n p).notices = p.notices ∧
    (askReads u a n p).pool = p.pool ∧ (askReads u a n p).stations = p.stations ∧
    (askReads u a n p).units = p.units ∧ (askReads u a n p).nodes = p.nodes ∧
    (askReads u a n p).engines = p.engines ∧ (askReads u a n p).paths = p.paths ∧
    (askReads u a n p).router = p.router ∧ (askReads u a n p).toTrunk = p.toTrunk ∧
    (askReads u a n p).submit = p.submit ∧ (askReads u a n p).copy = p.copy ∧
    (askReads u a n p).jobs = p.jobs ∧ (askReads u a n p).queues = p.queues ∧
    (askReads u a n p).stamp = p.stamp ∧ (askReads u a n p).moveJob = p.moveJob ∧
    (askReads u a n p).ports = p.ports ∧ (askReads u a n p).sups = p.sups ∧
    (askReads u a n p).sense = p.sense ∧ (askReads u a n p).switches = p.switches ∧
    (askReads u a n p).branchSel = p.branchSel ∧ (askReads u a n p).button = p.button ∧
    (askReads u a n p).probe = p.probe ∧ (askReads u a n p).records = p.records ∧
    (askReads u a n p).writer = p.writer ∧ (askReads u a n p).arbiter = p.arbiter ∧
    (askReads u a n p).hostWait = p.hostWait ∧ (askReads u a n p).hostData = p.hostData ∧
    (askReads u a n p).live = p.live ∧ (askReads u a n p).lastBlocked = p.lastBlocked ∧
    (askReads u a n p).snap = p.snap ∧ (askReads u a n p).draws = p.draws := by
  refine ⟨rfl, rfl, rfl, rfl, rfl, rfl, rfl, rfl, rfl, rfl, rfl, rfl, rfl, rfl, rfl, rfl, rfl, rfl, rfl,
    rfl, rfl, rfl, rfl, rfl, rfl, rfl, rfl, rfl, rfl, rfl, rfl, rfl, rfl, rfl⟩

@[simp] theorem askReads_views (u : RingUser) (a n : Nat) (p : Part) :
    (∀ y, (askReads u a n p).engine y = p.engine y) ∧ (∀ y, (askReads u a n p).switch y = p.switch y) ∧
    (∀ y, (askReads u a n p).sup y = p.sup y) ∧ (∀ y, (askReads u a n p).path y = p.path y) ∧
    (∀ y, (askReads u a n p).port y = p.port y) ∧ (∀ y, (askReads u a n p).queue y = p.queue y) ∧
    (∀ y, (askReads u a n p).job y = p.job y) ∧ (∀ y z, (askReads u a n p).station y z = p.station y z) ∧
    (∀ y, (askReads u a n p).branchSetup y = p.branchSetup y) ∧
    (∀ y, (askReads u a n p).printerSetup y = p.printerSetup y) := by
  refine ⟨fun _ => by simp [engine], fun _ => by simp [switch], fun _ => by simp [sup],
    fun _ => by simp [path], fun _ => by simp [port], fun _ => by simp [queue], fun _ => by simp [job],
    fun _ _ => by simp [station], fun _ => by simp [branchSetup], fun _ => by simp [printerSetup]⟩

/-- A write-back asks the image writer for a write, and nothing else. -/
@[simp] theorem writeBack_keeps (e : ImgRecord) (p : Part) :
    (writeBack e p).held = p.held ∧ (writeBack e p).setup = p.setup ∧ (writeBack e p).loader = p.loader ∧
    (writeBack e p).notices = p.notices ∧ (writeBack e p).pool = p.pool ∧
    (writeBack e p).stations = p.stations ∧ (writeBack e p).units = p.units ∧
    (writeBack e p).nodes = p.nodes ∧ (writeBack e p).engines = p.engines ∧
    (writeBack e p).paths = p.paths ∧ (writeBack e p).router = p.router ∧
    (writeBack e p).toTrunk = p.toTrunk ∧ (writeBack e p).submit = p.submit ∧
    (writeBack e p).copy = p.copy ∧ (writeBack e p).jobs = p.jobs ∧ (writeBack e p).queues = p.queues ∧
    (writeBack e p).stamp = p.stamp ∧ (writeBack e p).moveJob = p.moveJob ∧
    (writeBack e p).ports = p.ports ∧ (writeBack e p).sups = p.sups ∧ (writeBack e p).sense = p.sense ∧
    (writeBack e p).switches = p.switches ∧ (writeBack e p).branchSel = p.branchSel ∧
    (writeBack e p).button = p.button ∧ (writeBack e p).probe = p.probe ∧
    (writeBack e p).records = p.records ∧ (writeBack e p).ring = p.ring ∧
    (writeBack e p).arbiter = p.arbiter ∧ (writeBack e p).hostWait = p.hostWait ∧
    (writeBack e p).hostData = p.hostData ∧ (writeBack e p).live = p.live ∧
    (writeBack e p).lastBlocked = p.lastBlocked ∧ (writeBack e p).snap = p.snap ∧
    (writeBack e p).draws = p.draws := by
  simp only [writeBack]; split <;> simp

@[simp] theorem writeBack_views (e : ImgRecord) (p : Part) :
    (∀ y, (writeBack e p).engine y = p.engine y) ∧ (∀ y, (writeBack e p).switch y = p.switch y) ∧
    (∀ y, (writeBack e p).sup y = p.sup y) ∧ (∀ y, (writeBack e p).path y = p.path y) ∧
    (∀ y, (writeBack e p).port y = p.port y) ∧ (∀ y, (writeBack e p).queue y = p.queue y) ∧
    (∀ y, (writeBack e p).job y = p.job y) ∧ (∀ y z, (writeBack e p).station y z = p.station y z) ∧
    (∀ y, (writeBack e p).branchSetup y = p.branchSetup y) ∧
    (∀ y, (writeBack e p).printerSetup y = p.printerSetup y) := by
  refine ⟨fun _ => by simp [engine], fun _ => by simp [switch], fun _ => by simp [sup],
    fun _ => by simp [path], fun _ => by simp [port], fun _ => by simp [queue], fun _ => by simp [job],
    fun _ _ => by simp [station], fun _ => by simp [branchSetup], fun _ => by simp [printerSetup]⟩

/-- Asking for a mark or for fields asks for reads and nothing else. -/
@[simp] theorem ttNext_keeps (p : Part) :
    (ttNext p).held = p.held ∧ (ttNext p).setup = p.setup ∧ (ttNext p).loader = p.loader ∧
    (ttNext p).notices = p.notices ∧ (ttNext p).pool = p.pool ∧ (ttNext p).stations = p.stations ∧
    (ttNext p).units = p.units ∧ (ttNext p).nodes = p.nodes ∧ (ttNext p).engines = p.engines ∧
    (ttNext p).paths = p.paths ∧ (ttNext p).router = p.router ∧ (ttNext p).toTrunk = p.toTrunk ∧
    (ttNext p).submit = p.submit ∧ (ttNext p).copy = p.copy ∧ (ttNext p).jobs = p.jobs ∧
    (ttNext p).queues = p.queues ∧ (ttNext p).stamp = p.stamp ∧ (ttNext p).moveJob = p.moveJob ∧
    (ttNext p).ports = p.ports ∧ (ttNext p).sups = p.sups ∧ (ttNext p).sense = p.sense ∧
    (ttNext p).switches = p.switches ∧ (ttNext p).branchSel = p.branchSel ∧ (ttNext p).button = p.button ∧
    (ttNext p).probe = p.probe ∧ (ttNext p).records = p.records ∧ (ttNext p).writer = p.writer ∧
    (ttNext p).arbiter = p.arbiter ∧ (ttNext p).hostWait = p.hostWait ∧ (ttNext p).hostData = p.hostData ∧
    (ttNext p).live = p.live ∧ (ttNext p).lastBlocked = p.lastBlocked ∧ (ttNext p).snap = p.snap ∧
    (ttNext p).draws = p.draws := by
  refine ⟨rfl, rfl, rfl, rfl, rfl, rfl, rfl, rfl, rfl, rfl, rfl, rfl, rfl, rfl, rfl, rfl, rfl, rfl, rfl,
    rfl, rfl, rfl, rfl, rfl, rfl, rfl, rfl, rfl, rfl, rfl, rfl, rfl, rfl, rfl⟩

@[simp] theorem ttNext_views (p : Part) :
    (∀ y, (ttNext p).engine y = p.engine y) ∧ (∀ y, (ttNext p).switch y = p.switch y) ∧
    (∀ y, (ttNext p).sup y = p.sup y) ∧ (∀ y, (ttNext p).path y = p.path y) ∧
    (∀ y, (ttNext p).port y = p.port y) ∧ (∀ y, (ttNext p).queue y = p.queue y) ∧
    (∀ y, (ttNext p).job y = p.job y) ∧ (∀ y z, (ttNext p).station y z = p.station y z) ∧
    (∀ y, (ttNext p).branchSetup y = p.branchSetup y) ∧ (∀ y, (ttNext p).printerSetup y = p.printerSetup y) := by
  refine ⟨fun _ => by simp [engine], fun _ => by simp [switch], fun _ => by simp [sup],
    fun _ => by simp [path], fun _ => by simp [port], fun _ => by simp [queue], fun _ => by simp [job],
    fun _ _ => by simp [station], fun _ => by simp [branchSetup], fun _ => by simp [printerSetup]⟩

@[simp] theorem ttAskFields_keeps (p : Part) :
    (ttAskFields p).held = p.held ∧ (ttAskFields p).setup = p.setup ∧ (ttAskFields p).loader = p.loader ∧
    (ttAskFields p).notices = p.notices ∧ (ttAskFields p).pool = p.pool ∧
    (ttAskFields p).stations = p.stations ∧ (ttAskFields p).units = p.units ∧
    (ttAskFields p).nodes = p.nodes ∧ (ttAskFields p).engines = p.engines ∧
    (ttAskFields p).paths = p.paths ∧ (ttAskFields p).router = p.router ∧
    (ttAskFields p).toTrunk = p.toTrunk ∧ (ttAskFields p).submit = p.submit ∧
    (ttAskFields p).copy = p.copy ∧ (ttAskFields p).jobs = p.jobs ∧ (ttAskFields p).queues = p.queues ∧
    (ttAskFields p).stamp = p.stamp ∧ (ttAskFields p).moveJob = p.moveJob ∧
    (ttAskFields p).ports = p.ports ∧ (ttAskFields p).sups = p.sups ∧ (ttAskFields p).sense = p.sense ∧
    (ttAskFields p).switches = p.switches ∧ (ttAskFields p).branchSel = p.branchSel ∧
    (ttAskFields p).button = p.button ∧ (ttAskFields p).probe = p.probe ∧
    (ttAskFields p).records = p.records ∧ (ttAskFields p).writer = p.writer ∧
    (ttAskFields p).arbiter = p.arbiter ∧ (ttAskFields p).hostWait = p.hostWait ∧
    (ttAskFields p).hostData = p.hostData ∧ (ttAskFields p).live = p.live ∧
    (ttAskFields p).lastBlocked = p.lastBlocked ∧ (ttAskFields p).snap = p.snap ∧
    (ttAskFields p).draws = p.draws := by
  refine ⟨rfl, rfl, rfl, rfl, rfl, rfl, rfl, rfl, rfl, rfl, rfl, rfl, rfl, rfl, rfl, rfl, rfl, rfl, rfl,
    rfl, rfl, rfl, rfl, rfl, rfl, rfl, rfl, rfl, rfl, rfl, rfl, rfl, rfl, rfl⟩

@[simp] theorem ttAskFields_views (p : Part) :
    (∀ y, (ttAskFields p).engine y = p.engine y) ∧ (∀ y, (ttAskFields p).switch y = p.switch y) ∧
    (∀ y, (ttAskFields p).sup y = p.sup y) ∧ (∀ y, (ttAskFields p).path y = p.path y) ∧
    (∀ y, (ttAskFields p).port y = p.port y) ∧ (∀ y, (ttAskFields p).queue y = p.queue y) ∧
    (∀ y, (ttAskFields p).job y = p.job y) ∧ (∀ y z, (ttAskFields p).station y z = p.station y z) ∧
    (∀ y, (ttAskFields p).branchSetup y = p.branchSetup y) ∧
    (∀ y, (ttAskFields p).printerSetup y = p.printerSetup y) := by
  refine ⟨fun _ => by simp [engine], fun _ => by simp [switch], fun _ => by simp [sup],
    fun _ => by simp [path], fun _ => by simp [port], fun _ => by simp [queue], fun _ => by simp [job],
    fun _ _ => by simp [station], fun _ => by simp [branchSetup], fun _ => by simp [printerSetup]⟩

@[simp] theorem ttAskTarget_keeps (p : Part) :
    (ttAskTarget p).held = p.held ∧ (ttAskTarget p).setup = p.setup ∧ (ttAskTarget p).loader = p.loader ∧
    (ttAskTarget p).notices = p.notices ∧ (ttAskTarget p).pool = p.pool ∧
    (ttAskTarget p).stations = p.stations ∧ (ttAskTarget p).units = p.units ∧
    (ttAskTarget p).nodes = p.nodes ∧ (ttAskTarget p).engines = p.engines ∧
    (ttAskTarget p).paths = p.paths ∧ (ttAskTarget p).router = p.router ∧
    (ttAskTarget p).toTrunk = p.toTrunk ∧ (ttAskTarget p).submit = p.submit ∧
    (ttAskTarget p).copy = p.copy ∧ (ttAskTarget p).jobs = p.jobs ∧ (ttAskTarget p).queues = p.queues ∧
    (ttAskTarget p).stamp = p.stamp ∧ (ttAskTarget p).moveJob = p.moveJob ∧
    (ttAskTarget p).ports = p.ports ∧ (ttAskTarget p).sups = p.sups ∧ (ttAskTarget p).sense = p.sense ∧
    (ttAskTarget p).switches = p.switches ∧ (ttAskTarget p).branchSel = p.branchSel ∧
    (ttAskTarget p).button = p.button ∧ (ttAskTarget p).probe = p.probe ∧
    (ttAskTarget p).records = p.records ∧ (ttAskTarget p).writer = p.writer ∧
    (ttAskTarget p).arbiter = p.arbiter ∧ (ttAskTarget p).hostWait = p.hostWait ∧
    (ttAskTarget p).hostData = p.hostData ∧ (ttAskTarget p).live = p.live ∧
    (ttAskTarget p).lastBlocked = p.lastBlocked ∧ (ttAskTarget p).snap = p.snap ∧
    (ttAskTarget p).draws = p.draws := by
  refine ⟨rfl, rfl, rfl, rfl, rfl, rfl, rfl, rfl, rfl, rfl, rfl, rfl, rfl, rfl, rfl, rfl, rfl, rfl, rfl,
    rfl, rfl, rfl, rfl, rfl, rfl, rfl, rfl, rfl, rfl, rfl, rfl, rfl, rfl, rfl⟩

@[simp] theorem ttAskTarget_views (p : Part) :
    (∀ y, (ttAskTarget p).engine y = p.engine y) ∧ (∀ y, (ttAskTarget p).switch y = p.switch y) ∧
    (∀ y, (ttAskTarget p).sup y = p.sup y) ∧ (∀ y, (ttAskTarget p).path y = p.path y) ∧
    (∀ y, (ttAskTarget p).port y = p.port y) ∧ (∀ y, (ttAskTarget p).queue y = p.queue y) ∧
    (∀ y, (ttAskTarget p).job y = p.job y) ∧ (∀ y z, (ttAskTarget p).station y z = p.station y z) ∧
    (∀ y, (ttAskTarget p).branchSetup y = p.branchSetup y) ∧
    (∀ y, (ttAskTarget p).printerSetup y = p.printerSetup y) := by
  refine ⟨fun _ => by simp [engine], fun _ => by simp [switch], fun _ => by simp [sup],
    fun _ => by simp [path], fun _ => by simp [port], fun _ => by simp [queue], fun _ => by simp [job],
    fun _ _ => by simp [station], fun _ => by simp [branchSetup], fun _ => by simp [printerSetup]⟩

@[simp] theorem subNext_keeps (p : Part) :
    (subNext p).held = p.held ∧ (subNext p).setup = p.setup ∧ (subNext p).loader = p.loader ∧
    (subNext p).notices = p.notices ∧ (subNext p).pool = p.pool ∧ (subNext p).stations = p.stations ∧
    (subNext p).units = p.units ∧ (subNext p).nodes = p.nodes ∧ (subNext p).engines = p.engines ∧
    (subNext p).paths = p.paths ∧ (subNext p).router = p.router ∧ (subNext p).toTrunk = p.toTrunk ∧
    (subNext p).submit = p.submit ∧ (subNext p).copy = p.copy ∧ (subNext p).jobs = p.jobs ∧
    (subNext p).queues = p.queues ∧ (subNext p).stamp = p.stamp ∧ (subNext p).moveJob = p.moveJob ∧
    (subNext p).ports = p.ports ∧ (subNext p).sups = p.sups ∧ (subNext p).sense = p.sense ∧
    (subNext p).switches = p.switches ∧ (subNext p).branchSel = p.branchSel ∧
    (subNext p).button = p.button ∧ (subNext p).probe = p.probe ∧ (subNext p).records = p.records ∧
    (subNext p).writer = p.writer ∧ (subNext p).arbiter = p.arbiter ∧ (subNext p).hostWait = p.hostWait ∧
    (subNext p).hostData = p.hostData ∧ (subNext p).live = p.live ∧
    (subNext p).lastBlocked = p.lastBlocked ∧ (subNext p).snap = p.snap ∧ (subNext p).draws = p.draws := by
  refine ⟨rfl, rfl, rfl, rfl, rfl, rfl, rfl, rfl, rfl, rfl, rfl, rfl, rfl, rfl, rfl, rfl, rfl, rfl, rfl,
    rfl, rfl, rfl, rfl, rfl, rfl, rfl, rfl, rfl, rfl, rfl, rfl, rfl, rfl, rfl⟩

@[simp] theorem subNext_views (p : Part) :
    (∀ y, (subNext p).engine y = p.engine y) ∧ (∀ y, (subNext p).switch y = p.switch y) ∧
    (∀ y, (subNext p).sup y = p.sup y) ∧ (∀ y, (subNext p).path y = p.path y) ∧
    (∀ y, (subNext p).port y = p.port y) ∧ (∀ y, (subNext p).queue y = p.queue y) ∧
    (∀ y, (subNext p).job y = p.job y) ∧ (∀ y z, (subNext p).station y z = p.station y z) ∧
    (∀ y, (subNext p).branchSetup y = p.branchSetup y) ∧
    (∀ y, (subNext p).printerSetup y = p.printerSetup y) := by
  refine ⟨fun _ => by simp [engine], fun _ => by simp [switch], fun _ => by simp [sup],
    fun _ => by simp [path], fun _ => by simp [port], fun _ => by simp [queue], fun _ => by simp [job],
    fun _ _ => by simp [station], fun _ => by simp [branchSetup], fun _ => by simp [printerSetup]⟩

/-- A slot that has passed its checks changes the walk alone (R70, R71). -/
@[simp] theorem ttWant_keeps (t : Branch × StationNo) (l : List Byte) (p : Part) :
    (ttWant t l p).held = p.held ∧ (ttWant t l p).setup = p.setup ∧ (ttWant t l p).loader = p.loader ∧
    (ttWant t l p).notices = p.notices ∧ (ttWant t l p).pool = p.pool ∧
    (ttWant t l p).stations = p.stations ∧ (ttWant t l p).units = p.units ∧
    (ttWant t l p).nodes = p.nodes ∧ (ttWant t l p).engines = p.engines ∧ (ttWant t l p).paths = p.paths ∧
    (ttWant t l p).router = p.router ∧ (ttWant t l p).submit = p.submit ∧ (ttWant t l p).copy = p.copy ∧
    (ttWant t l p).jobs = p.jobs ∧ (ttWant t l p).queues = p.queues ∧ (ttWant t l p).stamp = p.stamp ∧
    (ttWant t l p).moveJob = p.moveJob ∧ (ttWant t l p).ports = p.ports ∧ (ttWant t l p).sups = p.sups ∧
    (ttWant t l p).sense = p.sense ∧ (ttWant t l p).switches = p.switches ∧
    (ttWant t l p).branchSel = p.branchSel ∧ (ttWant t l p).button = p.button ∧
    (ttWant t l p).probe = p.probe ∧ (ttWant t l p).records = p.records ∧
    (ttWant t l p).writer = p.writer ∧ (ttWant t l p).ring = p.ring ∧ (ttWant t l p).arbiter = p.arbiter ∧
    (ttWant t l p).hostWait = p.hostWait ∧ (ttWant t l p).hostData = p.hostData ∧
    (ttWant t l p).live = p.live ∧ (ttWant t l p).lastBlocked = p.lastBlocked ∧
    (ttWant t l p).snap = p.snap ∧ (ttWant t l p).draws = p.draws := by
  simp only [ttWant]; split <;> simp

@[simp] theorem ttWant_views (t : Branch × StationNo) (l : List Byte) (p : Part) :
    (∀ y, (ttWant t l p).engine y = p.engine y) ∧ (∀ y, (ttWant t l p).switch y = p.switch y) ∧
    (∀ y, (ttWant t l p).sup y = p.sup y) ∧ (∀ y, (ttWant t l p).path y = p.path y) ∧
    (∀ y, (ttWant t l p).port y = p.port y) ∧ (∀ y, (ttWant t l p).queue y = p.queue y) ∧
    (∀ y, (ttWant t l p).job y = p.job y) ∧ (∀ y z, (ttWant t l p).station y z = p.station y z) ∧
    (∀ y, (ttWant t l p).branchSetup y = p.branchSetup y) ∧
    (∀ y, (ttWant t l p).printerSetup y = p.printerSetup y) := by
  refine ⟨fun _ => by simp [engine], fun _ => by simp [switch], fun _ => by simp [sup],
    fun _ => by simp [path], fun _ => by simp [port], fun _ => by simp [queue], fun _ => by simp [job],
    fun _ _ => by simp [station], fun _ => by simp [branchSetup], fun _ => by simp [printerSetup]⟩

/-- A mark that has been read changes the walk and what it asks for (R68). -/
@[simp] theorem ttMark_keeps (v : Byte) (p : Part) :
    (ttMark v p).held = p.held ∧ (ttMark v p).setup = p.setup ∧ (ttMark v p).loader = p.loader ∧
    (ttMark v p).notices = p.notices ∧ (ttMark v p).pool = p.pool ∧ (ttMark v p).stations = p.stations ∧
    (ttMark v p).units = p.units ∧ (ttMark v p).nodes = p.nodes ∧ (ttMark v p).engines = p.engines ∧
    (ttMark v p).paths = p.paths ∧ (ttMark v p).router = p.router ∧ (ttMark v p).submit = p.submit ∧
    (ttMark v p).copy = p.copy ∧ (ttMark v p).jobs = p.jobs ∧ (ttMark v p).queues = p.queues ∧
    (ttMark v p).stamp = p.stamp ∧ (ttMark v p).moveJob = p.moveJob ∧ (ttMark v p).ports = p.ports ∧
    (ttMark v p).sups = p.sups ∧ (ttMark v p).sense = p.sense ∧ (ttMark v p).switches = p.switches ∧
    (ttMark v p).branchSel = p.branchSel ∧ (ttMark v p).button = p.button ∧ (ttMark v p).probe = p.probe ∧
    (ttMark v p).records = p.records ∧ (ttMark v p).writer = p.writer ∧ (ttMark v p).arbiter = p.arbiter ∧
    (ttMark v p).hostWait = p.hostWait ∧ (ttMark v p).hostData = p.hostData ∧ (ttMark v p).live = p.live ∧
    (ttMark v p).lastBlocked = p.lastBlocked ∧ (ttMark v p).snap = p.snap ∧ (ttMark v p).draws = p.draws := by
  simp only [ttMark]; (repeat' split) <;> simp

@[simp] theorem ttMark_views (v : Byte) (p : Part) :
    (∀ y, (ttMark v p).engine y = p.engine y) ∧ (∀ y, (ttMark v p).switch y = p.switch y) ∧
    (∀ y, (ttMark v p).sup y = p.sup y) ∧ (∀ y, (ttMark v p).path y = p.path y) ∧
    (∀ y, (ttMark v p).port y = p.port y) ∧ (∀ y, (ttMark v p).queue y = p.queue y) ∧
    (∀ y, (ttMark v p).job y = p.job y) ∧ (∀ y z, (ttMark v p).station y z = p.station y z) ∧
    (∀ y, (ttMark v p).branchSetup y = p.branchSetup y) ∧
    (∀ y, (ttMark v p).printerSetup y = p.printerSetup y) := by
  refine ⟨fun _ => by simp [engine], fun _ => by simp [switch], fun _ => by simp [sup],
    fun _ => by simp [path], fun _ => by simp [port], fun _ => by simp [queue], fun _ => by simp [job],
    fun _ _ => by simp [station], fun _ => by simp [branchSetup], fun _ => by simp [printerSetup]⟩

@[simp] theorem subMark_keeps (v : Byte) (p : Part) :
    (subMark v p).held = p.held ∧ (subMark v p).setup = p.setup ∧ (subMark v p).loader = p.loader ∧
    (subMark v p).notices = p.notices ∧ (subMark v p).pool = p.pool ∧ (subMark v p).stations = p.stations ∧
    (subMark v p).units = p.units ∧ (subMark v p).nodes = p.nodes ∧ (subMark v p).engines = p.engines ∧
    (subMark v p).paths = p.paths ∧ (subMark v p).router = p.router ∧ (subMark v p).toTrunk = p.toTrunk ∧
    (subMark v p).copy = p.copy ∧ (subMark v p).jobs = p.jobs ∧ (subMark v p).queues = p.queues ∧
    (subMark v p).stamp = p.stamp ∧ (subMark v p).moveJob = p.moveJob ∧ (subMark v p).ports = p.ports ∧
    (subMark v p).sups = p.sups ∧ (subMark v p).sense = p.sense ∧ (subMark v p).switches = p.switches ∧
    (subMark v p).branchSel = p.branchSel ∧ (subMark v p).button = p.button ∧
    (subMark v p).probe = p.probe ∧ (subMark v p).records = p.records ∧ (subMark v p).writer = p.writer ∧
    (subMark v p).arbiter = p.arbiter ∧ (subMark v p).hostWait = p.hostWait ∧
    (subMark v p).hostData = p.hostData ∧ (subMark v p).live = p.live ∧
    (subMark v p).lastBlocked = p.lastBlocked ∧ (subMark v p).snap = p.snap ∧ (subMark v p).draws = p.draws := by
  simp only [subMark]; (repeat' split) <;> simp

@[simp] theorem subMark_views (v : Byte) (p : Part) :
    (∀ y, (subMark v p).engine y = p.engine y) ∧ (∀ y, (subMark v p).switch y = p.switch y) ∧
    (∀ y, (subMark v p).sup y = p.sup y) ∧ (∀ y, (subMark v p).path y = p.path y) ∧
    (∀ y, (subMark v p).port y = p.port y) ∧ (∀ y, (subMark v p).queue y = p.queue y) ∧
    (∀ y, (subMark v p).job y = p.job y) ∧ (∀ y z, (subMark v p).station y z = p.station y z) ∧
    (∀ y, (subMark v p).branchSetup y = p.branchSetup y) ∧
    (∀ y, (subMark v p).printerSetup y = p.printerSetup y) := by
  refine ⟨fun _ => by simp [engine], fun _ => by simp [switch], fun _ => by simp [sup],
    fun _ => by simp [path], fun _ => by simp [port], fun _ => by simp [queue], fun _ => by simp [job],
    fun _ _ => by simp [station], fun _ => by simp [branchSetup], fun _ => by simp [printerSetup]⟩

/-- A write of the copy engine changes the copy and, with the last byte, what the to-trunk walk asks for. -/
@[simp] theorem copyWritten_keeps (d : Copy) (p : Part) :
    (copyWritten d p).held = p.held ∧ (copyWritten d p).setup = p.setup ∧
    (copyWritten d p).loader = p.loader ∧ (copyWritten d p).notices = p.notices ∧
    (copyWritten d p).pool = p.pool ∧ (copyWritten d p).stations = p.stations ∧
    (copyWritten d p).units = p.units ∧ (copyWritten d p).nodes = p.nodes ∧
    (copyWritten d p).engines = p.engines ∧ (copyWritten d p).paths = p.paths ∧
    (copyWritten d p).router = p.router ∧ (copyWritten d p).toTrunk = p.toTrunk ∧
    (copyWritten d p).submit = p.submit ∧ (copyWritten d p).jobs = p.jobs ∧
    (copyWritten d p).queues = p.queues ∧ (copyWritten d p).stamp = p.stamp ∧
    (copyWritten d p).moveJob = p.moveJob ∧ (copyWritten d p).ports = p.ports ∧
    (copyWritten d p).sups = p.sups ∧ (copyWritten d p).sense = p.sense ∧
    (copyWritten d p).switches = p.switches ∧ (copyWritten d p).branchSel = p.branchSel ∧
    (copyWritten d p).button = p.button ∧ (copyWritten d p).probe = p.probe ∧
    (copyWritten d p).records = p.records ∧ (copyWritten d p).writer = p.writer ∧
    (copyWritten d p).arbiter = p.arbiter ∧ (copyWritten d p).hostWait = p.hostWait ∧
    (copyWritten d p).hostData = p.hostData ∧ (copyWritten d p).live = p.live ∧
    (copyWritten d p).lastBlocked = p.lastBlocked ∧ (copyWritten d p).snap = p.snap ∧
    (copyWritten d p).draws = p.draws := by
  simp only [copyWritten]; split <;> simp

@[simp] theorem copyWritten_views (d : Copy) (p : Part) :
    (∀ y, (copyWritten d p).engine y = p.engine y) ∧ (∀ y, (copyWritten d p).switch y = p.switch y) ∧
    (∀ y, (copyWritten d p).sup y = p.sup y) ∧ (∀ y, (copyWritten d p).path y = p.path y) ∧
    (∀ y, (copyWritten d p).port y = p.port y) ∧ (∀ y, (copyWritten d p).queue y = p.queue y) ∧
    (∀ y, (copyWritten d p).job y = p.job y) ∧ (∀ y z, (copyWritten d p).station y z = p.station y z) ∧
    (∀ y, (copyWritten d p).branchSetup y = p.branchSetup y) ∧
    (∀ y, (copyWritten d p).printerSetup y = p.printerSetup y) := by
  refine ⟨fun _ => by simp [engine], fun _ => by simp [switch], fun _ => by simp [sup],
    fun _ => by simp [path], fun _ => by simp [port], fun _ => by simp [queue], fun _ => by simp [job],
    fun _ _ => by simp [station], fun _ => by simp [branchSetup], fun _ => by simp [printerSetup]⟩

/-- A verdict that is sent changes its engine alone (R16). -/
@[simp] theorem sendVerdict_keeps (o : Offer) (v : RouterVerdict) (p : Part) :
    (sendVerdict o v p).held = p.held ∧ (sendVerdict o v p).setup = p.setup ∧
    (sendVerdict o v p).loader = p.loader ∧ (sendVerdict o v p).notices = p.notices ∧
    (sendVerdict o v p).pool = p.pool ∧ (sendVerdict o v p).stations = p.stations ∧
    (sendVerdict o v p).units = p.units ∧ (sendVerdict o v p).nodes = p.nodes ∧
    (sendVerdict o v p).paths = p.paths ∧ (sendVerdict o v p).router = p.router ∧
    (sendVerdict o v p).toTrunk = p.toTrunk ∧ (sendVerdict o v p).submit = p.submit ∧
    (sendVerdict o v p).copy = p.copy ∧ (sendVerdict o v p).jobs = p.jobs ∧
    (sendVerdict o v p).queues = p.queues ∧ (sendVerdict o v p).stamp = p.stamp ∧
    (sendVerdict o v p).moveJob = p.moveJob ∧ (sendVerdict o v p).ports = p.ports ∧
    (sendVerdict o v p).sups = p.sups ∧ (sendVerdict o v p).sense = p.sense ∧
    (sendVerdict o v p).switches = p.switches ∧ (sendVerdict o v p).branchSel = p.branchSel ∧
    (sendVerdict o v p).button = p.button ∧ (sendVerdict o v p).probe = p.probe ∧
    (sendVerdict o v p).records = p.records ∧ (sendVerdict o v p).writer = p.writer ∧
    (sendVerdict o v p).ring = p.ring ∧ (sendVerdict o v p).arbiter = p.arbiter ∧
    (sendVerdict o v p).hostWait = p.hostWait ∧ (sendVerdict o v p).hostData = p.hostData ∧
    (sendVerdict o v p).live = p.live ∧ (sendVerdict o v p).lastBlocked = p.lastBlocked ∧
    (sendVerdict o v p).snap = p.snap ∧ (sendVerdict o v p).draws = p.draws := by
  refine ⟨rfl, rfl, rfl, rfl, rfl, rfl, rfl, rfl, rfl, rfl, rfl, rfl, rfl, rfl, rfl, rfl, rfl, rfl, rfl,
    rfl, rfl, rfl, rfl, rfl, rfl, rfl, rfl, rfl, rfl, rfl, rfl, rfl, rfl, rfl⟩

@[simp] theorem sendVerdict_views (o : Offer) (v : RouterVerdict) (p : Part) :
    (∀ y, (sendVerdict o v p).switch y = p.switch y) ∧ (∀ y, (sendVerdict o v p).sup y = p.sup y) ∧
    (∀ y, (sendVerdict o v p).path y = p.path y) ∧ (∀ y, (sendVerdict o v p).port y = p.port y) ∧
    (∀ y, (sendVerdict o v p).queue y = p.queue y) ∧ (∀ y, (sendVerdict o v p).job y = p.job y) ∧
    (∀ y z, (sendVerdict o v p).station y z = p.station y z) ∧
    (∀ y, (sendVerdict o v p).branchSetup y = p.branchSetup y) ∧
    (∀ y, (sendVerdict o v p).printerSetup y = p.printerSetup y) := by
  refine ⟨fun _ => by simp [switch], fun _ => by simp [sup], fun _ => by simp [path],
    fun _ => by simp [port], fun _ => by simp [queue], fun _ => by simp [job],
    fun _ _ => by simp [station], fun _ => by simp [branchSetup], fun _ => by simp [printerSetup]⟩

/-- A memory cycle of the ring and descriptor requester writes nothing. -/
@[simp] theorem ringServe_mem (f : RingRead → Bool) (x : Part × List Host.Cell) : (ringServe f x).2 = x.2 := by
  simp only [ringServe]; split <;> rfl

@[simp] theorem ringCycle_mem (x : Part × List Host.Cell) : (ringCycle x).2 = x.2 := by
  simp only [ringCycle]; (repeat' split) <;> simp

/-- One byte of a read that has more to read: the byte is kept, and the user goes behind the others. -/
theorem ringServe_more (f : RingRead → Bool) (p : Part) (m : List Host.Cell) (r : RingRead)
    (h : p.ring.find? f = some r) (hl : 1 < r.left) :
    ringServe f (p, m) = (modRing (readsAfter r (Mem.read m (readAddr r p))) p, m) := by
  have : ¬ r.left ≤ 1 := by omega
  simp [ringServe, h, this]

/-- The last byte of a read: its user has the bytes and goes on. -/
theorem ringServe_last (f : RingRead → Bool) (p : Part) (m : List Host.Cell) (r : RingRead)
    (h : p.ring.find? f = some r) (hl : r.left ≤ 1) :
    ringServe f (p, m) =
      (readDone r.user (r.got ++ [Mem.read m (readAddr r p)])
        (modRing (readsAfter r (Mem.read m (readAddr r p))) p), m) := by
  simp [ringServe, h, hl]

/-- With one read asked for, nothing but it stands after its byte. -/
theorem readsAfter_single (r : RingRead) (v : Byte) :
    readsAfter r v [r] = if r.left ≤ 1 then []
      else [{ r with addr := r.addr + 1, left := r.left - 1, got := r.got ++ [v] }] := by
  simp [readsAfter]

@[simp] theorem byteFetched_keeps (k : Port) (v : Byte) (p : Part) :
    (byteFetched k v p).held = p.held ∧ (byteFetched k v p).setup = p.setup ∧
    (byteFetched k v p).loader = p.loader ∧ (byteFetched k v p).notices = p.notices ∧
    (byteFetched k v p).pool = p.pool ∧ (byteFetched k v p).stations = p.stations ∧
    (byteFetched k v p).units = p.units ∧ (byteFetched k v p).nodes = p.nodes ∧
    (byteFetched k v p).engines = p.engines ∧ (byteFetched k v p).paths = p.paths ∧
    (byteFetched k v p).router = p.router ∧ (byteFetched k v p).toTrunk = p.toTrunk ∧
    (byteFetched k v p).submit = p.submit ∧ (byteFetched k v p).copy = p.copy ∧
    (byteFetched k v p).jobs = p.jobs ∧ (byteFetched k v p).queues = p.queues ∧
    (byteFetched k v p).stamp = p.stamp ∧ (byteFetched k v p).moveJob = p.moveJob ∧
    (byteFetched k v p).sups = p.sups ∧ (byteFetched k v p).sense = p.sense ∧
    (byteFetched k v p).switches = p.switches ∧ (byteFetched k v p).branchSel = p.branchSel ∧
    (byteFetched k v p).button = p.button ∧ (byteFetched k v p).probe = p.probe ∧
    (byteFetched k v p).records = p.records ∧ (byteFetched k v p).writer = p.writer ∧
    (byteFetched k v p).ring = p.ring ∧ (byteFetched k v p).arbiter = p.arbiter ∧
    (byteFetched k v p).hostWait = p.hostWait ∧ (byteFetched k v p).hostData = p.hostData ∧
    (byteFetched k v p).live = p.live ∧ (byteFetched k v p).lastBlocked = p.lastBlocked ∧
    (byteFetched k v p).snap = p.snap ∧ (byteFetched k v p).draws = p.draws := by
  simp only [byteFetched]; split <;> simp

@[simp] theorem byteFetched_views (k : Port) (v : Byte) (p : Part) :
    (∀ y, (byteFetched k v p).engine y = p.engine y) ∧ (∀ y, (byteFetched k v p).switch y = p.switch y) ∧
    (∀ y, (byteFetched k v p).sup y = p.sup y) ∧ (∀ y, (byteFetched k v p).path y = p.path y) ∧
    (∀ y, (byteFetched k v p).queue y = p.queue y) ∧ (∀ y, (byteFetched k v p).job y = p.job y) ∧
    (∀ y z, (byteFetched k v p).station y z = p.station y z) ∧
    (∀ y, (byteFetched k v p).branchSetup y = p.branchSetup y) ∧
    (∀ y, (byteFetched k v p).printerSetup y = p.printerSetup y) := by
  refine ⟨fun _ => by simp [engine], fun _ => by simp [switch], fun _ => by simp [sup],
    fun _ => by simp [path], fun _ => by simp [queue], fun _ => by simp [job],
    fun _ _ => by simp [station], fun _ => by simp [branchSetup], fun _ => by simp [printerSetup]⟩

/-- What the port of an abandoned byte is after the 1 ms (R102 step 4). -/
theorem abandonedTimeout_port (k : Port) (p : Part) :
    (abandonedTimeout k p).port k =
      if !(p.port k).abandoned then p.port k
      else if atStepFour (p.port k) then { p.port k with abandoned := false, overdue := false }
      else { p.port k with overdue := true } := by
  simp only [abandonedTimeout]
  (repeat' split) <;> simp_all [clearAbandoned]

/-- What a port is once its reader has its byte (R102 steps 3 and 4). -/
theorem byteFetched_port (k : Port) (v : Byte) (p : Part) :
    (byteFetched k v p).port k =
      if (p.port k).overdue then { p.port k with fetched := some v, abandoned := false, overdue := false }
      else { p.port k with fetched := some v } := by
  simp only [byteFetched]
  split <;> simp_all [clearAbandoned]

/-- The clean-round flag is set again by each end of round (R130). -/
theorem creditRound_clean (b : Branch) (p : Part) : ((creditRound b p).sup b).clean = true := by
  simp [creditRound]

/-- The score after an end of round (R130). -/
theorem creditRound_score (b : Branch) (p : Part) :
    ((creditRound b p).sup b).score =
      if (p.sup b).clean then (p.sup b).score - (p.branchSetup b).c else (p.sup b).score := by
  simp only [creditRound, warnTest]
  (repeat' split) <;> simp_all

/-- What a receive path still has to do once a buffer is freed (R81, R168). -/
theorem path_withdraw (buf : BufNo) (p : Part) (b : Branch) :
    (withdraw buf p).path b = (p.path b).filterMap (PathOp.afterFree buf) := by
  simp [path, withdraw, Vector.get]; rfl

/-- A stopped submission copy leaves a free copy engine, with its byte in progress still to be written (R76). -/
theorem stopSubmitCopy_copy (p : Part) (c : Copy) (h : p.copy.current = some c) (w : c.walk = .submit) :
    (stopSubmitCopy p).copy =
      { current := none, last := some .submit, stopped := c.inProgress <|> p.copy.stopped } := by
  simp [stopSubmitCopy, h, w, freeBuffer, endCopy]

/-- A watched entry that the directory still has to read is being written (R167, R171). -/
theorem covered_of_entryRead (p : Part) (a : Nat) (h : p.entryRead a = true) : p.covered a = true := by
  simp [covered, h]

end Part

end Sys2Proof.Machine
end

