-- ==== Sys2Proof/Laws/PerInstr.lean ====
section
/-! SUPPORT. The family Wire, one lemma per command: a well-formed command that stands for a host write drives an
address that names it: a command word's, a trigger's, or its own where it is a HOST_WRITE. -/

namespace Sys2Proof.Laws.Wire

/-- The write a well-formed command stands for is a command word, a trigger of a table edit, or a HOST_WRITE. -/
def Statement (i : Instr) : Prop :=
  i.wellFormed = true → ∀ (a : Addr) (v : Byte), busWrite i = some (a, v) →
    isCommandRow a.toNat v = true ∨ isStationTrigger a.toNat = true ∨ isUnitTrigger a.toNat = true
      ∨ isNodeTrigger a.toNat = true ∨ i = .hostWrite a v

/-- A command that is no host write has nothing to show. -/
theorem of_none {i : Instr} (h : busWrite i = none) : Statement i := by
  intro _ a v hw
  rw [h] at hw
  exact nomatch hw

/-- A command word's own address. -/
theorem of_word {i : Instr} {a : Addr} {v : Byte} (h : busWrite i = some (a, v))
    (hr : isCommandRow a.toNat v = true) : Statement i := by
  intro _ a' v' hw
  rw [h] at hw
  cases hw
  exact .inl hr

/-- A station image's trigger. -/
theorem of_station {i : Instr} {b : Branch} {n : StationNo} {v : Byte}
    (h : busWrite i = some (stationTriggerAddr b n, v)) : Statement i := by
  intro _ a' v' hw
  rw [h] at hw
  cases hw
  refine .inr (.inl ?_)
  have e : (stationTriggerAddr b n).toNat = 0x01000 + (64 * b.val + n.val) * 16 + 6 := by
    simp only [stationTriggerAddr, BitVec.toNat_ofNat]
    omega
  simp only [isStationTrigger, e, Bool.and_eq_true, decide_eq_true_eq, beq_iff_eq]
  omega


theorem powerOnReset : Statement .powerOnReset := of_none rfl

theorem pinResetAssert : Statement .pinResetAssert := of_none rfl

theorem pinResetRelease : Statement .pinResetRelease := of_none rfl

theorem softReset (v : Byte) : Statement (.softReset v) := of_word rfl rfl

theorem initialisationComplete : Statement .initialisationComplete := of_none rfl

theorem commit (v : Byte) : Statement (.commit v) := of_word rfl rfl

theorem commitReadComplete : Statement .commitReadComplete := of_none rfl

theorem commitApplication : Statement .commitApplication := of_none rfl

theorem postToTrunk (v : Byte) : Statement (.postToTrunk v) := of_word rfl rfl

theorem toTrunkRetry : Statement .toTrunkRetry := of_none rfl

theorem postSubmit (v : Byte) : Statement (.postSubmit v) := of_word rfl rfl

theorem submissionRetry : Statement .submissionRetry := of_none rfl

theorem copyEngineServe : Statement .copyEngineServe := of_none rfl

theorem toTrunkCopyComplete : Statement .toTrunkCopyComplete := of_none rfl

theorem submissionCopyComplete : Statement .submissionCopyComplete := of_none rfl

theorem returnBuffer (v : Byte) : Statement (.returnBuffer v) := of_word rfl rfl

theorem jobRelease (v : Byte) : Statement (.jobRelease v) := of_word rfl rfl

theorem jobAbort (v : Byte) : Statement (.jobAbort v) := of_word rfl rfl

theorem jobMoveJob (v : Byte) : Statement (.jobMoveJob v) := of_word rfl rfl

theorem jobMovePrinter (v : Byte) : Statement (.jobMovePrinter v) := of_word rfl rfl

theorem loadGrant (v : Byte) : Statement (.loadGrant v) := of_word rfl rfl

theorem branchSel (v : Byte) : Statement (.branchSel v) := of_word rfl rfl

theorem isolate : Statement .isolate := of_word rfl rfl

theorem restore : Statement .restore := of_word rfl rfl

theorem probe : Statement .probe := of_word rfl rfl

theorem captureRelease (v : Byte) : Statement (.captureRelease v) := of_word rfl rfl

theorem clearCounters (v : Byte) : Statement (.clearCounters v) := of_word rfl rfl

theorem snapKind (v : Byte) : Statement (.snapKind v) := of_word rfl rfl

theorem snapIndex (v : Byte) : Statement (.snapIndex v) := of_word rfl rfl

theorem senseNow (v : Byte) : Statement (.senseNow v) := of_word rfl rfl

theorem summaryLoRead : Statement .summaryLoRead := of_none rfl

theorem liveWordFirstByteRead (w : LiveWord) : Statement (.liveWordFirstByteRead w) := of_none rfl

theorem senseMissedRead : Statement .senseMissedRead := of_none rfl

theorem snapshotWindowLastByteRead : Statement .snapshotWindowLastByteRead := of_none rfl

theorem hostWrite (a : Addr) (v : Byte) : Statement (.hostWrite a v) := by
  intro _ a' v' hw
  cases hw
  exact .inr (.inr (.inr (.inr rfl)))

theorem stationEdit (b : Branch) (n : StationNo) (v : Byte) : Statement (.stationEdit b n v) := of_station rfl

theorem bar (b : Branch) (n : StationNo) (present : Bool) : Statement (.bar b n present) := of_station rfl

theorem unbar (b : Branch) (n : StationNo) (present : Bool) : Statement (.unbar b n present) := of_station rfl

theorem clearConflict (b : Branch) (n : StationNo) (present : Bool) : Statement (.clearConflict b n present) := of_station rfl

theorem unitMapEdit (u : Fin 256) (v : Byte) : Statement (.unitMapEdit u v) := by
  intro _ a' v' hw
  cases hw
  refine .inr (.inr (.inl ?_))
  have e : (unitTriggerAddr u).toNat = 0x00300 + 4 * u.val + 3 := by
    simp only [unitTriggerAddr, BitVec.toNat_ofNat]
    omega
  simp only [isUnitTrigger, e, Bool.and_eq_true, decide_eq_true_eq, beq_iff_eq]
  omega

theorem nodeListEdit (n : Fin 64) (v : Byte) : Statement (.nodeListEdit n v) := by
  intro _ a' v' hw
  cases hw
  refine .inr (.inr (.inr (.inl ?_)))
  have e : (nodeTriggerAddr n).toNat = 0x00700 + 8 * n.val + 7 := by
    simp only [nodeTriggerAddr, BitVec.toNat_ofNat]
    omega
  simp only [isNodeTrigger, e, Bool.and_eq_true, decide_eq_true_eq, beq_iff_eq]
  omega

theorem memoryPortGrant : Statement .memoryPortGrant := of_none rfl

theorem imageWriteBegin : Statement .imageWriteBegin := of_none rfl

theorem imageWriteComplete : Statement .imageWriteComplete := of_none rfl

theorem transmissionEnd (b : Branch) : Statement (.transmissionEnd b) := of_none rfl

theorem receiveCharacter (b : Branch) (c : LineChar) : Statement (.receiveCharacter b c) := of_none rfl

theorem replyWindowClose (b : Branch) : Statement (.replyWindowClose b) := of_none rfl

theorem gapTimeout (b : Branch) : Statement (.gapTimeout b) := of_none rfl

theorem quietWaitEnd (b : Branch) : Statement (.quietWaitEnd b) := of_none rfl

theorem strayRunEnd (b : Branch) : Statement (.strayRunEnd b) := of_none rfl

theorem turnaroundEnd (b : Branch) : Statement (.turnaroundEnd b) := of_none rfl

theorem listenSlotEnd (b : Branch) : Statement (.listenSlotEnd b) := of_none rfl

theorem paddingEnd (b : Branch) : Statement (.paddingEnd b) := of_none rfl

theorem payloadShiftComplete (b : Branch) : Statement (.payloadShiftComplete b) := of_none rfl

theorem decayTimerExpiry (b : Branch) : Statement (.decayTimerExpiry b) := of_none rfl

theorem sensePeriodExpiry : Statement .sensePeriodExpiry := of_none rfl

theorem sensePassStart : Statement .sensePassStart := of_none rfl

theorem senseConversionComplete (code : Byte) : Statement (.senseConversionComplete code) := of_none rfl

theorem relaySettle (b : Branch) : Statement (.relaySettle b) := of_none rfl

theorem relayFault (b : Branch) (low : Bool) : Statement (.relayFault b low) := of_none rfl

theorem restoreTimerExpiry (b : Branch) : Statement (.restoreTimerExpiry b) := of_none rfl

theorem buttonPress : Statement .buttonPress := of_none rfl

theorem indicatorFlashToggle (b : Branch) : Statement (.indicatorFlashToggle b) := of_none rfl

theorem probeStart : Statement .probeStart := of_none rfl

theorem probePulse : Statement .probePulse := of_none rfl

theorem probePulseEnd : Statement .probePulseEnd := of_none rfl

theorem echoCrossing (tick : BitVec 12) (rise : EchoRise) : Statement (.echoCrossing tick rise) := of_none rfl

theorem captureWindowEnd : Statement .captureWindowEnd := of_none rfl

theorem printerConditionChange (p : Port) (c : PrinterCondition) (asserted : Bool) : Statement (.printerConditionChange p c asserted) := of_none rfl

theorem bytePresent (p : Port) : Statement (.bytePresent p) := of_none rfl

theorem abandonedByteTimeout (p : Port) : Statement (.abandonedByteTimeout p) := of_none rfl

theorem acknowledge (p : Port) : Statement (.acknowledge p) := of_none rfl

theorem stallTimerExpiry (p : Port) : Statement (.stallTimerExpiry p) := of_none rfl

theorem stallEndBusyLow (p : Port) : Statement (.stallEndBusyLow p) := of_none rfl

theorem redirectTimerExpiry (p : Port) : Statement (.redirectTimerExpiry p) := of_none rfl

theorem receiveLineLevelChange (b : Branch) (level : Bool) : Statement (.receiveLineLevelChange b level) := of_none rfl

theorem falseStartBit (b : Branch) : Statement (.falseStartBit b) := of_none rfl

theorem attentionButtonRelease : Statement .attentionButtonRelease := of_none rfl

theorem printerStrobeEnd (p : Port) : Statement (.printerStrobeEnd p) := of_none rfl

end Sys2Proof.Laws.Wire
end

