-- ==== Sys2Proof/Laws/Walks.lean ====
section
/-! SUPPORT. The reads of the ring and descriptor requester as a whole: what its user has after them, how a walk goes on
from a mark or from its fields, what the limit of a chain does to a submission, what the flush of a branch leaves of
its jobs, and what becomes of an offered frame. -/

namespace Sys2Proof.Machine

namespace Part

/-- The address of a read that is not the router's. -/
theorem readAddr_of_ne (r : RingRead) (p : Part) (h : r.user ≠ .router) : readAddr r p = r.addr := by
  unfold readAddr
  split
  · exact absurd ‹_› h
  · rfl

/-- The last byte of a read is made, and its user goes on with all of them (R168). -/
theorem cycle_lastRead (u : RingUser) (hu : u ≠ .router) (a : Nat) (got : List Byte) (rest : List RingRead) (p : Part)
    (m : List Host.Cell) (h : p.lastRead u a got rest) :
    Part.cycle .ring (p, m) = (readDone u (got ++ [Mem.read m a]) { p with ring := rest }, m) := by
  obtain ⟨h1, h2, h3⟩ := h
  have others : rest.filter (fun x => !u.same x.user) = rest := List.filter_eq_self.2 fun r hr => by simp [h3 r hr]
  have own : rest.filter (fun x => u.same x.user) = [] := List.filter_eq_nil_iff.2 fun r hr => by simp [h3 r hr]
  have ha := readAddr_of_ne { user := u, addr := a, left := 1, got := got } p hu
  simp [Part.cycle, ringCycle, h1, ringServe, h2, modRing, readsAfter, others, own, ha]

/-- A read that stands alone is made byte by byte, and its user then has the bytes as memory holds them (R168). -/
theorem cycles_reads (u : RingUser) (hu : u ≠ .router) (m : List Host.Cell) (n : Nat) :
    ∀ (a : Nat) (got : List Byte) (p : Part), p.hostWait = none →
      p.ring = [{ user := u, addr := a, left := n + 1, got := got }] →
      Part.cycles .ring (n + 1) (p, m) = (readDone u (got ++ Mem.readList m a (n + 1)) { p with ring := [] }, m) := by
  induction n with
  | zero =>
    intro a got p hw hr
    have ha := readAddr_of_ne { user := u, addr := a, left := 0 + 1, got := got } p hu
    simp [Part.cycles, Part.cycle, ringCycle, hw, ringServe, hr, modRing, readsAfter_single, ha, Mem.readList]
  | succ n ih =>
    intro a got p hw hr
    have ha := readAddr_of_ne { user := u, addr := a, left := n + 1 + 1, got := got } p hu
    have h1 : Part.cycle .ring (p, m) =
        ({ p with ring := [{ user := u, addr := a + 1, left := n + 1, got := got ++ [Mem.read m a] }] }, m) := by
      simp [Part.cycle, ringCycle, hw, ringServe, hr, modRing, readsAfter_single, ha]
    have h2 := ih (a + 1) (got ++ [Mem.read m a])
      { p with ring := [{ user := u, addr := a + 1, left := n + 1, got := got ++ [Mem.read m a] }] } hw rfl
    show Part.cycles .ring (n + 1) (Part.cycle .ring (p, m)) = _
    rw [h1, h2]
    simp [Mem.readList]

/-- The to-trunk walk at a slot that is not POSTED, with the pending flag clear, is idle (R68). -/
theorem ttMark_stops (v : Byte) (p : Part) (h1 : v ≠ 1) (h2 : p.toTrunk.pending = false) :
    ttMark v p = modToTrunk (fun w => { w with state := .idle }) p := by
  rw [ttMark, if_neg h1, h2]; rfl

/-- A POSTED slot has its fields read (R68, R69). -/
theorem ttMark_posted (p : Part) : ttMark 1 p = ttAskFields p := by simp [ttMark]

/-- The submission walk at a slot that is not POSTED, with the pending flag clear, is idle (R88). -/
theorem subMark_stops (v : Byte) (p : Part) (h1 : v ≠ 1) (h2 : p.submit.pending = false) :
    subMark v p = modSubmit (fun w => { w with state := .idle }) p := by
  rw [subMark, if_neg h1, h2]; rfl

/-- The fields of a slot, at its taking or at a retry, are checked (R69, R70). -/
theorem ttRead_fields (l : List Byte) (p : Part) (h : p.toTrunk.state = .working ∨ p.toTrunk.state = .waiting)
    (hl : l.length ≠ 1) : ttRead l p = ttFields l p := by
  rcases h with h | h <;> (simp only [ttRead, h]; split <;> simp_all)

/-- The fields of a POSTED submission slot are taken (R89). -/
theorem subRead_fields (l : List Byte) (p : Part) (h : p.submit.state = .working) (hl : l.length ≠ 1) :
    subRead l p = subGoOn (subTake (1 :: l) p) := by
  simp only [subRead, h, if_true]; split <;> simp_all

/-! ## The limit of a chain -/

/-- A walk served for a chain that stands at its limit is given no buffer: its job ends with TOO_LARGE (R80, R90). -/
theorem serveSubmit_full (p : Part) (j : JobNo) (hj : p.submit.job = some j)
    (h : p.setup.jobBufferLimit ≤ (p.job j).chain.length) : serveSubmit p = subNext (subOverrun j p) := by
  simp [serveSubmit, hj, h]

/-- A walk served for a chain with room asks for its buffer (R52, R90). -/
theorem serveSubmit_room (p : Part)
    (h : ∀ j, p.submit.job = some j → (p.job j).chain.length < p.setup.jobBufferLimit) :
    serveSubmit p = subAllocate p := by
  unfold serveSubmit
  split
  · rw [if_neg (by simpa using h _ ‹_›)]
  · rfl

/-- A copy that ends while the chain stands at its limit adds nothing: the job is aborted and the target freed (R80,
R93). -/
theorem submissionCopied_full (p : Part) (c : Copy) (j : JobNo) (hc : p.copyDone .submit = some c)
    (hj : p.submit.job = some j) (h : p.setup.jobBufferLimit ≤ (p.job j).chain.length) :
    submissionCopied p = subNext (subDone .tooLarge (freeBuffer c.buf (abortJob j .tooLarge (endCopy .submit p)))) := by
  simp only [submissionCopied, hc, hj]
  exact if_pos ((chainFull_eq_true p j).2 h)

/-- A copy that ends while the chain has room adds its buffer, and the walk goes on (R80, R90). -/
theorem submissionCopied_room (p : Part) (c : Copy) (j : JobNo) (hc : p.copyDone .submit = some c)
    (hj : p.submit.job = some j) (h : (p.job j).chain.length < p.setup.jobBufferLimit) :
    submissionCopied p = subGoOn (subFill j (modSubmit (fun w => { w with state := .working, pos := w.pos + c.total })
      (addToChain j { buf := c.buf, fill := c.total, shifted := true } (endCopy .submit p)))) := by
  have hf : ¬ p.chainFull j = true := by simpa using h
  simp only [submissionCopied, hc, hj]
  exact if_neg hf

/-! ## Jobs aborted for a branch -/

/-- The records after the abort of a live job: its own alone has changed (R93). -/
theorem abortJob_jobs (j : JobNo) (r : JobResult) (p : Part) (hl : (p.job j).state.live = true) :
    (abortJob j r p).jobs = put p.jobs j
      { p.job j with state := .aborted, result := some r, chain := [], hold := none, abortPending := false } := by
  simp only [abortJob, if_pos hl]
  by_cases hw : (p.job j).state = .waiting <;> simp [hw]

/-- Where a job is aborted every other record stands, and its own is no longer ASSEMBLING (R93). -/
theorem abortJob_assembling (i j : JobNo) (r : JobResult) (p : Part)
    (h : ((abortJob j r p).job i).state = .assembling) : i ≠ j ∧ (abortJob j r p).job i = p.job i := by
  by_cases hl : (p.job j).state.live = true
  · have hj := abortJob_jobs j r p hl
    have hi : i ≠ j := by
      rintro rfl
      simp [job_def, hj] at h
    exact ⟨hi, by simp [job_def, hj, get_put_ne _ _ _ _ hi]⟩
  · have hp : abortJob j r p = p := by simp [abortJob, hl]
    rw [hp] at h ⊢
    exact ⟨by rintro rfl; simp [h, JobState.live] at hl, rfl⟩

/-- Record `i` holds an ASSEMBLING job whose origin is a station of the branch (R97). -/
def assemblesFrom (p : Part) (b : Branch) (i : JobNo) : Prop :=
  (p.job i).state = .assembling ∧ ∃ n, (p.job i).origin = .trunk b n

/-- One round of the flush: it leaves record `j` no such job and makes none elsewhere (R97). -/
theorem abortRound_assemblesFrom (b : Branch) (i j : JobNo) (p : Part)
    (h : Part.assemblesFrom (match (p.job j).state, (p.job j).origin with
      | .assembling, .trunk b' _ => if b' = b then abortJob j .sourceLost p else p
      | _, _ => p) b i) : i ≠ j ∧ p.assemblesFrom b i := by
  split at h
  · split at h
    · obtain ⟨hi, e⟩ := abortJob_assembling i j _ p h.1
      exact ⟨hi, e ▸ h.1, h.2.imp fun n hn => e ▸ hn⟩
    · refine ⟨?_, h⟩
      rintro rfl
      obtain ⟨-, n, hn⟩ := h
      simp_all
  · refine ⟨?_, h⟩
    rintro rfl
    obtain ⟨hs, n, hn⟩ := h
    simp_all

/-- The flush leaves no ASSEMBLING job whose origin is a station of the branch (R97, R145). -/
theorem abortAssemblingOfBranch_none (b : Branch) (i : JobNo) (p : Part) :
    ¬ (abortAssemblingOfBranch b p).assemblesFrom b i := by
  have rounds : ∀ (l : List JobNo) (p : Part), (each l (fun j p =>
      match (p.job j).state, (p.job j).origin with
      | .assembling, .trunk b' _ => if b' = b then abortJob j .sourceLost p else p
      | _, _ => p) p).assemblesFrom b i → i ∉ l ∧ p.assemblesFrom b i := by
    intro l
    induction l with
    | nil => exact fun p h => ⟨List.not_mem_nil, h⟩
    | cons j l ih =>
      intro p h
      obtain ⟨hl, h1⟩ := ih _ h
      obtain ⟨hj, h2⟩ := abortRound_assemblesFrom b i j p h1
      exact ⟨by simp [hj, hl], h2⟩
  exact fun h => (rounds _ p h).1 (List.mem_finRange i)

/-! ## Frames offered to the router -/

/-- The mark of the producer slot decides nothing but a frame for the host (R58, R62). -/
theorem route_mark (mark mark' : Byte) (o : Offer) (p : Part) (h : p.needsMark o = false) :
    p.route mark o = p.route mark' o := by
  simp only [needsMark] at h
  simp only [route]
  split
  · rfl
  split
  · rfl
  split
  · rfl
  split <;> simp_all

/-- A frame that no mark decides is answered at once (R16, R58). -/
theorem offerFrame_now (o : Offer) (p : Part) (h : p.needsMark o = false) :
    offerFrame o p = sendVerdict o (p.route 0 o).1 (p.route 0 o).2 := by simp [offerFrame, h]

/-- A frame for the host waits for the mark of the producer slot (R16, R62). -/
theorem offerFrame_waits (o : Offer) (p : Part) (h : p.needsMark o = true) :
    offerFrame o p = setPhase o.branch .verdict (modRouter (fun r => { r with offers := r.offers ++ [o] })
      (askReads .router (ImgRecord.fromTrunk p.router.producer).base 1 p)) := by simp [offerFrame, h]

/-- After an abort a frame not taken has its buffer returned from the reservation (R26). -/
theorem decideOffer_aborted (mark : Byte) (o : Offer) (r : List Offer) (p : Part) (ho : p.router.offers = o :: r)
    (ha : p.awaits o = false) (v : RouterVerdict) (q : Part)
    (hv : (modRouter (fun x => { x with offers := r }) p).route mark o = (v, q)) (hn : ∀ s, v ≠ .taken s) :
    decideOffer mark p = returnOffered o q := by
  simp only [decideOffer, ho, hv, ha]
  cases v <;> simp_all

/-- A frame taken for anything but a printer keeps its destination after an abort (R26). -/
theorem abandonJob_other (o : Offer) (p : Part) (h : ∀ k, (p.units.get o.unit.toFin).kind ≠ .printer k) :
    abandonJob o p = p := by
  unfold abandonJob
  split <;> simp_all

/-- After an abort a print frame taken leaves its branch the origin of no ASSEMBLING job (R145, log 55). -/
theorem decideOffer_abandons (mark : Byte) (o : Offer) (r : List Offer) (p : Part) (ho : p.router.offers = o :: r)
    (ha : p.awaits o = false) (seq : Bool) (q : Part)
    (hv : (modRouter (fun x => { x with offers := r }) p).route mark o = (.taken seq, q)) (k : Port)
    (hk : (q.units.get o.unit.toFin).kind = .printer k) (i : JobNo) :
    ¬ (decideOffer mark p).assemblesFrom o.branch i := by
  have he : decideOffer mark p = abortAssemblingOfBranch o.branch q := by
    simp [decideOffer, ho, hv, ha, abandonJob, hk]
  rw [he]
  exact abortAssemblingOfBranch_none o.branch i q

end Part

end Sys2Proof.Machine
end

