-- ==== Sys2Proof/Tests/Slice0.lean ====
section
/-! SUPPORT. Tests of the model: ill-formed commands that the check refuses, a few commands on small states, and for
every statement with hypotheses a state and operands that meet them, clause by clause. -/

-- Tests are elaborated one after another: their kernel evaluations would else wait side by side, a thread each.
set_option Elab.async false

namespace Sys2Proof.Tests

open Sys2Proof.Machine

/-! ## Small states -/

/-- The part after initialisation, at rest. -/
def ready : State :=
  State.reset.withPart { State.reset.part with loader := { startState := .running, task := .idle } }

/-- The part after initialisation with something changed. -/
def place (f : Part → Part) : State := ready.withPart (f ready.part)

/-- A state with a byte of memory stored. -/
def stored (a : Nat) (v : Byte) (s : State) : State := { s with mem := Mem.write s.mem a v }

/-- The state a command answers. -/
def after (i : Instr) (s : State) : State :=
  match exec i s with
  | .next t => t
  | .fault _ => s
  | .refused _ => s

/-- Every printer enabled, printer 0 with printer 1 as its alternate. -/
def printersOn (p : Part) : Part :=
  let on : PrinterSetup := { enable := true, stallS := 1, redirectS := 5, alternate := 3 }
  { p with setup := { p.setup with printer := #v[{ on with alternate := 1 }, on, on] } }

/-- Job 31 in a state, for printer 0, with a chain of one buffer of two bytes. -/
def withJob (st : JobState) (p : Part) : Part :=
  Part.modJob 31 (fun _ => { Job.blank with
    state := st, origin := .submitted 0, chain := [{ buf := 255, fill := 2, shifted := true }]
    queuedBytes := 2 }) p

/-- Printer 0 in a state with job 31 as its current job. -/
def atPort (st : PortState) (f : PrinterPort → PrinterPort) (p : Part) : Part :=
  Part.modPort 0 (fun t => f { t with state := st, job := some 31 }) (printersOn p)

/-- Switch of branch 3 in a state. -/
def switchAt (st : SwitchState) (f : Switch → Switch) : Part → Part :=
  Part.modSwitch 3 fun w => f { w with state := st }

/-- The engine of branch 3 in its rounds, in a phase. -/
def inPhase (ph : Phase) (f : Engine → Engine) : Part → Part :=
  Part.modEngine 3 fun g => f { g with state := .rounds, phase := ph, pollList := [62], cursor := some 62 }

/-- An exchange with station 62. -/
def exchange (k : ExchKind) (r : Reply) : Exchange :=
  { kind := k, station := 62, entry := none, replyWindow := 8, gapLimit := 2, deglitch := 1, void := false
    endCode := none, seq := true, reply := r }

/-- Station 3/62 PRESENT. -/
def present : Part → Part := Part.modStation 3 62 fun st => { st with state := .present }

/-- A relayed entry for a target, in buffer 254. -/
def entryFor (n : StationNo) : TxEntry :=
  { target := n, buf := 254, origin := .relay 0 1, hold := 0, first := true, last := true }

/-! ## Well-formedness: an ill-formed command for each check -/

theorem test_ill_formed_command_word : (Instr.hostWrite 0x01 0).wellFormed = false := by decide
theorem test_ill_formed_action_code : (Instr.hostWrite 0x0C 3).wellFormed = false := by decide
theorem test_ill_formed_station_trigger : (Instr.hostWrite 0x01FF6 0).wellFormed = false := by decide
theorem test_ill_formed_unit_trigger : (Instr.hostWrite 0x006FF 0).wellFormed = false := by decide
theorem test_ill_formed_node_trigger : (Instr.hostWrite 0x008FF 0).wellFormed = false := by decide
theorem test_well_formed_action_of_no_row : (Instr.hostWrite 0x0C 4).wellFormed = true := by decide
theorem test_well_formed_host_area : (Instr.hostWrite 0x0FFFF 0).wellFormed = true := by decide
theorem test_no_row_has_bits : decodeTableWord 8 1 = none := rfl

/-! ## The host bus by address -/

theorem test_decode_commit : ofHostWrite 0x00001 0x55 = .commit 0x55 := by decide
theorem test_decode_restore : ofHostWrite 0x0000C 2 = .restore := by decide
theorem test_decode_sense_now : ofHostWrite 0x00011 0 = .senseNow 0 := by decide
theorem test_decode_station_edit : ofHostWrite 0x01FF6 3 = .stationEdit 3 63 3 := by decide
theorem test_decode_unit_map_edit : ofHostWrite 0x006FF 9 = .unitMapEdit 255 9 := by decide
theorem test_decode_node_list_edit : ofHostWrite 0x008FF 1 = .nodeListEdit 63 1 := by decide
theorem test_decode_plain_write : ofHostWrite 0x03000 7 = .hostWrite 0x03000 7 := by decide

/-! ## Commands on small states -/

/-- The check register over "123456789" is the well-known 0x29B1 of this generator and start value (R4). -/
theorem test_check_of_nine_digits :
    crcOf [0x31, 0x32, 0x33, 0x34, 0x35, 0x36, 0x37, 0x38, 0x39] = 0x29B1 := by decide +kernel

theorem test_step_of_an_empty_queue : step State.reset = .next State.reset := rfl

theorem test_memory_keeps_its_form :
    Mem.write (Mem.write (Mem.write [] 9 1) 5 2) 9 0 = [(5, 2)] := by decide

theorem test_first_byte_of_init : (after .memoryPortGrant State.reset).mem = []
    ∧ (after .memoryPortGrant State.reset).part.loader.task = .initialise false 1 [] := by decide +kernel

theorem test_refusal_during_init :
    (after (.commit 0) State.reset).part.notices = { latches := 0x2000, reason := some .init, code := 1 } := by
  decide +kernel

theorem test_enable_of_a_branch_asserts_the_drive :
    let next : Setup := { Setup.default with branchEnable := 1 }
    let s := after .commitApplication (place fun p => Part.modLoader (fun q => { q with task := .writing next 512 }) p)
    (s.part.switch 0).state = .closing ∧ (s.part.switch 0).rline = true ∧ (s.part.switch 1).rline = false := by
  decide +kernel

theorem test_poll_goes_out_after_the_relay_settles :
    let s := after (.relaySettle 3) (place (switchAt .closing fun w => { w with
      relay := .moving .line 20, rline := true }))
    (s.part.engine 3).sent = [(1, true)] ∧ (s.part.engine 3).reservation = some 0 := by decide +kernel

theorem test_idle_answer_discovers_a_station :
    let g (x : Exchange) : Part → Part := inPhase .reply fun g =>
      { g with exch := some x, reservation := some 7, arriving := some .elsewhere }
    let s := after (.receiveCharacter 3 { data := 0, mark := false, stop := true })
      (place (g (exchange .sweep { Reply.blank with stage := .code })))
    (s.part.station 3 62).state = .present ∧ (s.part.engine 3).phase = .turnaround := by decide +kernel

theorem test_acknowledge_of_the_last_byte_ends_the_job :
    let s := after (.acknowledge 0) (place fun p => atPort .busy (fun t => { t with handshake := some 9 })
      (Part.modJob 31 (fun x => { x with printed := 1 }) (withJob .printing p)))
    (s.part.job 31).state = .done ∧ (s.part.port 0).state = .idle ∧ s.part.pool.free.getLast? = some 255 := by
  decide +kernel

theorem test_node_list_edit_asks_to_read_the_entry :
    let s := after (.nodeListEdit 63 0) (stored 0x008FE 1 ready)
    s.part.ring = [{ user := .entry (.node 63), addr := 0x008F8, left := 8, got := [] }]
    ∧ (s.part.nodes.get 63).valid = true ∧ s.part.writer.queue = [] ∧ s.part.covered 0x008FF = true := by
  decide +kernel

/-! ## Witnesses: the hypotheses of every statement are met, clause by clause -/

theorem witness_StepRunsTheFrontCommand :
    ({ ready with pending := [.commit 0, .senseNow 1] } : State).pending = .commit 0 :: [.senseNow 1] := rfl

theorem witness_EveryCommandAnswersAndKeepsTheQueue : State.reset.pending = [] := rfl

theorem ready_takes_commands : ready.takesCommands := ⟨⟨rfl, rfl⟩, by decide⟩

/-- What the kernel finds of a state that takes commands. -/
theorem takes_of {s : State} (h : s.part.held = false ∧ s.part.hostWait = none ∧ s.part.loader.startState = .running) :
    s.takesCommands := ⟨⟨h.1, h.2.1⟩, by rw [h.2.2]; decide⟩

theorem witness_ResetsBringThePartToRest :
    State.reset.part.hostWait = none ∧ State.reset.part.held = false
    ∧ (place fun p => { p with hostWait := some (.read 0x1FFFF) }).part.hostWait = some (.read 0x1FFFF)
    ∧ (∀ a : Addr, a = 0x03000 ∨ a = 0x0FFFF →
        (place fun p => { p with hostWait := some (.write a 1) }).part.hostWait = some (.write a 1)
          ∧ 0x03000 ≤ a.toNat ∧ a.toNat < 0x10000)
    ∧ ∀ a : Addr, a = 0x00100 ∨ a = 0x0095F ∨ a = 0x00980 ∨ a = 0x00E7F ∨ a = 0x01000 ∨ a = 0x02CFF
          ∨ a = 0x10000 ∨ a = 0x1FFFF →
        (0x00100 ≤ a.toNat ∧ a.toNat < 0x00E80 ∧ ¬ (0x00960 ≤ a.toNat ∧ a.toNat < 0x00980))
          ∨ (0x01000 ≤ a.toNat ∧ a.toNat < 0x02D00) ∨ 0x10000 ≤ a.toNat := by
  refine ⟨rfl, rfl, rfl, ?_, ?_⟩
  · rintro a (rfl | rfl) <;> exact ⟨rfl, by decide, by decide⟩
  · rintro a (rfl | rfl | rfl | rfl | rfl | rfl | rfl | rfl) <;> decide

theorem witness_InitialisationBeginsAndEnds :
    (place fun p => { p with held := true }).part.held = true ∧ ready.part.held = false
    ∧ Config.initCycles false ≤ 10848 ∧ 10847 < Config.initCycles false
    ∧ Config.initCycles true ≤ 11776 ∧ 11775 < Config.initCycles true
    ∧ (place fun p => Part.modLoader (fun q => { q with task := .initialise true 11776 [] }) p).part.loader.task
        = .initialise true 11776 [] := by decide +kernel

theorem witness_CommandWordsAreRefused :
    State.reset.busReady ∧ State.reset.part.loader.startState = .init ∧ commandCode (.senseNow 0) = some 0x11
    ∧ commandCode (.jobRelease 32) = some 0x06 ∧ argumentLimit (.jobRelease 32) = some (32, 32)
    ∧ argumentLimit (.jobMovePrinter 3) = some (3, 3) ∧ argumentLimit (.branchSel 255) = some (4, 255)
    ∧ argumentLimit (.snapKind 3) = some (3, 3) ∧ 32 ≤ (32 : Byte).toNat ∧ 4 ≤ (255 : Byte).toNat
    ∧ 3 ≤ (3 : Byte).toNat ∧ ready.takesCommands :=
  ⟨⟨rfl, rfl⟩, rfl, rfl, rfl, rfl, rfl, rfl, rfl, by decide, by decide, by decide, ready_takes_commands⟩

theorem witness_ValuesAreHeldAndCountersCleared : ready.takesCommands := ready_takes_commands

theorem witness_ReleasesFreeABufferOrAJob :
    let s := place fun p => { p with pool := { p.pool with hostHeld := [255] } }
    let j (st : JobState) := place (withJob st)
    s.takesCommands ∧ (255 : Byte).toFin ∈ s.part.pool.hostHeld ∧ (0 : Byte).toFin ∉ s.part.pool.hostHeld
    ∧ (0 : BufNo) ≠ 255
    ∧ (j .done).takesCommands ∧ ((j .done).part.job 31).state = .done
    ∧ (j .aborted).takesCommands ∧ ((j .aborted).part.job 31).state = .aborted
    ∧ (ready.part.job 0).state ≠ .done ∧ (ready.part.job 0).state ≠ .aborted :=
  ⟨takes_of (by decide +kernel), by decide, by decide, by decide, takes_of (by decide +kernel), by decide +kernel,
    takes_of (by decide +kernel), by decide +kernel, by decide +kernel, by decide +kernel⟩

theorem witness_SenseTriggersStartAPassOrAreCounted :
    let s := place fun p => Part.modSense (fun q => { q with period := some 255, state := .busy, missed := 255 }) p
    s.takesCommands ∧ s.part.held = false ∧ s.part.sense.period.isSome = true :=
  ⟨takes_of (by decide +kernel), by decide +kernel, by decide +kernel⟩

theorem witness_SnapshotRequestFillsAnEmptyWindow :
    let k (x : SnapKind) (held : Bool) := place (Part.modSnap fun q => { q with kind := x, held := held })
    (∀ x held, (k x held).takesCommands ∧ (k x held).part.snap.kind = x ∧ (k x held).part.snap.held = held)
    ∧ (31 : Byte).toNat = (31 : JobNo).val ∧ (3 : Byte).toNat = (3 : Branch).val
    ∧ 32 ≤ (32 : Byte).toNat ∧ 4 ≤ (4 : Byte).toNat ∧ (31 : Byte).toNat < 32 ∧ (3 : Byte).toNat < 4 := by
  refine ⟨?_, by decide, by decide, by decide, by decide, by decide, by decide⟩
  intro x held
  exact ⟨takes_of ⟨rfl, rfl, rfl⟩, rfl, rfl⟩

theorem witness_SummaryReadCapturesAndClears :
    ready.busReady ∧ ready.part.held = false ∧ ready.part.live.summary = 0 := ⟨⟨rfl, rfl⟩, rfl, rfl⟩

theorem witness_TopCauseIsTheLowestEnabledLatch :
    let on (l e : BitVec 16) := place fun p =>
      { Part.modNotices (fun q => { q with latches := l }) p with setup := { p.setup with noticeEnable := e } }
    let hit (s : State) (i : Fin 16) :=
      s.part.notices.latches.getLsbD i.val = true ∧ s.part.setup.noticeEnable.getLsbD i.val = true
        ∧ ∀ k : Fin 16, k < i →
          ¬ (s.part.notices.latches.getLsbD k.val = true ∧ s.part.setup.noticeEnable.getLsbD k.val = true)
    (on 0xFFFF 0x8000).part.held = false ∧ hit (on 0xFFFF 0x8000) 15 ∧ hit (on 0xFFFF 0xFFFF) 0
    ∧ (∀ k : Fin 16, ¬ ((on 0x5555 0xAAAA).part.notices.latches.getLsbD k.val = true
        ∧ (on 0x5555 0xAAAA).part.setup.noticeEnable.getLsbD k.val = true))
    ∧ (on 0xFFFF 0).part.setup.noticeEnable = 0 := by decide +kernel

theorem witness_FirstByteReadsCaptureTheWord : ready.busReady := ⟨rfl, rfl⟩

theorem witness_ReadsThatClearOrRelease :
    ready.busReady ∧ (place fun p => { p with held := true }).part.held = true := ⟨⟨rfl, rfl⟩, rfl⟩

theorem witness_CommitRunsItsPhases :
    let at_ (t : LoaderTask) := place (Part.modLoader fun q => { q with task := t })
    let wait (a : Addr) := place fun p =>
      { Part.modLoader (fun q => { q with task := .writing { Setup.default with branchEnable := 8 } 512 }) p with
        hostWait := some (.write a 1) }
    ready.takesCommands ∧ ready.part.loader.task = .idle ∧ (at_ (.reading [])).takesCommands
    ∧ (at_ (.reading [])).part.loader.task ≠ .idle
    ∧ (zeros 511).length < 512 ∧ 512 ≤ (zeros 512).length
    ∧ (at_ (.writing Setup.default 511)).part.held = false ∧ (511 : Nat) < 512
    ∧ (wait 0x100).part.hostWait = some (.write 0x100 1) ∧ (wait 0x2FF).part.hostWait = some (.write 0x2FF 1)
    ∧ (wait 0x2FF).part.loader.startState ≠ .init ∧ ((wait 0x100).part.switch 3).state = .disabled
    ∧ ((wait 0x100).part.switch 3).rflt = false ∧ (8 : BitVec 4).getLsbD 3 = true
    ∧ (wait 0x100).part.setup.branchEnable.getLsbD 3 = false := by
  refine ⟨ready_takes_commands, rfl, takes_of ⟨rfl, rfl, rfl⟩, ?_⟩
  all_goals decide +kernel

theorem witness_CommitRunsItsPhases_prefix :
    let named := place (Part.modStation 3 62 fun st => { st with assigned := some #v[9, 8, 7, 6, 5, 4] })
    let l : List Byte := [0, 9, 8, 7, 6]
    (∃ a ∈ named.part.assignedAddrs, ∀ k : Fin 4, a.get (k.castLE (by omega)) = l.getD (1 + k.val) 0)
    ∧ (∀ a ∈ ready.part.assignedAddrs, ∃ k : Fin 4, a.get (k.castLE (by omega)) ≠ l.getD (1 + k.val) 0) := by
  refine ⟨⟨#v[9, 8, 7, 6, 5, 4], List.mem_filterMap.mpr ⟨(3, 62), by decide +kernel, by decide +kernel⟩, by decide⟩, ?_⟩
  intro a ha
  obtain ⟨x, _, h⟩ := List.mem_filterMap.mp ha
  have e : ready.part.station x.1 x.2 = Station.blank := get_replicate _ _
  rw [e] at h
  exact nomatch h

/-- A commit whose write-back is done: what it changes of the setup comes into force with its application. -/
def committing (f : Setup → Setup) (p : Part) : Part :=
  Part.modLoader (fun q => { q with task := .writing (f p.setup) 512 }) p

theorem witness_CommitClampsEveryField_branches :
    let s (st : SwitchState) (f : Part → Part) := place fun p =>
      committing (fun u => { u with branchEnable := 0 })
        (f (present (switchAt st id { p with setup := { p.setup with branchEnable := 8 } })))
    let t (st : SwitchState) := after .commitApplication (s st id)
    let drains := s .inService (inPhase .reply id)
    (s .isolated id).part.setup.branchEnable.getLsbD 3 = true ∧ (s .isolated id).part.hostWait = none
    ∧ (∀ st ∈ [SwitchState.isolated, .lockedOut, .draining, .opening, .closing],
        ((s st id).part.switch 3).state = st ∧ ((s st id).part.switch 3).dest ≠ some .disabled
        ∧ ((s st id).part.switch 3).enablePending = false)
    ∧ (∀ st ∈ [SwitchState.isolated, .lockedOut], ((t st).part.switch 3).state = .disabled
        ∧ ((t st).part.station 3 62).state ≠ .present)
    ∧ (∀ st ∈ [SwitchState.draining, .opening, .closing],
        (t st).part.switch 3 = { (s st id).part.switch 3 with dest := some .disabled })
    ∧ ((drains.part.engine 3).phase.inExchange = true ∧ (drains.part.engine 3).state = .rounds
        ∧ ((after .commitApplication drains).part.switch 3).state = .draining
        ∧ ((after .commitApplication drains).part.engine 3).state = .stopping) := by decide +kernel

theorem witness_CommitClampsEveryField_printers :
    let enables (on : Bool) (f : PrinterPort → PrinterPort) := place fun p =>
      committing (fun u => { u with printer := put u.printer 2 { enable := on, stallS := 1, redirectS := 5, alternate := 3 } })
        (Part.modPort 2 f { p with setup := { p.setup with
          printer := put p.setup.printer 2 { p.printerSetup 2 with enable := !on, alternate := 3 } } })
    let disables := place fun p =>
      committing (fun u => { u with printer := put u.printer 0 { (u.printer.get 0) with enable := false, alternate := 3 } })
        (Part.modJob 30 (fun x => { x with state := .waiting }) (Part.modQueue 0 (fun _ => [30])
          (Part.modJob 29 (fun x => { x with state := .assembling, origin := .trunk 3 62 })
            (atPort .busy (fun t => { t with handshake := some 9 }) (withJob .printing p)))))
    let gone := after .commitApplication disables
    let fails := after .commitApplication (enables true fun t => { t with fault := true })
    ((enables true id).part.printerSetup 2).enable = false ∧ ((enables true id).part.port 2).state = .disabled
    ∧ ((after .commitApplication (enables true id)).part.port 2).state = .idle
    ∧ ((fails.part.port 2).state = .fault ∧ fails.part.notices.latches.getLsbD 7 = true
        ∧ (fails.part.port 2).redirect = some 5)
    ∧ ((disables.part.printerSetup 0).enable = true ∧ (disables.part.job 30).state = .waiting
        ∧ (disables.part.job 30).printer = 0 ∧ (disables.part.port 0).job = some 31
        ∧ (disables.part.job 31).state = .printing ∧ (disables.part.job 29).state = .assembling)
    ∧ ((gone.part.port 0).state = .disabled ∧ (gone.part.port 0).abandoned = true ∧ gone.part.queue 0 = []
        ∧ ∀ j ∈ [(29 : JobNo), 30, 31], (gone.part.job j).state = .aborted
            ∧ (gone.part.job j).result = some .printerGone ∧ (gone.part.job j).chain = []) := by decide +kernel

theorem witness_CommitClampsEveryField_reading :
    let s := place (Part.modLoader fun q => { q with
      task := .reading (zeros 0x140 ++ [200] ++ zeros 0x6F ++ [5, 0, 0, 9] ++ zeros 0x4C) })
    (match s.part.loader.task with
      | .reading l => decide (512 ≤ l.length)
      | _ => false) = true
    ∧ (match (after .commitReadComplete s).part.loader.task with
      | .writing next pos => decide (pos = 0 ∧ (next.branch.get 3).replyWindow = 64 ∧ (next.branch.get 2).replyWindow = 2
          ∧ (next.printer.get 2).alternate = 3 ∧ (next.printer.get 2).enable = true
          ∧ (next.printer.get 1).enable = false)
      | _ => false) = true := by decide +kernel

theorem witness_CommitClampsEveryField_probing :
    let s (unit : ProbeState) (q : List Branch) := place fun p =>
      committing (fun u => { u with branchEnable := 0 })
        (Part.modProbe (fun u => { u with state := unit, queue := q })
          (switchAt .probing id { p with setup := { p.setup with branchEnable := 8 } }))
    let w (unit : ProbeState) (q : List Branch) := ((after .commitApplication (s unit q)).part.switch 3)
    ((s .arming [3]).part.switch 3).state = .probing
    ∧ w .arming [3] = { (s .arming [3]).part.switch 3 with dest := some .disabled }
    ∧ (w .arming [0, 3]).state = .disabled ∧ (w .idle [3]).state = .disabled := by decide +kernel

theorem witness_CommitClampsEveryField_alternate :
    let off (u : Setup) : Setup :=
      { u with printer := put u.printer 0 { (u.printer.get 0) with enable := false, alternate := 1 } }
    let s := place fun p => committing off (Part.modJob 30 (fun x => { x with state := .waiting, moved := true })
      (Part.modQueue 0 (fun _ => [30]) (Part.modQueue 1 (fun _ => List.replicate 15 5)
        (Part.modPort 1 (fun t => { t with state := .offline, deselected := true })
          (atPort .busy id (withJob .printing p))))))
    let t := (after .commitApplication s).part
    let on (f : PrinterPort → PrinterPort) := (after .commitApplication (place fun p => committing (fun u =>
      { u with printer := put u.printer 2 { enable := true, stallS := 1, redirectS := 5, alternate := 3 } })
      (Part.modPort 2 f p))).part.port 2
    (s.part.submit.job = none ∧ (s.part.queue 0).Nodup ∧ (s.part.job 30).state = .waiting ∧ (s.part.job 30).printer = 0
      ∧ (s.part.job 31).state = .printing ∧ (s.part.port 1).state ≠ .idle
      ∧ (s.part.queue 1).length + (s.part.queue 0).length ≤ 16)
    ∧ t.queue 0 = [] ∧ t.queue 1 = List.replicate 15 5 ++ [30] ∧ t.job 30 = { s.part.job 30 with printer := 1 }
    ∧ (on fun t => { t with paperOut := true, deselected := true }).state = .paperOut
    ∧ (on fun t => { t with deselected := true }).redirect = some 5
    ∧ (on fun t => { t with deselected := true }).state = .offline := by decide +kernel

/-- A to-trunk slot for station 3/62 of the given length and data address. -/
def ttSlot (len data : Nat) (n : Byte) : List Byte :=
  [1, 0, 3, n, 0, 0, 0, 0, 0, 0, 5, 6] ++ le16 len ++ [byteOf data 0, byteOf data 1, byteOf data 2] ++ zeros 15

/-- A submission slot: the printer or job byte, the flags, the data address and the length. -/
def subSlot (printer flags job : Byte) (data len : Nat) : List Byte :=
  [1, printer, flags, job, 7, 0, byteOf data 0, byteOf data 1, byteOf data 2] ++ le16 len ++ zeros 5

/-- A list of bytes stored from an address on. -/
def storedList (a : Nat) (l : List Byte) (s : State) : State :=
  (l.zipIdx).foldl (fun s x => stored (a + x.2) x.1 s) s

/-- Branch 3 running, with station 3/62 in a state. -/
def branchRuns (st : StationState) (p : Part) : Part :=
  Part.modStation 3 62 (fun x => { x with state := st }) (switchAt .inService id p)

theorem ok_of {x : Except WalkResult (Branch × StationNo)} {t} (h : x.toOption = some t) : x = .ok t := by
  cases x <;> simp_all [Except.toOption]

theorem error_of {x : Except WalkResult (Branch × StationNo)} {r}
    (h : (match x with | .error e => some e | .ok _ => none) = some r) : x = .error r := by
  cases x <;> simp_all

/-- The part has one byte left to read for a user, after those it has. -/
def reading (u : RingUser) (a : Nat) (got : List Byte) (p : Part) : Part :=
  { p with ring := [{ user := u, addr := a, left := 1, got := got }] }

theorem reading_last (u : RingUser) (a : Nat) (got : List Byte) (p : Part) (h : p.hostWait = none) :
    (reading u a got p).lastRead u a got [] := ⟨h, rfl, by simp⟩

/-- The to-trunk walk in a state. -/
def ttWalk (st : WalkState) (due : Bool) : Part → Part :=
  Part.modToTrunk fun w => { w with state := st, retryDue := due }

theorem witness_ToTrunkChecks :
    let l := ttSlot 240 0x0FF10 62
    let run (st : StationState) := branchRuns st ready.part
    240 < ttLength (ttSlot 241 0x03000 62) ∧ ttLength l ≤ 240
    ∧ ¬ (0x03000 ≤ ttData (ttSlot 240 0x0FF11 62)
        ∧ ttData (ttSlot 240 0x0FF11 62) + ttLength (ttSlot 240 0x0FF11 62) ≤ 0x10000)
    ∧ (0x03000 ≤ ttData l ∧ ttData l + ttLength l ≤ 0x10000) ∧ ttLength (ttSlot 0 0 62) = 0
    ∧ ready.part.ttTarget (ttSlot 240 0x0FF10 64) = none ∧ (run .present).ttTarget l = some (3, 62)
    ∧ (run .present).ttTarget (ttSlot 0 0 63) = some (3, 63)
    ∧ (ready.part.switch 3).state ≠ .inService ∧ (ready.part.switch 3).state ≠ .onTrial
    ∧ ((run .present).switch 3).state = .inService
    ∧ ∀ st ∈ [StationState.present, .absent, .barred, .conflict], ((run st).station 3 62).state = st := by
  decide +kernel

theorem witness_ToTrunkWalkTakesTheSlotAtItsIndex :
    let s (st : WalkState) (due : Bool) := place (ttWalk st due)
    (ready.part.toTrunk.state = .idle ∧ (s .copying true).part.toTrunk.state ≠ .idle)
    ∧ (after (.postToTrunk 0) ready).part.ring = [{ user := .toTrunk, addr := 0x02800, left := 1, got := [] }]
    ∧ ((s .copying true).part.toTrunk.state ≠ .waiting ∧ (s .waiting false).part.toTrunk.retryDue = false)
    ∧ ((s .waiting true).part.toTrunk.state = .waiting ∧ (s .waiting true).part.toTrunk.retryDue = true
        ∧ (s .waiting true).part.ring = [] ∧ (s .waiting true).part.held = false)
    ∧ (after .toTrunkRetry (s .waiting true)).part.ring
        = [{ user := .toTrunk, addr := 0x02801, left := 16, got := [] }] := by decide +kernel

theorem witness_ToTrunkWalkTakesTheSlotAtItsIndex_targets :
    let l (m b n : Byte) : List Byte := [1, m, b, n, 9, 8, 7, 6, 5, 4] ++ zeros 22
    let known := Part.modStation 3 62 (fun st => { st with assigned := some #v[9, 8, 7, 6, 5, 4] }) ready.part
    (byteAt (l 0 3 63) 1 = 0 ∧ (byteAt (l 0 3 63) 2).toNat = (3 : Branch).val
        ∧ (byteAt (l 0 3 63) 3).toNat = (63 : StationNo).val ∧ ready.part.ttTarget (l 0 3 63) = some (3, 63))
    ∧ (4 ≤ (byteAt (l 0 4 1) 2).toNat ∧ 64 ≤ (byteAt (l 0 0 64) 3).toNat ∧ byteAt (l 0 0 0) 3 = 0)
    ∧ (byteAt (l 1 0 0) 1 = 1 ∧ known.ttTarget (l 1 0 0) = some (3, 62))
    ∧ 2 ≤ (byteAt (l 2 3 62) 1).toNat ∧ ready.part.ttTarget (l 2 3 62) = none := by decide +kernel

theorem witness_ToTrunkWalkTakesTheSlotAtItsIndex_lookup :
    let a : NodeAddr := #v[9, 8, 7, 6, 5, 4]
    let own : NodeAddr := #v[0x02, 0x53, 0x4B, 0x00, 3, 62]
    let known := Part.modStation 3 62 (fun st => { st with assigned := some a }) ready.part
    (known.station 3 62).assigned = some a ∧ known.reverseLookup a = some (3, 62) ∧ known.reverseLookup own = none
    ∧ (ready.part.station 3 62).assigned = none ∧ ready.part.reverseLookup own = some (3, 62)
    ∧ (∀ k : Fin 4, own.get (k.castLE (by omega)) = ready.part.setup.derivedPrefix.get k)
    ∧ ready.part.reverseLookup #v[0x02, 0x53, 0x4B, 0x00, 4, 62] = none
    ∧ ready.part.reverseLookup #v[0x02, 0x53, 0x4B, 0x00, 3, 63] = none := by decide +kernel

theorem witness_ToTrunkWalkTakesTheSlotAtItsIndex_mark :
    let s (pend : Bool) (v : Byte) := stored 0x02BE0 v (place fun p => reading .toTrunk 0x02BE0 []
      (Part.modToTrunk (fun w => { w with state := .working, pending := pend, index := 31 }) p))
    let t (pend : Bool) (v : Byte) := (after .memoryPortGrant (s pend v)).part
    (s true 1).part.toTrunk.state = .working
    ∧ (s true 1).part.lastRead .toTrunk (0x02800 + 32 * (s true 1).part.toTrunk.index.val) [] []
    ∧ (Mem.read (s true 1).mem 0x02BE0 = 1 ∧ Mem.read (s true 2).mem 0x02BE0 ≠ 1)
    ∧ (t true 1).ring = [{ user := .toTrunk, addr := 0x02BE1, left := 16, got := [] }]
    ∧ ((t true 2).ring = [{ user := .toTrunk, addr := 0x02BE0, left := 1, got := [] }]
        ∧ (t true 2).toTrunk.pending = false)
    ∧ ((t false 0).ring = [] ∧ (t false 0).toTrunk.state = .idle) :=
  ⟨by decide +kernel, reading_last _ _ _ _ rfl, by decide +kernel, by decide +kernel, by decide +kernel,
    by decide +kernel⟩

theorem witness_ToTrunkWalkTakesTheSlotAtItsIndex_fields :
    let l := (ttSlot 240 0x0FF10 62).take 17
    let s (st : WalkState) (x : StationState) (free : List BufNo) := storedList 0x02800 l (place fun p =>
      reading .toTrunk 0x02810 ((l.drop 1).take 15) (ttWalk st false
        { branchRuns x p with pool := { free := free, hostHeld := [] } }))
    let t (st : WalkState) (x : StationState) (free : List BufNo) := (after .memoryPortGrant (s st x free)).part
    (s .working .present [0]).part.lastRead .toTrunk 0x02810 ((l.drop 1).take 15) []
    ∧ ((l.drop 1).take 15).length = 15 ∧ 1 :: ((l.drop 1).take 15 ++ [Mem.read (s .working .present [0]).mem 0x02810]) = l
    ∧ (s .working .present [0]).part.ttCheck l = .ok (3, 62)
    ∧ (s .working .absent [0]).part.ttCheck l = .error .noStation
    ∧ ((s .working .present [0]).part.engine 3).queue.length < 32
    ∧ (∀ st ∈ [WalkState.working, .waiting], (s st .present [0]).part.toTrunk.state = st
      ∧ ((t st .present [0]).toTrunk.asking = true ∧ (t st .present [0]).toTrunk.slot = l)
      ∧ ((t st .present []).toTrunk.state = .waiting ∧ (t st .present []).toTrunk.slot = l)
      ∧ (t st .absent [0]).toTrunk.index = 1
      ∧ (t st .absent [0]).writer.queue = [slotWrite (.toTrunk 0) (toTrunkSlotBytes l 3 3 62 4) 0x0400]
      ∧ (t st .absent [0]).ring = [{ user := .toTrunk, addr := 0x02820, left := 1, got := [] }]) :=
  ⟨reading_last _ _ _ _ rfl, by decide +kernel, by decide +kernel, ok_of (by decide +kernel),
    error_of (by decide +kernel), by decide +kernel, by decide +kernel⟩

theorem witness_CopyEngineServesTheWalksInTurn :
    let s (tt sub : Bool) (last : Option Walk) (free : List BufNo) := (place fun p =>
      { Part.modToTrunk (fun w => { w with asking := tt }) (Part.modSubmit (fun w => { w with asking := sub })
          (Part.modCopy (fun c => { c with last := last }) p)) with
        pool := { free := free, hostHeld := [] } }).part
    let c : Copy := { walk := .submit, buf := 0, head := [], src := 0, left := 0, off := 0, byte := none, total := 0 }
    let busy := (place (Part.modCopy fun e => { e with current := some c })).part
    let many : List BufNo := List.finRange 33 |>.map fun i => Fin.ofNat 256 i.val
    busy.held = false ∧ busy.copy.current.isSome = true
    ∧ ((s false false none []).toTrunk.asking = false ∧ (s false false none []).submit.asking = false)
    ∧ ((s true true none [0]).copy.current = none ∧ (s true true none [0]).toTrunk.asking = true
        ∧ (s true true none [0]).copy.last ≠ some .toTrunk ∧ (s true true none [0]).pool.free = 0 :: [])
    ∧ ((s true false (some .toTrunk) []).submit.asking = false ∧ (s true false (some .toTrunk) []).pool.free = [])
    ∧ ((s true true (some .toTrunk) many).copy.last = some .toTrunk ∧ (s true true none []).setup.reserve < 32 + 1)
    ∧ (s false true none [0]).pool.free.length ≤ (s false true none [0]).setup.reserve := by decide +kernel

/-- A copy of a walk whose bytes are all in place, into buffer 9. -/
def copied (w : Walk) (total : Nat) : Part → Part :=
  let c : Copy :=
    { walk := w, buf := 9, head := [], src := 0, left := 0, off := total, byte := none, total := total }
  Part.modCopy fun e => { e with current := some c }

theorem witness_ToTrunkCopyEndAppendsTheFrame :
    let s (x : StationState) (n : Byte) (q : Nat) := place fun p => copied .toTrunk 243 (ttWalk .copying false
        (Part.modToTrunk (fun w => { w with slot := ttSlot 240 0x0FF10 n })
          (Part.modEngine 3 (fun g => { g with queue := List.replicate q (entryFor 62) }) (branchRuns x p))))
    let slot (n : Byte) := ttSlot 240 0x0FF10 n
    let done (n : Byte) := after .toTrunkCopyComplete (s .present n 31)
    (s .present 62 31).part.held = false ∧ (s .present 62 31).part.ring = []
    ∧ (∃ c, (s .present 62 31).part.copy.current = some c ∧ c.walk = .toTrunk ∧ c.head = [] ∧ c.left = 0 ∧ c.byte = none)
    ∧ (((s .present 62 31).part.engine 3).queue.length < 32 ∧ 32 ≤ ((s .present 62 32).part.engine 3).queue.length)
    ∧ (s .present 62 31).part.ttResolve (slot 62) = .ok (3, 62)
    ∧ (s .present 63 31).part.ttResolve (slot 63) = .ok (3, 63)
    ∧ (s .barred 62 31).part.ttResolve (slot 62) = .error .barred
    ∧ ((done 62).part.writer.queue = [slotWrite (.toTrunk 0) (toTrunkSlotBytes (ttSlot 240 0x0FF10 62) 2 3 62 0) 0,
          { recordWrite (.station 3 62) 0 with high := true }]
        ∨ (done 62).part.writer.queue = [{ recordWrite (.station 3 62) 0 with high := true },
          slotWrite (.toTrunk 0) (toTrunkSlotBytes (ttSlot 240 0x0FF10 62) 2 3 62 0) 0])
    ∧ ((done 63).part.writer.queue = [slotWrite (.toTrunk 0) (toTrunkSlotBytes (ttSlot 240 0x0FF10 63) 2 3 63 0) 0]
        ∧ (done 63).part.stations = (s .present 63 31).part.stations
        ∧ ((done 63).part.engine 3).queue.length = 32 ∧ (done 63).part.toTrunk.index = 1
        ∧ (done 63).part.ring = [{ user := .toTrunk, addr := 0x02820, left := 1, got := [] }])
    ∧ (after .toTrunkCopyComplete (s .present 62 32)).part.toTrunk.state = .waiting := by
  refine ⟨by decide +kernel, by decide +kernel, ⟨_, rfl, rfl, rfl, rfl, rfl⟩, by decide +kernel,
    ok_of (by decide +kernel), ok_of (by decide +kernel), error_of (by decide +kernel), by decide +kernel,
    by decide +kernel, by decide +kernel⟩

theorem witness_ToTrunkCopyEndAppendsTheFrame_target :
    let c (h : List Byte) (v : Option Byte) : Copy :=
      { walk := .toTrunk, buf := 9, head := h, src := 0, left := 0, off := 2, byte := v, total := 3 }
    let s (h : List Byte) (v : Option Byte) := place (Part.modCopy fun e => { e with current := some (c h v) })
    let got : List Byte := [1, 9, 9, 8, 7, 6, 5, 4]
    let r := stored 0x02809 3 (place fun p => reading .toTrunk 0x02809 got
      (Part.modToTrunk (fun w => { w with state := .copying, slot := (ttSlot 5 0x04000 62).take 17 }) p))
    (∀ x ∈ [([], some (7 : Byte)), ([7], none)], (s x.1 x.2).part.copy.current = some (c x.1 x.2)
      ∧ (s x.1 x.2).part.copy.stopped = none
      ∧ (Part.cycle .copy ((s x.1 x.2).part, [])).1.ring = [{ user := .toTrunk, addr := 0x02801, left := 9, got := [] }])
    ∧ r.part.lastRead .toTrunk 0x02809 got [] ∧ got.length = 8 ∧ r.part.toTrunk.state = .copying
    ∧ (after .memoryPortGrant r).part.toTrunk.slot = 1 :: (got ++ [3] ++ ((ttSlot 5 0x04000 62).take 17).drop 10)
    ∧ (after .toTrunkCopyComplete (place (Part.modCopy fun e => { e with current := some (c [7] none) }))).part.copy.current
        = some (c [7] none) :=
  ⟨by decide +kernel, reading_last _ _ _ _ rfl, rfl, rfl, by decide +kernel, by decide +kernel⟩

/-- The submission walk in a state, on a slot of job 31. -/
def subWalk (st : WalkState) (due : Bool) (x : SubmitWait) (slot : List Byte) (j : Option JobNo) : Part → Part :=
  Part.modSubmit fun w => { w with state := st, retryDue := due, wait := x, slot := slot, job := j }

/-- A walk served at a lowered limit (R80, R90): at a chain of one entry a limit of 1 ends the job, a limit of 2 gives the
walk its buffer. -/
theorem witness_CopyEngineServesTheWalksInTurn_limit :
    let s (limit : Nat) := place fun p => Part.modSubmit (fun w => { w with asking := true })
      (subWalk .working false .record (subSlot 0 2 0xFF 0x03000 256) (some 31)
        (withJob .assembling { p with setup := { p.setup with jobBufferLimit := limit } }))
    let t (limit : Nat) := (after .copyEngineServe (s limit)).part
    (∀ limit ∈ [1, 2], (s limit).part.held = false ∧ (s limit).part.copy.current = none
      ∧ (s limit).part.submit.asking = true ∧ (s limit).part.toTrunk.asking = false ∧ (s limit).part.submit.job = some 31
      ∧ ((s limit).part.job 31).state = .assembling ∧ ((s limit).part.job 31).origin = .submitted 0
      ∧ ((s limit).part.job 31).chain.length = 1 ∧ (s limit).part.setup.jobBufferLimit = limit)
    ∧ (((t 1).job 31).result = some .tooLarge ∧ (t 1).copy.current = none ∧ (t 1).submit.index = 1
      ∧ (t 1).pool.free = ready.part.pool.free ++ [255])
    ∧ ((t 2).copy.current.isSome = true ∧ ((t 2).job 31).state = .assembling) := by decide +kernel

theorem witness_SubmissionWalkTakesTheSlotAtItsIndex :
    let s (pend : Bool) (v : Byte) := stored 0x02CF0 v (place fun p => reading .submit 0x02CF0 []
      (Part.modSubmit (fun w => { w with state := .working, pending := pend, index := 15 }) p))
    let t (pend : Bool) (v : Byte) := (after .memoryPortGrant (s pend v)).part
    ((s true 1).part.submit.state ≠ .idle ∧ ready.part.submit.state = .idle)
    ∧ (after (.postSubmit 0) ready).part.ring = [{ user := .submit, addr := 0x02C00, left := 1, got := [] }]
    ∧ (s true 1).part.lastRead .submit (0x02C00 + 16 * (s true 1).part.submit.index.val) [] []
    ∧ (Mem.read (s true 1).mem 0x02CF0 = 1 ∧ Mem.read (s true 2).mem 0x02CF0 ≠ 1)
    ∧ (t true 1).ring = [{ user := .submit, addr := 0x02CF1, left := 10, got := [] }]
    ∧ ((t true 2).ring = [{ user := .submit, addr := 0x02CF0, left := 1, got := [] }]
        ∧ (t true 2).submit.pending = false)
    ∧ ((t false 0).ring = [] ∧ (t false 0).submit.state = .idle) :=
  ⟨by decide +kernel, by decide +kernel, reading_last _ _ _ _ rfl, by decide +kernel, by decide +kernel,
    by decide +kernel, by decide +kernel⟩

theorem witness_SubmissionWalkTakesTheSlotAtItsIndex_checks :
    let s (l : List Byte) (f : Part → Part) := storedList 0x02C00 (l.take 11) (place fun p =>
      reading .submit 0x02C0A ((l.drop 1).take 9) (f (subWalk .working false .record [] none p)))
    let ends (r : Byte) (l : List Byte) (f : Part → Part) : Bool :=
      let t := (after .memoryPortGrant (s l f)).part
      decide (1 :: ((l.drop 1).take 9 ++ [Mem.read (s l f).mem 0x02C0A]) = l.take 11)
        && decide (t.submit.index = 1 ∧ t.submit.state = .working ∧ t.writer.queue.map (fun w => (w.record,
          (byteAt w.content 0, byteAt w.content 11))) = [(.submit 0, (3, r))]
          ∧ t.ring = [{ user := .submit, addr := 0x02C10, left := 1, got := [] }])
    let trunk := Part.modJob 31 fun x => { x with state := .assembling, origin := .trunk 3 62 }
    ((subSlot 2 6 0xFF 0x03000 32769).drop 1 |>.take 9).length = 9
    ∧ (s (subSlot 2 6 0xFF 0x03000 32769) id).part.lastRead .submit 0x02C0A
        ((subSlot 2 6 0xFF 0x03000 32769).drop 1 |>.take 9) []
    ∧ (s (subSlot 2 6 0xFF 0x03000 32769) id).part.submit.state = .working
    ∧ (32768 < subLength (subSlot 2 6 0xFF 0x03000 32769) ∧ ends 5 (subSlot 2 6 0xFF 0x03000 32769) printersOn = true)
    ∧ ends 6 (subSlot 2 6 0xFF 0x08001 32768) printersOn = true
    ∧ (ends 2 (subSlot 3 6 0xFF 0x03000 1) printersOn = true ∧ ends 2 (subSlot 2 6 0xFF 0x08000 32768) id = true)
    ∧ (ends 3 (subSlot 0 4 32 0x03000 1) printersOn = true ∧ ends 3 (subSlot 0 4 31 0x03000 1) printersOn = true
        ∧ ends 3 (subSlot 0 4 31 0x03000 1) trunk = true) :=
  ⟨by decide +kernel, reading_last _ _ _ _ rfl, by decide +kernel, by decide +kernel, by decide +kernel,
    by decide +kernel, by decide +kernel⟩

theorem witness_SubmissionWalkTakesTheSlotAtItsIndex_opens :
    let s (l : List Byte) (f : Part → Part) := storedList 0x02C00 (l.take 11) (place fun p =>
      reading .submit 0x02C0A ((l.drop 1).take 9) (subWalk .working false .record [] none (f (printersOn p))))
    let t (l : List Byte) (f : Part → Part) := (after .memoryPortGrant (s l f)).part
    let first := subSlot 2 6 0xFF 0x08000 32768
    let next := subSlot 0 4 31 0x03000 1
    let full (p : Part) : Part := { p with jobs := Vector.replicate 32 { Job.blank with state := .assembling } }
    (subLength first ≤ 32768 ∧ 0x03000 ≤ subData first ∧ subData first + subLength first ≤ 0x10000
      ∧ subFirst first = true ∧ subPrinter first = some 2 ∧ ((s first id).part.printerSetup 2).enable = true
      ∧ (s first id).part.freeRecord = some 0 ∧ 0 < (s first id).part.setup.jobBufferLimit)
    ∧ ((s first full).part.freeRecord = none ∧ (t first full).submit.state = .waiting
        ∧ (t first full).submit.wait = .record ∧ (t first full).submit.slot = first.take 11)
    ∧ ((t first id).submit.asking = true ∧ (t first id).submit.job = some 0 ∧ ((t first id).job 0).state = .assembling
        ∧ ((t first id).writer.queue.map fun w => w.record) = [.job 0, .submit 0] ∧ (t first id).ring = [])
    ∧ (subFirst next = false ∧ subJob next = some 31 ∧ 0 < subLength next
        ∧ ((s next (withJob .assembling)).part.job 31).origin = .submitted 0
        ∧ ((s next (withJob .assembling)).part.job 31).chain.length
            < (s next (withJob .assembling)).part.setup.jobBufferLimit
        ∧ (t next (withJob .assembling)).submit.asking = true
        ∧ (t next (withJob .assembling)).submit.job = some 31) := by decide +kernel

theorem witness_SubmissionWalkGoesOn :
    let l := subSlot 0 6 0xFF 0x03000 512
    let s (x : SubmitWait) (st : JobState) :=
      place fun p => subWalk .waiting true x l (some 31) (withJob st (printersOn p))
    let copy (last : Bool) (n limit : Nat) := place fun p =>
      copied .submit 256 (subWalk .copying false .record (subSlot 0 (if last then 6 else 2) 0xFF 0x03000 n) (some 31)
        (withJob .assembling { p with setup := { p.setup with jobBufferLimit := limit } }))
    let ended (n flags r : Nat) := slotWrite (.submit 0)
      (submitSlotBytes (subSlot 0 (BitVec.ofNat 8 flags) 0xFF 0x03000 n) 3 31 r) 0x0800
    let job (n : BitVec 16) := recordWrite (.job 31) n
    (ready.part.submit.state ≠ .waiting)
    ∧ ((s .buffer .assembling).part.submit.pos < subLength l
        ∧ ((s .buffer .assembling).part.job 31).chain.length < (s .buffer .assembling).part.setup.jobBufferLimit)
    ∧ (subPrinter l = some 0 ∧ ((s .record .free).part.printerSetup 0).enable = true
        ∧ (s .record .free).part.freeRecord = some 0
        ∧ ((after .submissionRetry (s .record .free)).part.job 0).state = .assembling)
    ∧ (subLast l = true ∧ (s .room .assembling).part.closeTarget ((s .room .assembling).part.job 31).printer = 0
        ∧ ((s .room .assembling).part.queue 0).length < 16 ∧ ((s .room .assembling).part.port 0).state ≠ .idle
        ∧ (after .submissionRetry (s .room .assembling)).part.writer.queue = [job 0, ended 512 6 1]
        ∧ (after .submissionRetry (s .room .assembling)).part.queue 0 = [31]
        ∧ (after .submissionRetry (s .room .assembling)).part.ring
            = [{ user := .submit, addr := 0x02C10, left := 1, got := [] }])
    ∧ 16 ≤ ((place (Part.modQueue 0 fun _ => List.replicate 16 5)).part.queue 0).length
    ∧ ((copy true 512 3).part.submit.pos + 256 < subLength (copy true 512 3).part.submit.slot
        ∧ ((copy true 512 3).part.job 31).chain.length + 1 < (copy true 512 3).part.setup.jobBufferLimit
        ∧ (after .submissionCopyComplete (copy true 512 3)).part.submit.asking = true)
    ∧ (((copy true 512 2).part.job 31).chain.length < (copy true 512 2).part.setup.jobBufferLimit
        ∧ (copy true 512 2).part.setup.jobBufferLimit ≤ ((copy true 512 2).part.job 31).chain.length + 1
        ∧ ((copy true 512 2).part.job 31).state = .assembling ∧ ((copy true 512 2).part.job 31).origin = .submitted 0
        ∧ (after .submissionCopyComplete (copy true 512 2)).part.writer.queue = [job 0x0100, ended 512 6 4]
        ∧ (after .submissionCopyComplete (copy true 512 2)).part.pool.free = ready.part.pool.free ++ [255, 9])
    ∧ (subLength (copy false 256 3).part.submit.slot ≤ (copy false 256 3).part.submit.pos + 256
        ∧ subLast (copy false 256 3).part.submit.slot = false
        ∧ ((copy false 256 3).part.job 31).chain.length < (copy false 256 3).part.setup.jobBufferLimit
        ∧ (after .submissionCopyComplete (copy false 256 3)).part.writer.queue = [job 0, ended 256 2 1]
        ∧ (after .submissionCopyComplete (copy false 256 3)).part.submit.index = 1)
    ∧ ((copy false 256 1).part.setup.jobBufferLimit ≤ ((copy false 256 1).part.job 31).chain.length
        ∧ ((copy false 256 1).part.job 31).state = .assembling
        ∧ (after .submissionCopyComplete (copy false 256 1)).part.writer.queue = [job 0x0100, ended 256 2 4]
        ∧ ((after .submissionCopyComplete (copy false 256 1)).part.job 31).queuedBytes = 2
        ∧ (after .submissionCopyComplete (copy false 256 1)).part.pool.free = ready.part.pool.free ++ [255, 9]) := by
  decide +kernel

theorem witness_JobAbortFollowsTheStateOfTheJob :
    let s (st : JobState) (f : Part → Part) := (place fun p => f (withJob st (printersOn p))).part
    let queued := s .waiting (Part.modQueue 0 fun _ => [31])
    let printing (h : Option Byte) := s .printing (atPort .busy fun t => { t with handshake := h })
    let pend := s .printing fun p => Part.modJob 31 (fun x => { x with abortPending := true }) p
    let walk (f : Part → Part) (p : Part) :=
      f (subWalk .copying false .record (subSlot 0 6 0xFF 0x03000 512) (some 31) p)
    let stopped (f : Part → Part) := after (.jobAbort 31) (place fun p => walk f (withJob .assembling (printersOn p)))
    ((s .assembling id).job 31).state = .assembling ∧ (s .assembling id).submit.job = none
    ∧ (let o := s .assembling fun p => Part.modJob 30 (fun x => { x with state := .assembling }) (walk id p)
       o.submit.job = some 31 ∧ (o.job 31).state = .assembling ∧ (o.job 30).state = .assembling)
    ∧ ((s .assembling (walk id)).submit.job = some 31 ∧ (s .assembling (walk id)).copy.current = none
        ∧ ((s .assembling (walk id)).job 31).origin = .submitted 0)
    ∧ (s .assembling (walk (copied .submit 256))).copy.current.isSome = true
    ∧ (∀ f ∈ [id, copied .submit 256], (stopped f).part.writer.queue = [recordWrite (.job 31) 0x0100,
          slotWrite (.submit 0) (submitSlotBytes (subSlot 0 6 0xFF 0x03000 512) 3 31 7) 0x0800]
        ∧ (stopped f).part.submit.index = 1
        ∧ (stopped f).part.ring = [{ user := .submit, addr := 0x02C10, left := 1, got := [] }])
    ∧ ((stopped id).part.pool.free = ready.part.pool.free ++ [255]
        ∧ (stopped (copied .submit 256)).part.pool.free = ready.part.pool.free ++ [255, 9])
    ∧ ((queued.job 31).state = .waiting ∧ (queued.port 0).state ≠ .idle ∧ 31 ∈ queued.queue 0)
    ∧ ((s .held (atPort .paperOut id)).job 31).state = .held ∧ ((s .held (atPort .paperOut id)).port 0).state ≠ .idle
    ∧ ((printing none).job 31).state = .printing ∧ ((printing none).job 31).abortPending = false
    ∧ (((printing none).port 0).handshake = none ∧ ((printing none).port 0).state = .busy
        ∧ ((printing none).port 0).decide ((printing none).printerSetup 0).enable = .busy
        ∧ (printing none).queue 0 = [])
    ∧ ((printing (some 9)).port 0).handshake.isSome = true
    ∧ (pend.job 31).state = .printing ∧ (pend.job 31).abortPending = true
    ∧ ∀ st ∈ [JobState.free, .done, .aborted], ((s st id).job 31).state = st := by decide +kernel

theorem witness_JobAbortFollowsTheStateOfTheJob_stops :
    let c (v : Option Byte) : Copy :=
      { walk := .submit, buf := 9, head := [], src := 5, left := 1, off := 4, byte := v, total := 256 }
    let s (v : Option Byte) := place fun p => Part.modCopy (fun e => { e with current := some (c v) })
      (subWalk .copying false .record (subSlot 0 6 0xFF 0x03000 512) (some 31) (withJob .assembling (printersOn p)))
    (∀ v ∈ [none, some 7], (s v).part.submit.job = some 31 ∧ ((s v).part.job 31).state = .assembling
      ∧ ((s v).part.copy.current.map fun y => y.byte) = some v)
    ∧ (∀ v ∈ [none, some 7], (s v).takesCommands) :=
  ⟨by decide +kernel, by
    intro v h
    simp only [List.mem_cons, List.not_mem_nil, or_false] at h
    rcases h with rfl | rfl <;> exact takes_of (by decide +kernel)⟩

theorem witness_JobMoveIsCheckedAndMade :
    let s (st : JobState) (f : Part → Part) :=
      place fun p => { f (withJob st (printersOn p)) with moveJob := 31 }
    let busyPorts := Part.modPort 0 (fun t => { t with state := .busy }) ∘ Part.modPort 2 (fun t => { t with state := .busy })
    (s .free id).takesCommands ∧ ((s .free id).part.job 31).state ≠ .waiting ∧ ((s .free id).part.job 31).state ≠ .held
    ∧ (((place (withJob .waiting)).part.job 31).state = .waiting ∧ (ready.part.printerSetup 2).enable = false)
    ∧ ((s .waiting (Part.modQueue 2 fun _ => List.replicate 16 5)).part.printerSetup 2).enable = true
    ∧ 31 ∉ (s .waiting (Part.modQueue 2 fun _ => List.replicate 16 5)).part.queue 2
    ∧ 16 ≤ ((s .waiting (Part.modQueue 2 fun _ => List.replicate 16 5)).part.queue 2).length
    ∧ (s .waiting busyPorts).takesCommands ∧ ((s .waiting busyPorts).part.queue 2).length < 16
    ∧ ((s .waiting busyPorts).part.port 2).state ≠ .idle ∧ ((s .waiting busyPorts).part.port 0).state ≠ .idle
    ∧ ((s .held busyPorts).part.job 31).state = .held ∧ 31 ∉ (s .held busyPorts).part.queue 2 :=
  ⟨takes_of (by decide +kernel), by decide +kernel, by decide +kernel, by decide +kernel, by decide +kernel,
    by decide +kernel, by decide +kernel, takes_of (by decide +kernel), by decide +kernel, by decide +kernel,
    by decide +kernel, by decide +kernel, by decide +kernel⟩

theorem witness_GrantTablesAreLoadedAndScanned :
    let hit (w : Fin 5 → Bool) (i : Fin 32) : Bool := (defaultTable.get i).any w
    ready.takesCommands ∧ (ready.part.port 2).job = none ∧ ready.part.queue 2 = []
    ∧ (ready.part.port 2).loading = none ∧ ((atPort .busy id ready.part).port 0).job.isSome = true
    ∧ (hit (fun c => c == 0) 30 = true ∧ ∀ k : Fin 32, (k - 26).val < ((30 : Fin 32) - 26).val →
        hit (fun c => c == 0) k = false)
    ∧ (∀ i : Fin 32, hit (fun _ => false) i = false)
    ∧ ((27 : Fin 32) ≠ 0 ∧ ∀ i : Fin 32, 27 ≤ i → hit (fun c => c == 1) i = decide (i = 31))
    ∧ ∀ i : Fin 32, 27 ≤ i → i ≠ 29 → hit (fun c => c == 4) i = false :=
  ⟨ready_takes_commands, by decide +kernel, by decide +kernel, by decide +kernel, by decide +kernel,
    by decide +kernel, by decide +kernel, by decide +kernel, by decide +kernel⟩

theorem witness_GrantTablesAreLoadedAndScanned_grant :
    let s (o : JobOrigin) (n ptr : Nat) (tab : Option (Fin 5)) := place fun p =>
      Part.modPort 0 (fun t => { t with
          state := .paperOut, job := none, paperOut := true, pointer := Fin.ofNat 32 ptr
          table := Vector.replicate 32 tab })
        (Part.modJob 31 (fun x => { x with origin := o, state := .waiting, queuedBytes := n })
          (Part.modQueue 0 (fun _ => [31]) (withJob .waiting (printersOn p))))
    let t (o : JobOrigin) (n ptr : Nat) (tab : Option (Fin 5)) :=
      after (.printerConditionChange 0 .paperOut false) (s o n ptr tab)
    let waits (s : State) (c : Fin 5) : Bool := (s.part.queue 0).any fun j => jobClass (s.part.job j).origin = some c
    let found := s (.trunk 3 62) 2 31 (some 3)
    let nothing := s (.submitted 7) 2 5 none
    (found.part.printerSetup 0).enable = true ∧ (found.part.port 0).state = .paperOut
    ∧ ((found.part.port 0).job = none ∧ (found.part.port 0).fault = false ∧ (found.part.port 0).deselected = false
        ∧ (found.part.port 0).stalled = false ∧ (found.part.port 0).handshake = none
        ∧ (found.part.port 0).loading = none ∧ (found.part.port 0).loadPending = false)
    ∧ ((found.part.job 31).abortPending = false ∧ (∀ e ∈ (found.part.job 31).chain, e.fill ≠ 0)
        ∧ (found.part.job 31).queuedBytes ≠ 0
        ∧ scanTable (found.part.port 0).table (waits found) false 32 (found.part.port 0).pointer = .found 31
        ∧ (found.part.queue 0).find? (fun j => jobClass (found.part.job j).origin = (found.part.port 0).table.get 31)
            = some 31)
    ∧ (((t (.trunk 3 62) 2 31 (some 3)).part.port 0).job = some 31
        ∧ ((t (.trunk 3 62) 2 31 (some 3)).part.port 0).pointer = 0
        ∧ ((t (.trunk 3 62) 2 31 (some 3)).part.job 31).state = .printing
        ∧ (t (.trunk 3 62) 2 31 (some 3)).part.queue 0 = [])
    ∧ (scanTable (nothing.part.port 0).table (waits nothing) false 32 (nothing.part.port 0).pointer = .nothing
        ∧ (nothing.part.queue 0).head? = some 31
        ∧ ((t (.submitted 7) 2 5 none).part.port 0).job = some 31
        ∧ ((t (.submitted 7) 2 5 none).part.port 0).pointer = 5)
    ∧ ((s (.submitted 7) 0 5 (some 4)).part.job 31).queuedBytes = 0
    ∧ ((t (.submitted 7) 0 5 (some 4)).part.job 31).state = .done
    ∧ ((t (.submitted 7) 0 5 (some 4)).part.port 0).state = .idle := by decide +kernel

theorem witness_GrantTablesAreLoadedAndScanned_load :
    let s (n : Nat) := place fun p =>
      { Part.modPort 2 (fun t => { t with loading := some (zeros n), loadPending := true, pointer := 9 }) p with arbiter := 10 }
    let t (n : Nat) := after .memoryPortGrant (stored 0x0095F 9 (stored 0x0095E 4 (s n)))
    (∀ n ∈ [30, 31], ((s n).part.port 2).loading = some (zeros n) ∧ (s n).part.arbiter = 10
      ∧ (s n).part.loader.task = .idle ∧ (s n).part.hostWait = none ∧ ∀ i : Port, i < 2 → ((s n).part.port i).loading = none)
    ∧ (zeros 30).length + 1 < 32 ∧ (zeros 31).length + 1 = 32 ∧ (s 31).part.queue 2 = []
    ∧ ((t 30).part.port 2).loading = some (zeros 30 ++ [4])
    ∧ (((t 31).part.port 2).loading = none ∧ ((t 31).part.port 2).pointer = 0 ∧ ((t 31).part.port 2).loadPending = false
        ∧ ((t 31).part.port 2).table.get 31 = none ∧ ((t 31).part.port 2).table.get 30 = some 0)
    ∧ ((byteAt [4, 5] 0).toNat < 5 ∧ 5 ≤ (byteAt [4, 5] 1).toNat) := by decide +kernel

theorem witness_IsolateOfTheBranchHeld :
    let s (st : SwitchState) (f : Part → Part) := place fun p => { f (switchAt st id p) with branchSel := 3 }
    let out := s .inService (inPhase .reply id)
    let between := s .onTrial (inPhase .padding id)
    (out.takesCommands ∧ (out.part.switch 3).state = .inService ∧ (out.part.engine 3).state = .rounds
        ∧ (out.part.engine 3).phase.inExchange = true)
    ∧ (between.takesCommands ∧ (between.part.switch 3).state = .onTrial ∧ (between.part.engine 3).phase = .padding
        ∧ (between.part.engine 3).exch = none ∧ (between.part.engine 3).state ≠ .stopping)
    ∧ ∀ st, (s st id).takesCommands ∧ ((s st id).part.switch 3).state = st := by
  refine ⟨⟨takes_of (by decide +kernel), by decide +kernel⟩, ⟨takes_of (by decide +kernel), by decide +kernel⟩, ?_⟩
  intro st
  exact ⟨takes_of ⟨rfl, rfl, rfl⟩, by cases st <;> decide +kernel⟩

theorem witness_RestoreAndProbeOfTheBranchHeld :
    let s (st : SwitchState) := place fun p => { switchAt st id p with branchSel := 3 }
    ∀ st, (s st).takesCommands ∧ ((s st).part.switch 3).state = st ∧ ((s st).part.switch 3).rflt = false := by
  intro s st
  exact ⟨takes_of ⟨rfl, rfl, rfl⟩, by cases st <;> decide +kernel⟩

theorem witness_HostWriteFollowsItsClass :
    let w (i : ImgRecord) : ImgActive := { write := recordWrite i 0, addr := 0x00DE0, left := [1] }
    let s := place fun p =>
      { Part.modWriter (fun q => { q with active := some (w (.job 31)) }) p with
        pool := { p.pool with hostHeld := [255] } }
    (∀ a ∈ [0x03000, 0x0FFFF, 0x1FF00, 0x1FFFF, 0x00960, 0x0097F, 0x00E80, 0x00FFF, 0x02D00],
      (Instr.hostWrite (BitVec.ofNat 17 a) 1).wellFormed = true ∧ s.part.covered a = false
        ∧ writeClass s.part a = .passes)
    ∧ (∀ a ∈ [0x00980, 0x00DDF, 0x00E00, 0x00E7F, 0x01007, 0x0100F, 0x10000, 0x1FEFF],
      (Instr.hostWrite (BitVec.ofNat 17 a) 1).wellFormed = true ∧ s.part.covered a = false
        ∧ writeClass s.part a = .blocked)
    ∧ (∀ a ∈ [0x00100, 0x0095F, 0x01000, 0x01FF5, 0x02000, 0x02CFF],
      writeClass State.reset.part a = .blocked ∧ writeClass ready.part a = .passes)
    ∧ (s.part.covered 0x00DE0 = true ∧ s.part.covered 0x00DFF = true)
    ∧ (∀ a ∈ [0, 0x12, 0xFF], (Instr.hostWrite (BitVec.ofNat 17 a) 1).wellFormed = true)
    ∧ (Instr.hostWrite 0x0C 0).wellFormed = true ∧ (Instr.hostWrite 0x0C 4).wellFormed = true
    ∧ ready.busReady ∧ ready.part.loader.startState ≠ .init ∧ State.reset.part.loader.startState = .init
    ∧ (place fun p => { p with hostWait := some (.read 0) }).part.hostWait.isSome = true
    ∧ (255 : BufNo) ∈ s.part.pool.hostHeld ∧ (254 : BufNo) ∉ s.part.pool.hostHeld := by
  refine ⟨by decide +kernel, by decide +kernel, by decide +kernel, by decide +kernel, by decide +kernel,
    by decide +kernel, by decide +kernel, ⟨rfl, rfl⟩, by decide +kernel, by decide +kernel, by decide +kernel,
    by decide +kernel, by decide +kernel⟩

theorem witness_HostWriteFollowsItsClass_entries :
    let s (r : ImgRecord) := { ready.part with ring := [{ user := .entry r, addr := 0, left := 1, got := [] }] }
    (s (.unit 255)).covered 0x006FC = true ∧ (s (.unit 255)).covered 0x006FF = true
    ∧ (s (.unit 255)).covered 0x006FB = false ∧ (s (.node 63)).covered 0x008F8 = true
    ∧ (s (.node 63)).covered 0x008FF = true ∧ (s (.station 3 63)).covered 0x01FF0 = true
    ∧ (s (.station 3 63)).covered 0x01FF6 = true ∧ (s (.station 3 63)).covered 0x01FF7 = false := by decide +kernel

theorem witness_EveryHostWriteDecodesToItsCommand :
    (Instr.hostWrite 0x1FFFF 9).wellFormed = true ∧ busWrite (.hostWrite 0x1FFFF 9) = some (0x1FFFF, 9)
    ∧ busWrite (.unitMapEdit 255 1) = some (0x006FF, 1) ∧ busWrite (.bar 3 63 true) = some (0x01FF6, 3) := by decide

/-- The image writer has bytes of the record of job 31 to write. -/
def imaging (l : List Byte) : Part → Part :=
  Part.modWriter fun q => { q with active := some { write := recordWrite (.job 31) 0, addr := 0x00DFF, left := l } }

theorem witness_EveryHostWriteDecodesToItsCommand_reads :
    let s := stored 0x00DFF 7 (place (imaging [1]))
    let waits := s.hostReads 0x00DFF
    let done := after .imageWriteComplete (after .memoryPortGrant waits)
    (s.busReady ∧ s.part.covered 0x00DFF = true ∧ s.hostRead 0x00DFF = none
        ∧ waits.part.hostWait = some (.read 0x00DFF))
    ∧ (done.part.hostWait = none ∧ done.part.hostData = 1 ∧ done.part.arbiter = 0)
    ∧ (ready.part.covered 0x1FFFF = false ∧ ready.hostRead 0x1FFFF = some 0 ∧ ready.hostRead 0xFE = some 0)
    ∧ (waits.part.held = false ∧ (waits.hostReads 0x03000).part.hostWait = some (.read 0x00DFF))
    ∧ (place fun p => { p with held := true }).part.held = true := by
  refine ⟨⟨⟨rfl, rfl⟩, by decide +kernel⟩, by decide +kernel, by decide +kernel, by decide +kernel, rfl⟩

theorem witness_EveryHostWriteDecodesToItsCommand_resets :
    let s (x : HostAccess) := place fun p => { p with hostWait := some x }
    let w (a : Nat) := after .pinResetAssert (s (.write (BitVec.ofNat 17 a) 9))
    (∀ a ∈ [0x03000, 0x0FFFF], (s (.write (BitVec.ofNat 17 a) 9)).part.hostWait = some (.write (BitVec.ofNat 17 a) 9)
        ∧ (w a).mem = [(a, 9)])
    ∧ (∀ a ∈ [0x00100, 0x0095F, 0x00980, 0x00E7F, 0x01000, 0x02CFF, 0x10000, 0x1FFFF], (w a).mem = []
        ∧ (w a).part.lastBlocked.toNat = a ∧ (w a).part.notices = { latches := 0x2000, reason := some .blockedWrite, code := 0xF2 })
    ∧ (after .pinResetAssert (stored 0x1FFFF 5 (s (.read 0x1FFFF)))).part.hostData = 5 := by decide +kernel

theorem witness_StationEditChecksGoInOrder :
    let l (ctl : Byte) : List Byte := [9, 8, 7, 6, 5, 4, ctl]
    let other := Part.modStation 3 61 (fun st => { st with assigned := some #v[9, 8, 7, 6, 5, 4] }) ready.part
    let clash := Part.modStation 3 62 (fun st => { st with state := .conflict }) ready.part
    ((l 6).getD 6 0).getLsbD 1 = true ∧ ((l 6).getD 6 0).getLsbD 2 = true
    ∧ ((l 4).getD 6 0).getLsbD 2 = true ∧ ((l 4).getD 6 0).getLsbD 1 = false
    ∧ (ready.part.station 3 62).state ≠ .conflict ∧ (clash.station 3 62).state = .conflict
    ∧ (3, 61) ∈ Part.allStations ∧ ((3, 61) : Branch × StationNo) ≠ (3, 62)
    ∧ (other.station 3 61).assigned = some (addrAt (l 1) 0)
    ∧ hasPrefix ready.part.setup.derivedPrefix (addrAt [0x02, 0x53, 0x4B, 0x00, 1, 1, 1] 0) = true
    ∧ hasPrefix ready.part.setup.derivedPrefix (addrAt (l 1) 0) = false ∧ ready.part.acceptedPrefix = none := by
  decide +kernel

theorem witness_StationEditStoresAndApplies :
    let s (st : StationState) := place (Part.modStation 3 62 fun x => { x with state := st })
    let a := 0x01006 + (64 * 3 + 62) * 16
    let l (v : Byte) := Mem.readList (Mem.write [] a v) (a - 6) 7
    let w : ImgWrite := { record := .station 3 62, low := true, high := false, content := [], notices := 0 }
    controlByte true true false = 3 ∧ controlByte false false false = 0 ∧ controlByte true false true = 5
    ∧ (s .present).busReady ∧ (s .present).part.loader.startState ≠ .init ∧ Mem.wf (s .present).mem = true
    ∧ (s .present).part.covered a = false
    ∧ (place (Part.modWriter fun q => { q with queue := [w] })).part.covered a = true
    ∧ (s .present).part.editRefusal 3 62 (l 4) = some .badState ∧ (s .present).part.editRefusal 3 62 (l 2) = none
    ∧ (s .present).part.editRefusal 3 62 (l 0) = none ∧ (s .conflict).part.editRefusal 3 62 (l 4) = none
    ∧ (∀ st ∈ [StationState.present, .barred], ((s st).part.station 3 62).state = st)
    ∧ (s .barred).part.editRefusal 3 62 (l 2) = none ∧ (s .barred).part.editRefusal 3 62 (l 0) = none := by
  refine ⟨by decide, by decide, by decide, ⟨rfl, rfl⟩, by decide +kernel, by decide, by decide +kernel,
    by decide +kernel, by decide +kernel, by decide +kernel, by decide +kernel, by decide +kernel,
    by decide +kernel, by decide +kernel, by decide +kernel⟩

theorem witness_StationEditStoresAndApplies_ring :
    let s := place (Part.modStation 3 62 fun x => { x with state := .present })
    let r : RingRead := { user := .entry (.station 3 62), addr := 0x01FE0, left := 7, got := [] }
    let t (v : Byte) := after (.stationEdit 3 62 v) s
    ((t 4).part.ring = [r] ∧ (t 4).part.notices.reason = some .badState ∧ (t 4).part.writer.queue = [])
    ∧ ((t 2).part.ring = [r] ∧ ((t 2).part.station 3 62).state = .barred
        ∧ (t 2).part.writer.queue = [{ recordWrite (.station 3 62) 0 with high := true }])
    ∧ (after (.stationEdit 3 62 0) (t 2)).part.hostWait = some (.write 0x01FE6 0) := by decide +kernel

theorem witness_TableEditsStoreAndApply :
    let m (a : Nat) (v : Byte) (s : State) := Mem.write s.mem a v
    let s := stored 0x006FC 1 ready
    ready.busReady ∧ ready.part.loader.startState ≠ .init ∧ s.busReady
    ∧ ready.part.covered 0x006FF = false ∧ ready.part.covered 0x008FF = false
    ∧ readUnit (Mem.readList (m 0x006FF 15 s) 0x006FC 4) = some { kind := .node 0, mask := 15 }
    ∧ readUnit (Mem.readList (m 0x006FF 15 (stored 0x006FD 64 s)) 0x006FC 4) = none
    ∧ (64 : Byte).toNat = 64 ∧ (63 : Byte).toNat = (63 : Fin 64).val ∧ 3 ≤ (3 : Byte).toNat
    ∧ (2 : Byte).toNat = (2 : Port).val ∧ 4 ≤ (4 : Byte).toNat ∧ 4 < (5 : Byte).toNat
    ∧ (3 : Byte).toNat = (3 : Branch).val := by
  refine ⟨⟨rfl, rfl⟩, by decide +kernel, ⟨rfl, rfl⟩, ?_⟩
  decide +kernel

theorem witness_MemoryCyclesAreGrantedAndMade :
    let img (l : List Byte) : ImgActive := { write := recordWrite (.job 31) 0, addr := 0x00DE0, left := l }
    let writes := place (Part.modWriter fun q => { q with active := some (img [1]) })
    let path (o : PathOp) := place (Part.modPath 3 fun _ => [o])
    let cp (h : List Byte) (n : Nat) (v : Option Byte) := place (Part.modCopy fun e =>
      let c : Copy := { walk := .submit, buf := 255, head := h, src := 0x0FFFF, left := n, off := 255, byte := v, total := 1 }
      { e with current := some c })
    let busy := place fun p => atPort .busy id (withJob .printing p)
    let task (t : LoaderTask) := place (Part.modLoader fun q => { q with task := t })
    let waits (x : HostAccess) (f : Part → Part) := place fun p => f { p with hostWait := some x }
    let writing := fun p => Part.modLoader (fun q => { q with task := .writing Setup.default 511 }) p
    let imaging := fun p => Part.modWriter (fun q => { q with active := some (img [1]) }) p
    ready.part.held = false ∧ ready.part.hostWait = none
    ∧ (∀ i : Fin 11, ready.part.asks (Requester.ofIndex i) = false)
    ∧ (writes.part.asks (Requester.ofIndex 0) = true ∧ writes.part.arbiter = 0)
    ∧ (∀ k : Fin 11, (k - (task (.reading [])).part.arbiter).val < ((10 : Fin 11) - (task (.reading [])).part.arbiter).val →
        (task (.reading [])).part.asks (Requester.ofIndex k) = false)
    ∧ (task (.reading [])).part.asks (Requester.ofIndex 10) = true
    ∧ ((waits (.read 0x002FF) writing).part.setupWritten 0x002FF = true
        ∧ (waits (.read 0x002FF) writing).part.asks .loader = true)
    ∧ ((waits (.read 0x00DFF) imaging).part.setupWritten 0x00DFF = false
        ∧ (waits (.read 0x00DFF) imaging).part.imageWritten 0x00DFF = true
        ∧ (waits (.read 0x00DFF) imaging).part.asks .imageWriter = true)
    ∧ (∀ r ∈ (waits (.read 0x00DFF) imaging).part.ring, r.watches 0x00DFF = false)
    ∧ (waits (.read 0x1FFFF) id).part.covered 0x1FFFF = false
    ∧ ((waits (.write 0x0FFFF 1) id).part.covered 0x0FFFF = false ∧ (Instr.hostWrite 0x0FFFF 1).wellFormed = true
        ∧ writeClass (waits (.write 0x0FFFF 1) id).part 0x0FFFF = .passes)
    ∧ (img [1]).left = [1] ∧ (path (.write 255 242 9)).part.path 3 = [.write 255 242 9]
    ∧ ((path (.shift 255 240 239 none)).part.path 3 = [.shift 255 240 239 none] ∧ 239 < 240)
    ∧ (path (.shift 255 240 239 (some 7))).part.path 3 = [.shift 255 240 239 (some 7)]
    ∧ (path (.shift 255 240 240 none)).part.path 3 = [.shift 255 240 240 none]
    ∧ (cp [9] 1 none).part.copy.current.isSome = true ∧ (cp [] 1 none).part.copy.current.isSome = true
    ∧ (cp [] 0 (some 7)).part.copy.current.isSome = true
    ∧ busy.part.readerWants 0 = some 0x1FF00
    ∧ (∀ k : Port, ((task (.reading (zeros 511))).part.port k).loading = none)
    ∧ (task (.reading (zeros 511))).part.loader.task = .reading (zeros 511) ∧ (zeros 511).length < 512
    ∧ (task (.writing Setup.default 511)).part.loader.task = .writing Setup.default 511 := by
  decide +kernel

theorem witness_MemoryCyclesAreGrantedAndMade_ring :
    let r (u : RingUser) (a n : Nat) (l : List Byte) : RingRead := { user := u, addr := a, left := n, got := l }
    let s (h : Option HostAccess) (l : List RingRead) := place fun p => { imaging [1] p with
      hostWait := h, ring := l, arbiter := 9 }
    let x := s (some (.read 0x006FC)) [r .router 0x027E0 1 [], r (.entry (.unit 255)) 0x006FC 4 []]
    let t (l : List RingRead) := (after .memoryPortGrant (s none l)).part
    (x.part.setupWritten 0x006FC = false ∧ x.part.covered 0x006FC = true
      ∧ (x.part.ring.find? fun r => r.watches 0x006FC) = some (r (.entry (.unit 255)) 0x006FC 4 []))
    ∧ (after .memoryPortGrant x).part.ring = [r .router 0x027E0 1 [], r (.entry (.unit 255)) 0x006FD 3 [0]]
    ∧ (after .memoryPortGrant x).part.hostWait = some (.read 0x006FC) ∧ (after .memoryPortGrant x).part.arbiter = 9
    ∧ (s none [r .router 0 1 []]).part.asks .ring = true ∧ (t [r .router 0 1 []]).arbiter = 10
    ∧ (t [r .toTrunk 5 2 [], r .toTrunk 9 1 [], r .router 7 1 []]).ring
        = [r .router 7 1 [], r .toTrunk 6 1 [0], r .toTrunk 9 1 []]
    ∧ (t [r (.entry (.node 0)) 5 2 [8], r .router 7 1 [], r (.entry (.unit 1)) 9 4 []]).ring
        = [r .router 7 1 [], r (.entry (.node 0)) 6 1 [8, 0], r (.entry (.unit 1)) 9 4 []]
    ∧ (∀ y ∈ [r .router 0x027E0 1 [], r .toTrunk 0x006FC 4 [], r .submit 0x006FC 4 []],
        y.watches 0x006FC = false) := by decide +kernel

theorem witness_MemoryCyclesAreGrantedAndMade_send :
    let t (l : List Byte) : TxRead := { buf := 255, ctl := 6, got := l }
    let s (l : List Byte) := stored 0x1FF04 9 (stored 0x1FF02 2 (stored 0x1FF00 7 (place
      (Part.modEngine 3 fun g => { g with txRead := some (t l) }))))
    let c (l : List Byte) := (Part.cycle (.receive 3) ((s l).part, (s l).mem)).1
    (∀ l ∈ [[], [7], [7, 2], [7, 2, 0]], (s l).part.path 3 = [] ∧ ((s l).part.engine 3).txRead = some (t l))
    ∧ ((c []).engine 3).txRead = some (t [7]) ∧ ((c [7]).engine 3).txRead = some (t [7, 2])
    ∧ ((c [7, 2]).engine 3).txRead = some (t [7, 2, 0])
    ∧ ((c [7, 2, 0]).engine 3).txRead = none ∧ ((c [7, 2, 0]).engine 3).sent = frameChars 7 6 2 [0, 9] := by
  decide +kernel

theorem witness_MemoryCyclesAreGrantedAndMade_initialise :
    let s (soft : Bool) (pos : Nat) (l : List Byte) := stored 0x008FE 1 (stored 0x006FF 0x0F (stored 0x006FC 1 (place
      (Part.modLoader fun q => { q with task := .initialise soft pos l }))))
    let c (soft : Bool) (pos : Nat) (l : List Byte) := Part.cycle .loader ((s soft pos l).part, [(0x1FFFF, 9)])
    let d (pos : Nat) (l : List Byte) := Part.cycle .loader ((s true pos l).part, (s true pos l).mem)
    ((s false 10847 []).part.loader.task = .initialise false 10847 [] ∧ 10592 + 255 = 10847)
    ∧ (∀ x ∈ [(0, (0x00100, byteAt (setupImage Setup.default) 0)), (511, (0x002FF, byteAt (setupImage Setup.default) 511)),
          (512, (0x00300, 0)), (1535, (0x006FF, 0x0F)), (1536, (0x00700, 0)), (2047, (0x008FF, 0)), (2048, (0x00900, 0)),
          (2143, (0x0095F, 1)), (2144, (0x01000, 0)), (6239, (0x01FFF, 0)), (6240, (0x00A00, 0)), (7249, (0x00DF1, 31)),
          (7263, (0x00DFF, 0)), (7264, (0x00980, 0)), (7391, (0x009FF, 0)), (7392, (0x00E00, 0)), (7519, (0x00E7F, 0)),
          (7520, (0x02000, 0)), (9567, (0x027FF, 0)), (9568, (0x02800, 0)), (10591, (0x02BFF, 0)), (10592, (0x02C00, 0)),
          (10847, (0x02CFF, 0))],
        (c false x.1 []).2 = Mem.write [(0x1FFFF, 9)] x.2.1 x.2.2 ∧ (c false x.1 []).1.loader.task = .initialise false (x.1 + 1) [])
    ∧ ((d 2040 []).1.loader.task = .initialise true 2041 [1]
        ∧ (d 2043 [1, 5, 0]).1.units.get 255 = { kind := .node 5, mask := 15 }
        ∧ (d 2043 [1, 5, 0]).1.loader.task = .initialise true 2044 []
        ∧ (d 2047 []).2 = Mem.write (s true 0 []).mem 0x006FF 15)
    ∧ ((d 3062 [9, 8, 7, 6, 5, 4]).1.loader.task = .initialise true 3063 [9, 8, 7, 6, 5, 4, 1]
        ∧ (d 3063 [9, 8, 7, 6, 5, 4, 1]).1.nodes.get 63 = { addr := #v[9, 8, 7, 6, 5, 4], valid := true }
        ∧ (d 3071 []).2 = Mem.write (s true 0 []).mem 0x008FF 0)
    ∧ ((d 3072 []).2 = Mem.write (s true 0 []).mem 0x01000 0 ∧ (d 11775 []).1.loader.task = .initialise true 11776 []) := by
  decide +kernel

theorem witness_MemoryCyclesAreGrantedAndMade_writeBack :
    let c (e : ImgRecord) (n : Nat) := (Part.cycle .ring ({ ready.part with
      ring := [{ user := .entry e, addr := 9, left := n, got := [] }] }, [])).1
    (c (.unit 255) 2).writer.queue = [] ∧ (c (.unit 255) 2).ring = [{ user := .entry (.unit 255), addr := 10, left := 1, got := [0] }]
    ∧ ((c (.unit 255) 1).writer.queue = [slotWrite (.unit 255) [0, 0, 0, 15] 0] ∧ (c (.unit 255) 1).ring = [])
    ∧ (c (.node 63) 1).writer.queue = [slotWrite (.node 63) (zeros 8) 0]
    ∧ (c (.station 3 63) 1).writer.queue = [{ recordWrite (.station 3 63) 0 with low := true }] := by decide +kernel

theorem witness_MemoryCyclesAreGrantedAndMade_printer :
    let s (late : Bool) := place fun p =>
      atPort .busy (fun t => { t with abandoned := true, overdue := late }) (withJob .printing p)
    let t (late : Bool) := (Part.cycle (.printer 0) ((s late).part, [(0x1FF00, 9)])).1.port 0
    (∀ late ∈ [false, true], (s late).part.readerWants 0 = some 0x1FF00 ∧ ((s late).part.port 0).overdue = late)
    ∧ ((t false).fetched = some 9 ∧ (t false).abandoned = true)
    ∧ (t true).fetched = some 9 ∧ (t true).abandoned = false ∧ (t true).overdue = false := by decide +kernel

theorem witness_MemoryCyclesAreGrantedAndMade_stopped :
    let y : LastByte := { buf := 255, off := 255, value := 7 }
    (place (Part.modPath 3 fun _ => [.last y])).part.path 3 = [.last y]
    ∧ (place (Part.modCopy fun e => { e with stopped := some y })).part.copy.stopped = some y
    ∧ (place (copied .submit 256)).part.copy.stopped = none := by decide +kernel

theorem witness_MemoryCyclesAreGrantedAndMade_alone :
    let p : Part := { ready.part with
      ring := [{ user := .entry (.unit 255), addr := 0x006FC, left := 3 + 1, got := [] }] }
    RingUser.entry (.unit 255) ≠ .router ∧ p.hostWait = none
    ∧ (Part.cycles .ring 4 (p, [])).1.writer.queue = [slotWrite (.unit 255) [0, 0, 0, 15] 0] := by decide +kernel

theorem witness_ImageWritesBeginAndEnd :
    let w (r : ImgRecord) (low high : Bool) : ImgWrite :=
      { record := r, low := low, high := high, content := [2], notices := 0 }
    let queued (x : ImgWrite) := place (Part.modWriter fun q => { q with queue := [x] })
    let active (l : List Byte) (h : Option HostAccess) := place fun p =>
      let a : ImgActive := { write := w (.probe 3) false false, addr := 0x00E80, left := l }
      { Part.modWriter (fun q => { q with active := some a }) p with hostWait := h }
    (∀ r ∈ [ImgRecord.job 31, .capture 3, .probe 3, .fromTrunk 63, .toTrunk 31, .submit 15, .unit 255, .node 63],
      (queued (w r false false)).part.writer.queue = w r false false :: [])
    ∧ (∀ h ∈ [false, true], ∀ l ∈ [false, true],
      (queued (w (.station 3 63) l h)).part.writer.queue = [w (.station 3 63) l h]
        ∧ (queued (w (.station 3 63) l h)).part.writer.active = none)
    ∧ (active [] none).part.hostWait = none ∧ (active [] (some (.read 0x00E7F))).part.hostWait = some (.read 0x00E7F)
    ∧ (active [] (some (.read 0x00E7F))).part.setupWritten 0x00E7F = false
    ∧ (∀ x ∈ (active [] (some (.read 0x00E7F))).part.writer.queue, x.coversWatched 0x00E7F = false)
    ∧ (active [1] none).part.writer.active.isSome = true := by decide +kernel

theorem witness_ImageWritesBeginAndEnd_entry :
    let w : ImgWrite := slotWrite (.unit 255) [0, 0, 0, 9] 0
    let s := place fun p => { Part.modWriter (fun q => { q with queue := [w] }) p with
      ring := [{ user := .entry (.node 63), addr := 0x008F8, left := 8, got := [] }] }
    (after .imageWriteBegin s).part.writer = { queue := [], active := some { write := w, addr := 0x006FC, left := [0, 0, 0, 9] } }
    ∧ (∀ x ∈ s.part.ring, x.watches 0x006FC = false) := by decide +kernel

/-- The engine of branch 3 with an exchange in progress. -/
def exchanging (ph : Phase) (x : Exchange) (f : Engine → Engine) (p : Part) : Part :=
  inPhase ph (fun g => f { g with exch := some x, reservation := some 7 }) p

theorem witness_TransmissionEndOpensTheWindow :
    let x (k : ExchKind) (n : StationNo) : Exchange :=
      { exchange k Reply.blank with station := n, entry := if k = .poll then none else some 254 }
    let s (ph : Phase) (k : ExchKind) (n : StationNo) (f : Engine → Engine) := place (exchanging ph (x k n) f)
    let reads : TxRead := { buf := 254, ctl := 6, got := [] }
    (∀ k ∈ [ExchKind.poll, .sweep, .send], ((s .transmit k 62 id).part.engine 3).exch = some (x k 62)
      ∧ ((s .transmit k 62 id).part.engine 3).phase = .transmit ∧ ((s .transmit k 62 id).part.engine 3).txRead = none)
    ∧ ((s .owed .poll 62 id).part.engine 3).phase = .owed
    ∧ ((s .transmit .send 62 fun g => { g with txRead := some reads }).part.engine 3).txRead.isSome = true
    ∧ (let t := s .transmit .broadcast 63 fun g => { g with queue := [entryFor 63] }
       (t.part.engine 3).queue = [entryFor 63] ∧ (x .broadcast 63).entry = some (entryFor 63).buf
        ∧ (x .broadcast 63).endCode = none ∧ (entryFor 63).target = 63 ∧ (entryFor 63).origin = .relay 0 1
        ∧ (t.part.engine 3).txRead = none) := by decide +kernel

theorem witness_TransmissionEndOpensTheWindow_slot :
    let x : Exchange := { exchange .broadcast Reply.blank with station := 63, entry := some 254 }
    let e : TxEntry := { entryFor 63 with origin := .slot 31 (zeros 32) }
    let s := place (exchanging .transmit x fun g => { g with queue := [e] })
    (s.part.engine 3).queue = e :: [] ∧ e.origin = .slot 31 (zeros 32) ∧ x.entry = some e.buf ∧ e.target = 63
    ∧ (after (.transmissionEnd 3) s).part.writer.queue
        = [slotWrite (.toTrunk 31) (toTrunkSlotBytes (zeros 32) 3 0 0 2) 0x0400] := by decide +kernel

theorem witness_CharactersOutsideAReply :
    let s (ph : Phase) (a : Option ArriveIn) (r : Option (List (Byte × Bool))) :=
      place (inPhase ph fun g => { g with arriving := a, strayRun := r })
    (∀ ph ∈ [Phase.transmit, .owed, .quiet, .listen, .verdict, .turnaround, .none, .padding, .window, .reply],
      ∀ a ∈ [none, some ArriveIn.slot, some .past, some .elsewhere],
      ((s ph a none).part.engine 3).phase = ph ∧ ((s ph a none).part.engine 3).state ≠ .stopped
        ∧ ((s ph a none).part.engine 3).arriving = a)
    ∧ (ready.part.engine 3).state = .stopped
    ∧ (let t := s .padding none (some (List.replicate 8 (0xFF, true)))
       (t.part.engine 3).strayRun = some (List.replicate 8 (0xFF, true)) ∧ (t.part.engine 3).phase ≠ .listen
        ∧ (t.part.sup 3).capture.valid = false ∧ (t.part.branchSetup 3).captureMask.getLsbD 4 = true
        ∧ (t.part.engine 3).arriving = none)
    ∧ (ready.part.engine 3).strayRun = none := by decide +kernel

/-- A character that begins in a listen slot and ends in the next, which follows at once on an empty poll list with
no buffer for a sweep POLL, is complete in neither (R125). -/
theorem test_character_across_two_slots :
    let s := place fun p => { Part.modEngine 3 (fun g => { g with
        state := .rounds, phase := .listen, spoke := true, rxLevel := false, arriving := some .slot }) p with
      pool := { free := [], hostHeld := [] } }
    let t := after (.listenSlotEnd 3) s
    let u := after (.receiveCharacter 3 { data := 1, mark := false, stop := true }) t
    (t.part.engine 3).phase = .listen ∧ (t.part.engine 3).round = 1 ∧ (t.part.engine 3).arriving = some .past
    ∧ (u.part.sup 3).gate.complete = 0 ∧ (u.part.engine 3).strayRun = none ∧ (u.part.engine 3).arriving = none := by
  decide +kernel

theorem test_stopped_shift_writes_the_byte_in_progress :
    let s (v : Option Byte) := place fun p => Part.modPath 3 (fun _ => [.shift 255 240 4 v, .write 255 0 1, .write 9 0 1])
      (withJob .assembling (printersOn p))
    let t (v : Option Byte) := after (.jobAbort 31) (s v)
    (t none).part.path 3 = [.write 9 0 1]
    ∧ (t (some 7)).part.path 3 = [.last { buf := 255, off := 4, value := 7 }, .write 9 0 1]
    ∧ (t (some 7)).part.pool.free = ready.part.pool.free ++ [255]
    ∧ (after .memoryPortGrant (t (some 7))).mem = [(0x1FF04, 7)]
    ∧ (after .memoryPortGrant (t (some 7))).part.path 3 = [.write 9 0 1] := by decide +kernel

theorem test_stopped_copy_writes_the_byte_in_progress :
    let c (v : Option Byte) : Copy :=
      { walk := .submit, buf := 9, head := [], src := 0x03005, left := 250, off := 4, byte := v, total := 256 }
    let s (v : Option Byte) := place fun p => Part.modCopy (fun e => { e with current := some (c v) })
      (subWalk .copying false .record (subSlot 0 6 0xFF 0x03000 512) (some 31) (withJob .assembling (printersOn p)))
    let t (v : Option Byte) := after (.jobAbort 31) (s v)
    let y : LastByte := { buf := 9, off := 4, value := 7 }
    (t none).part.copy = { current := none, last := some .submit, stopped := none }
    ∧ (t (some 7)).part.copy = { current := none, last := some .submit, stopped := some y }
    ∧ (t (some 7)).part.pool.free = ready.part.pool.free ++ [255, 9]
    ∧ (Part.copyCycle ((t (some 7)).part, [])).2 = [(0x10904, 7)]
    ∧ (Part.copyCycle ((t (some 7)).part, [])).1.copy.stopped = none
    ∧ (t (some 7)).part.asks .copy = true ∧ (t none).part.asks .copy = false := by decide +kernel

/-- A retry takes what memory holds, not an image of the slot that waits to be written (R74). -/
theorem test_retry_reads_the_slot_from_memory :
    let l := (ttSlot 5 0x04000 62).take 17
    let old := slotWrite (.toTrunk 0) (toTrunkSlotBytes (ttSlot 9 0x03000 63) 3 3 63 1) 0x0400
    let s := storedList 0x02800 l (place fun p => reading .toTrunk 0x02810 ((l.drop 1).take 15)
      (ttWalk .waiting false (Part.modWriter (fun q => { q with queue := [old] }) (branchRuns .present p))))
    let t := (after .memoryPortGrant s).part
    t.toTrunk.asking = true ∧ t.toTrunk.slot = l ∧ t.writer.queue = [old] := by decide +kernel

/-- The target read again after the copy stands in the slot as it is written back (R74, R193). -/
theorem test_taken_slot_carries_the_target_read_after_the_copy :
    let new := Part.retarget (ttSlot 0 0 62) [1, 9, 9, 2, 0x53, 0x4B, 0, 3, 62]
    let s := place fun p => copied .toTrunk 3 (ttWalk .copying false
      (Part.modToTrunk (fun w => { w with slot := new }) (branchRuns .present p)))
    (after .toTrunkCopyComplete s).part.writer.queue.map (fun w => (w.record, w.content.take 10))
      = [(.station 3 62, []), (.toTrunk 0, [2, 1, 3, 62, 2, 0x53, 0x4B, 0, 3, 62])] := by decide +kernel

theorem test_gap_of_a_stray_run_waits_for_a_start_bit :
    let s (a : Option ArriveIn) := place (inPhase .padding fun g => { g with strayRun := some [(9, false)], arriving := a })
    let t (a : Option ArriveIn) := (after (.strayRunEnd 3) (s a)).part
    ((t (some .elsewhere)).engine 3).strayRun = some [(9, false)] ∧ ((t none).engine 3).strayRun = none
    ∧ ((t none).sup 3).kinds.get 4 = 1 := by decide +kernel

theorem witness_RepliesAreTakenCharacterByCharacter :
    let r (t : RxStage) : Reply := { Reply.blank with stage := t, len := 240, got := 239 }
    let s (ph : Phase) (k : ExchKind) (t : RxStage) :=
      place (exchanging ph (exchange k (r t)) fun g => { g with arriving := some .elsewhere })
    (∀ k ∈ [ExchKind.poll, .sweep, .send], ∀ t ∈ [RxStage.first, .unit, .ctl, .len, .payload, .checkHi],
      ∀ ph ∈ [Phase.window, .reply], ((s ph k t).part.engine 3).phase = ph
        ∧ ((s ph k t).part.engine 3).exch = some (exchange k (r t)) ∧ ((s ph k t).part.engine 3).state = .rounds
        ∧ ((s ph k t).part.engine 3).arriving = some .elsewhere ∧ ((s ph k t).part.engine 3).reservation = some 7)
    ∧ (0xFE : Byte).toNat % 64 = (exchange .send Reply.blank).station.val ∧ (0xFE : Byte).toNat / 64 = 3
    ∧ (0xBE : Byte).toNat % 64 = (exchange .poll Reply.blank).station.val ∧ (0xBE : Byte).toNat / 64 = 2
    ∧ (exchange .poll Reply.blank).kind ≠ .send ∧ (240 : Byte).toNat ≤ 240 ∧ (0 : Byte).toNat ≤ 240
    ∧ (r .payload).got + 1 = (r .payload).len := by decide +kernel

/-- Branch 3 in the reply of an exchange whose next character is arriving. -/
def replying (x : Exchange) (f : Engine → Engine) : Part → Part :=
  exchanging .reply x fun g => f { g with arriving := some .elsewhere }

theorem witness_StatusCodesEndTheReply :
    let r : Reply := { Reply.blank with stage := .code }
    let send : Exchange := { exchange .send r with entry := some 254 }
    let e (n : Nat) : TxEntry := { entryFor 62 with hold := n }
    let s (x : Exchange) (n : Nat) :=
      place fun p => replying x (fun g => { g with queue := [e n] }) (present p)
    let sweeps (st : StationState) := place fun p => replying (exchange .sweep r) (fun g => { g with pollList := [] })
      (Part.modStation 3 62 (fun x => { x with state := st, miss := 2, garble := 3, rxValid := true }) p)
    let t (st : StationState) := after (.receiveCharacter 3 { data := 0, mark := false, stop := true }) (sweeps st)
    (∀ v ∈ [false, true], ((s { exchange .poll r with void := v } 0).part.engine 3).exch
        = some { exchange .poll r with void := v })
    ∧ ((s send 0).part.station 3 62).state = .present ∧ (ready.part.station 3 62).state ≠ .present
    ∧ ((s send 19).part.engine 3).exch = some send ∧ ((s send 19).part.engine 3).queue = e 19 :: []
    ∧ ((s send 19).part.engine 3).phase = .reply ∧ ((s send 19).part.engine 3).state = .rounds
    ∧ ((s send 19).part.engine 3).arriving = some .elsewhere
    ∧ send.entry = some (e 19).buf ∧ (e 19).target = send.station ∧ send.station ≠ 63 ∧ (e 19).origin = .relay 0 1
    ∧ send.seq = true ∧ ({ send with seq := false } : Exchange).seq = false
    ∧ 18 + 1 < ((s send 18).part.branchSetup 3).holdLimit
    ∧ ((s send 19).part.branchSetup 3).holdLimit ≤ 19 + 1
    ∧ (∀ st ∈ [StationState.absent, .present, .barred, .conflict],
        ((sweeps st).part.engine 3).exch = some (exchange .sweep r) ∧ ((sweeps st).part.station 3 62).state = st)
    ∧ (((t .absent).part.station 3 62).state = .present ∧ ((t .absent).part.station 3 62).garble = 0
        ∧ ((t .absent).part.engine 3).pollList = [62] ∧ (t .absent).part.notices.latches = 0x40)
    ∧ ((t .conflict).part.station 3 62).state = .conflict := by decide +kernel

theorem witness_StatusCodesEndTheReply_slot :
    let send : Exchange := { exchange .send { Reply.blank with stage := .code } with entry := some 254 }
    let e (n : Nat) : TxEntry := { entryFor 62 with hold := n, origin := .slot 31 (zeros 32) }
    let s (n : Nat) := place fun p => replying send (fun g => { g with queue := [e n] })
      (Part.modStation 3 62 (fun x => { x with state := .present, queued := 1 }) p)
    let t (n : Nat) (v : Byte) := (after (.receiveCharacter 3 { data := v, mark := false, stop := true }) (s n)).part
    let writes (code : Nat) := [{ recordWrite (.station 3 62) 0 with high := true },
      slotWrite (.toTrunk 31) (toTrunkSlotBytes (zeros 32) 3 0 0 code) 0x0400]
    ((s 19).part.engine 3).queue = e 19 :: [] ∧ ((s 19).part.station 3 62).queued ≠ 0 ∧ send.seq = true
    ∧ ((t 0 0x11).writer.queue = writes 1 ∧ ((t 0 0x11).engine 3).queue = [])
    ∧ ((t 19 0x20).writer.queue = writes 3 ∧ ((t 19 0x20).engine 3).relayDropped = 0) := by decide +kernel

theorem witness_GarbledRepliesAreScored :
    let r (t : RxStage) : Reply := { Reply.blank with stage := t }
    let s (ph : Phase) (k : ExchKind) (t : RxStage) (a : Option ArriveIn) :=
      place (exchanging ph (exchange k (r t)) fun g => { g with arriving := a })
    let known (st : StationState) (n score : Nat) := place fun p => replying (exchange .poll (r .first)) id
      (Part.modSup 3 (fun u => { u with score := score })
        (Part.modStation 3 62 (fun x => { x with state := st, garble := n }) p))
    let t (st : StationState) (n score : Nat) :=
      (after (.receiveCharacter 3 { data := 0, mark := true, stop := false }) (known st n score)).part
    (∀ k ∈ [ExchKind.poll, .sweep, .send], ∀ t ∈ [RxStage.first, .code, .len, .checkLo],
      ∀ ph ∈ [Phase.window, .reply], ∀ a ∈ [none, some ArriveIn.elsewhere], ((s ph k t a).part.engine 3).phase = ph
        ∧ ((s ph k t a).part.engine 3).exch = some (exchange k (r t)) ∧ ((s ph k t a).part.engine 3).state = .rounds
        ∧ ((s ph k t a).part.engine 3).arriving = a)
    ∧ ((0xFD : Byte).toNat % 64 ≠ 62 ∧ (0x7E : Byte).toNat / 64 < 2 ∧ (0xBE : Byte).toNat / 64 = 2)
    ∧ ((0x01 : Byte) ≠ 0x00 ∧ (0x10 : Byte) ≠ 0x20
        ∧ (0x10 : Byte) ≠ (if (exchange .send (r .code)).seq then 0x11 else 0x10))
    ∧ 240 < (241 : Byte).toNat ∧ (r .checkLo).crc ≠ (r .checkLo).checkHi ++ (0 : Byte)
    ∧ ((ready.part.branchSetup 3).tw = 256 ∧ (ready.part.branchSetup 3).conflictLimit = 4)
    ∧ (∀ st ∈ [StationState.present, .absent], (((t st 2 255).station 3 62).garble = 3 ∧ ((t st 2 255).station 3 62).state = st)
        ∧ (((t st 3 255).station 3 62).garble = 4 ∧ ((t st 3 255).station 3 62).state = .conflict
            ∧ (t st 3 255).notices.latches.getLsbD 6 = true)
        ∧ ((t st 3 256).station 3 62).garble = 3)
    ∧ 62 ∉ ((t .present 3 255).engine 3).pollList
    ∧ ∀ st ∈ [StationState.barred, .conflict], ((t st 3 0).station 3 62).garble = 3 := by decide +kernel

/-- A good frame from station 3/62 to unit 255, its last check character due and arriving. -/
def goodFrame (ctl : Byte) (u : UnitKind) (mask : BitVec 4) (f : Part → Part) : State :=
  let r : Reply := { Reply.blank with
    stage := .checkLo, unit := 255, ctl := ctl, len := 240, crc := 0x1234, checkHi := 0x12 }
  place fun p => f (replying (exchange .poll r) id (present
    { printersOn p with units := put p.units 255 { kind := u, mask := mask } }))

/-- The state after that character. -/
def routed (s : State) : State := after (.receiveCharacter 3 { data := 0x34, mark := false, stop := true }) s

/-- The status code that a good frame is answered with, and whether its buffer has left the reservation. -/
def verdict (s : State) : List (Byte × Bool) × Bool :=
  (((routed s).part.engine 3).sent, ((routed s).part.engine 3).reservation.isNone)

/-- The answer of a verdict as `verdict` shows it. -/
def answer (code : Byte) : List (Byte × Bool) := [(0xFE, true), (code, false)]

theorem witness_GoodFramesAreOfferedToTheRouter :
    let st (f : Station → Station) := Part.modStation 3 62 f
    let s := goodFrame 6 .localUnit 0x8 id
    let bridge := goodFrame 7 (.node 63) 0x8 fun p =>
      { p with nodes := put p.nodes 63 { addr := #v[1, 2, 3, 4, 5, 6], valid := true } }
    let swept := goodFrame 6 .unassigned 0xF fun p => st (fun x => { x with state := .absent })
      (Part.modEngine 3 (fun g => { g with exch := g.exch.map fun x => { x with kind := .sweep } }) p)
    (∀ t ∈ [s, bridge, swept], t.part.held = false ∧ (t.part.engine 3).state ≠ .stopped
        ∧ (t.part.engine 3).arriving = some .elsewhere ∧ (t.part.engine 3).phase = .reply
        ∧ (t.part.engine 3).reservation = some 7)
    ∧ ((s.part.engine 3).exch.any fun x => x.kind = .poll && !x.void && x.reply.stage = .checkLo
        && x.reply.crc = 0x1234 && x.reply.checkHi = 0x12) = true
    ∧ (0x1234 : BitVec 16) = (0x12 : Byte) ++ (0x34 : Byte)
    ∧ ((s.part.station 3 62).state = .present ∧ (s.part.station 3 62).rxValid = false)
    ∧ (∀ x ∈ [goodFrame 6 .localUnit 0x8 (st fun x => { x with state := .barred }), goodFrame 6 .unassigned 0xF id,
        goodFrame 6 .localUnit 0x7 id, goodFrame 6 (.node 63) 0xF id, swept], verdict x = (answer 0x30, false))
    ∧ (((routed swept).part.station 3 62).state = .present
        ∧ (routed swept).part.router.unroutable.get 3 = 1)
    ∧ verdict (goodFrame 7 .unassigned 0xF (st fun x => { x with rxValid := true, rxLast := true })) = (answer 0x11, false)
    ∧ ∀ x ∈ [s, bridge], ((routed x).part.engine 3).phase = .verdict ∧ (routed x).part.router.offers.length = 1
        ∧ (routed x).part.ring = [{ user := .router, addr := 0x02000, left := 1, got := [] }] := by
  decide +kernel

theorem witness_GoodFramesAreOfferedToTheRouter_relay :
    let s (b : Branch) (n : StationNo) (run : SwitchState) (st : StationState) (q : Nat) :=
      goodFrame 6 (.station b n) 0x8 fun p => Part.modSwitch 0 (fun w => { w with state := run })
        (Part.modStation 0 1 (fun x => { x with state := st })
          (Part.modEngine 0 (fun g => { g with queue := List.replicate q (entryFor 1) }) p))
    let ok := s 0 1 .onTrial .present 31
    ((ok.part.switch 0).state = .onTrial ∧ (ok.part.station 0 1).state = .present ∧ (ok.part.engine 0).queue.length < 32)
    ∧ 32 ≤ ((s 0 1 .onTrial .present 32).part.engine 0).queue.length
    ∧ verdict (s 3 62 .inService .present 0) = (answer 0x30, false)
    ∧ verdict (s 0 1 .isolated .present 0) = (answer 0x30, false)
    ∧ verdict (s 0 1 .inService .absent 0) = (answer 0x30, false)
    ∧ verdict (s 0 1 .inService .present 32) = (answer 0x20, false)
    ∧ (verdict ok = (answer 0x10, true) ∧ ((routed ok).part.engine 0).queue.length = 32
        ∧ ((routed ok).part.engine 0).queue.getLast? = some
          { target := 1, buf := 7, origin := .relay 3 62, hold := 0, first := true, last := true })
    ∧ verdict (s 0 63 .inService .absent 31) = (answer 0x10, true) := by decide +kernel

/-- Job 31 assembling for station 3/62, for a printer. -/
def trunkJob (k : Port) (p : Part) : Part :=
  Part.modJob 31 (fun x => { x with printer := k, origin := .trunk 3 62 })
    (Part.modStation 3 62 (fun x => { x with openJobs := 1 }) (withJob .assembling p))

theorem witness_GoodFramesAreOfferedToTheRouter_printHeld :
    let s (ctl : Byte) (f : Part → Part) := goodFrame ctl (.printer 0) 0x8 f
    let off (p : Part) : Part :=
      { p with setup := { p.setup with printer := put p.setup.printer 0 { p.printerSetup 0 with enable := false } } }
    let limit (p : Part) : Part := { p with setup := { p.setup with jobBufferLimit := 1 } }
    let short (p : Part) : Part := { p with pool := { p.pool with free := [] } }
    let full : Part → Part := Part.modQueue 0 fun _ => List.replicate 16 5
    (s 0 id).part.assemblingOf 3 62 = none
    ∧ (s 0 short).part.pool.free.length < (s 0 short).part.setup.reserve
    ∧ (∀ x ∈ [s 2 off, s 0 id, s 0 (trunkJob 2), s 0 fun p => limit (trunkJob 0 p)], verdict x = (answer 0x30, false))
    ∧ ((routed (s 0 fun p => limit (trunkJob 0 p))).part.job 31).result = some .tooLarge
    ∧ (∀ x ∈ [s 0 fun p => short (trunkJob 0 p), s 4 fun p => full (trunkJob 0 p), s 6 full, s 2 short],
        verdict x = (answer 0x20, false)) := by decide +kernel

theorem witness_GoodFramesAreOfferedToTheRouter_printTaken :
    let s (ctl : Byte) (f : Part → Part) := goodFrame ctl (.printer 0) 0x8 f
    let busy (p : Part) : Part := Part.modPort 0 (fun t => { t with state := .offline }) p
    let one (p : Part) : Part := { p with setup := { p.setup with stationJobLimit := 1 } }
    let next := s 0 (trunkJob 0)
    let last := s 4 fun p => busy (trunkJob 0 p)
    let first := s 2 id
    let again := s 2 fun p => one (trunkJob 2 p)
    (next.part.assemblingOf 3 62 = some 31 ∧ (next.part.job 31).printer = 0
      ∧ next.part.setup.reserve ≤ next.part.pool.free.length ∧ first.part.freeRecord = some 0
      ∧ last.part.closeTarget 0 = 0 ∧ (last.part.port 0).state ≠ .idle)
    ∧ (∀ x ∈ [next, last, first, again], verdict x = (answer 0x10, true))
    ∧ (((routed next).part.job 31).chain.length = 2 ∧ ((routed next).part.job 31).queuedBytes = 242
        ∧ (routed next).part.path 3 = [.shift 7 240 0 none])
    ∧ (((routed last).part.job 31).state = .waiting ∧ (routed last).part.queue 0 = [31])
    ∧ (((routed first).part.job 0).state = .assembling ∧ ((routed first).part.job 0).origin = .trunk 3 62
        ∧ (routed first).part.path 3 = [.shift 7 240 0 none])
    ∧ (((routed again).part.job 31).result = some .incomplete ∧ ((routed again).part.job 0).state = .assembling
        ∧ (routed again).part.pool.free = ready.part.pool.free ++ [255]) := by decide +kernel

theorem witness_GoodFramesAreOfferedToTheRouter_closes :
    let s (ctl : Byte) (f : Part → Part) := goodFrame ctl (.printer 0) 0x8 f
    let at_ (st : PortState) (p : Part) : Part := Part.modPort 0 (fun t => { t with state := st }) p
    let both := s 6 (at_ .offline)
    let last := s 4 fun p => at_ .idle (trunkJob 0 p)
    let z := last.part.port 0
    let t := (routed last).part
    (both.part.freeRecord = some 0 ∧ both.part.closeTarget 0 = 0 ∧ (both.part.port 0).state ≠ .idle
      ∧ verdict both = (answer 0x10, true) ∧ ((routed both).part.job 0).state = .waiting
      ∧ ((routed both).part.job 0).queuedBytes = 240 ∧ (routed both).part.queue 0 = [0] ∧ (routed both).part.stamp = 1)
    ∧ (last.part.queue 0 = [] ∧ z.loading = none ∧ z.loadPending = false ∧ z.handshake = none
        ∧ ({ z with job := some 31 } : PrinterPort).decide (last.part.printerSetup 0).enable = .busy
        ∧ (last.part.job 31).chain = [{ buf := 255, fill := 2, shifted := true }]
        ∧ (last.part.job 31).abortPending = false)
    ∧ (verdict last = (answer 0x10, true) ∧ (t.port 0).state = .busy ∧ (t.port 0).job = some 31 ∧ t.queue 0 = []
        ∧ (t.port 0).stall = some 1 ∧ (t.job 31).state = .printing) := by decide +kernel

theorem witness_GoodFramesAreOfferedToTheRouter_void :
    let s (k : ExchKind) (st : StationState) := goodFrame 6 .localUnit 0x8 fun p =>
      Part.modEngine 3 (fun g => { g with exch := g.exch.map fun x => { x with kind := k, void := true } })
        (Part.modStation 3 62 (fun x => { x with state := st }) p)
    ∀ k ∈ [ExchKind.poll, .sweep], ∀ st ∈ [StationState.barred, .absent],
      ((s k st).part.engine 3).exch.any (fun x => x.void && x.kind = k) = true
      ∧ verdict (s k st) = (answer 0x30, false) ∧ ((routed (s k st)).part.station 3 62).state = st := by decide +kernel

/-- A frame from 3/62 for unit 255 waits for its verdict, in buffer 7, with the read of the producer slot's mark
asked for. -/
def offered (ctl : Byte) (u : UnitKind) (f : Part → Part) : State :=
  let o : Offer := { branch := 3, station := 62, buf := 7, unit := 255, ctl := ctl, len := 240 }
  place fun p => f (reading .router 0 [] (Part.modRouter (fun r => { r with offers := [o], producer := 63 })
    (exchanging .verdict (exchange .poll Reply.blank) id (present
      { p with units := put p.units 255 { kind := u, mask := 0x8 }
               nodes := put p.nodes 63 { addr := #v[1, 2, 3, 4, 5, 6], valid := true } }))))

/-- The verdict on a frame that waited, as `verdict` shows it. -/
def decided (s : State) : List (Byte × Bool) × Bool :=
  let g := (after .memoryPortGrant s).part.engine 3
  (g.sent, g.reservation.isNone)

theorem witness_GoodFramesAreOfferedToTheRouter_decides :
    let s := offered 6 .localUnit id
    let bridge := offered 7 (.node 63) id
    let full := stored 0x027E0 1 s
    let gone := offered 6 .localUnit (Part.modStation 3 62 fun x => { x with state := .absent })
    let t := (after .memoryPortGrant s).part
    (∀ x ∈ [s, bridge, full, gone], x.part.hostWait = none ∧ (x.part.engine 3).phase = .verdict
      ∧ (x.part.engine 3).reservation = some 7 ∧ (x.part.engine 3).strayRun = none
      ∧ x.part.router.offers.length = 1)
    ∧ (Mem.read s.mem 0x027E0 = 0 ∧ Mem.read full.mem 0x027E0 ≠ 0 ∧ (gone.part.station 3 62).state ≠ .present)
    ∧ (decided s = (answer 0x10, true) ∧ t.pool.hostHeld = [7] ∧ t.router.producer = 0 ∧ t.router.offers = [])
    ∧ decided bridge = (answer 0x11, true)
    ∧ (t.writer.queue.map fun w => (w.record, w.notices)).contains (.fromTrunk 63, 0x0200) = true
    ∧ decided full = (answer 0x20, false) ∧ decided gone = (answer 0x30, false) := by decide +kernel

/-- An abort during the wait leaves the buffer the reservation until the verdict, which takes effect for it (R26,
R51). -/
theorem witness_GoodFramesAreOfferedToTheRouter_aborted :
    let s := offered 6 .localUnit (Part.haltEngine 3)
    let full := stored 0x027E0 1 s
    let gone := offered 6 .localUnit fun p =>
      Part.haltEngine 3 (Part.modStation 3 62 (fun x => { x with state := .absent }) p)
    (∀ x ∈ [s, full, gone], (x.part.engine 3).phase ≠ .verdict ∧ (x.part.engine 3).state = .stopped
      ∧ (x.part.engine 3).reservation = some 7 ∧ x.part.pool.free = ready.part.pool.free)
    ∧ (∀ x ∈ [s, full, gone], ((after .memoryPortGrant x).part.engine 3).reservation = none
      ∧ ((after .memoryPortGrant x).part.engine 3).sent = (s.part.engine 3).sent)
    ∧ (after .memoryPortGrant s).part.pool.hostHeld = [7]
    ∧ ∀ x ∈ [full, gone], (after .memoryPortGrant x).part.pool.free = ready.part.pool.free ++ [7]
        ∧ (after .memoryPortGrant x).part.pool.hostHeld = [] := by decide +kernel

/-- A frame decided as a print frame after the abort leaves its branch no ASSEMBLING job (R145, log 55): the job it opens
is aborted and its buffer freed, without an abort it stays, and one that it closes is WAITING (R97). -/
theorem test_aborted_offer_leaves_no_assembling_job :
    let s (ctl : Byte) (f : Part → Part) := after .memoryPortGrant (offered ctl (.printer 0) fun p => f (printersOn p))
    let gone := (s 2 (Part.haltEngine 3)).part
    ((gone.job 0).state = .aborted ∧ (gone.job 0).result = some .sourceLost ∧ (gone.job 0).chain = []
      ∧ gone.pool.free = ready.part.pool.free ++ [7] ∧ gone.path 3 = [] ∧ (gone.engine 3).reservation = none
      ∧ (gone.station 3 62).openJobs = 0 ∧ (gone.station 3 62).rxValid = true)
    ∧ ((s 2 id).part.job 0).state = .assembling
    ∧ ((s 6 (Part.haltEngine 3)).part.job 0).state = .waiting := by decide +kernel

theorem witness_GoodFramesAreOfferedToTheRouter_stray :
    let s := offered 6 .localUnit (Part.modEngine 3 fun g => { g with strayRun := some [(9, false)] })
    (s.part.engine 3).strayRun = some [(9, false)]
    ∧ ((after .memoryPortGrant s).part.engine 3).strayRun = none
    ∧ ((after .memoryPortGrant s).part.sup 3).kinds.get 4 = 1 := by decide +kernel

theorem witness_SilenceIsAMiss :
    let x (k : ExchKind) := exchange k Reply.blank
    let s (k : ExchKind) (a : Option ArriveIn) (n : Nat) := place fun p =>
      exchanging .window (x k) (fun g => { g with arriving := a })
        (Part.modStation 3 62 (fun st => { st with state := .present, miss := n }) p)
    (∀ k ∈ [ExchKind.sweep, .poll, .send], ∀ a ∈ [none, some ArriveIn.elsewhere],
      ((s k a 1).part.engine 3).phase = .window ∧ ((s k a 1).part.engine 3).exch = some (x k)
        ∧ ((s k a 1).part.engine 3).state ≠ .stopped ∧ ((s k a 1).part.engine 3).arriving = a
        ∧ (x k).void = false ∧ ((s k a 1).part.station 3 62).state = .present)
    ∧ ((s .poll none 1).part.station 3 62).miss + 1 < ((s .poll none 1).part.branchSetup 3).missLimit
    ∧ ((s .poll none 2).part.branchSetup 3).missLimit ≤ ((s .poll none 2).part.station 3 62).miss + 1 := by
  decide +kernel

theorem witness_LevelChangesAndQuietWaits :
    let s (ph : Phase) (level : Bool) (a : Option ArriveIn) := place (inPhase ph fun g =>
      { g with rxLevel := level, arriving := a })
    (∀ ph ∈ [Phase.quiet, .listen, .transmit, .owed, .window], ∀ level ∈ [false, true],
      ((s ph level none).part.engine 3).phase = ph ∧ ((s ph level none).part.engine 3).rxLevel = level
        ∧ ((s ph level none).part.engine 3).state ≠ .stopped ∧ ((s ph level none).part.engine 3).arriving = none)
    ∧ (ready.part.engine 3).state = .stopped ∧ ready.part.held = false
    ∧ lineBits [(0x3E, true)] = [false, false, true, true, true, true, true, false, false, true, true] := by decide +kernel

theorem witness_TurnaroundEndGoesOn :
    let x := exchange .poll Reply.blank
    let v (n : StationNo) : VisitItem := { station := n, left := false, next := none }
    let s := place (exchanging .turnaround x fun g =>
      { g with roundPart := .visits, visiting := some (v 1), order := [v 62], pollList := [1, 62] })
    let stops := place fun p => switchAt .draining id (exchanging .turnaround x (fun g => { g with state := .stopping }) p)
    ((stops.part.engine 3).phase = .turnaround ∧ (stops.part.engine 3).exch = some x ∧ x.endCode = none
      ∧ (stops.part.engine 3).state = .stopping ∧ (stops.part.engine 3).reservation = some 7
      ∧ (stops.part.switch 3).state = .draining)
    ∧ (s.part.engine 3).state = .rounds ∧ (s.part.engine 3).phase = .turnaround ∧ (s.part.engine 3).exch = some x
    ∧ (s.part.engine 3).roundPart = .visits ∧ (s.part.engine 3).visiting = some (v 1) ∧ (v 1).left = false
    ∧ (s.part.engine 3).order = v 62 :: [] ∧ (s.part.engine 3).strayRun = none
    ∧ (∀ e ∈ (s.part.engine 3).queue, e.target ≠ 62) ∧ (s.part.engine 3).reservation = some 7 := by decide +kernel

/-- Branch 3 at the end of the turnaround of an exchange with station 1. -/
def turning (f : Engine → Engine) (p : Part) : Part :=
  inPhase .turnaround (fun g => f { g with
    exch := some (exchange .poll Reply.blank), visiting := some { station := 1, left := false, next := none }
    pollList := [1, 5, 62], round := 1, spoke := true }) p

theorem witness_TurnaroundEndGoesOn_visits :
    let v (n : StationNo) : VisitItem := { station := n, left := false, next := none }
    let e : TxEntry := entryFor 62
    let s (order : List VisitItem) (free : List BufNo) := place fun p =>
      { turning (fun g => { g with order := order, queue := [e] }) p with pool := { free := free, hostHeld := [] } }
    let t (order : List VisitItem) (free : List BufNo) := (after (.turnaroundEnd 3) (s order free)).part
    let many : List BufNo := (List.finRange 32).map fun i => Fin.ofNat 256 i.val
    (((s [v 62] []).part.engine 3).order = v 62 :: [] ∧ ((s [v 62] []).part.engine 3).reservation = none
      ∧ ((s [v 62] []).part.engine 3).queue.find? (fun e => e.target = 62) = some e)
    ∧ (((t [v 62] []).engine 3).sent = [(64 + 62, true)]
        ∧ ((t [v 62] []).engine 3).txRead = some { buf := 254, ctl := 6, got := [] }
        ∧ ((t [v 62] []).engine 3).cursor = some 5)
    ∧ (((t [v 5] many).engine 3).sent = [(5, true)] ∧ ((t [v 5] many).engine 3).reservation = some 0
        ∧ (t [v 5] many).pool.free.length = 31 ∧ (t [v 5] many).notices.latches = 0x1000)
    ∧ (((t [v 5, v 62] []).engine 3).sent = [(64 + 62, true)] ∧ ((t [v 5, v 62] []).engine 3).pollSkipped = 1
        ∧ ((t [v 5, v 62] []).engine 3).cursor = some 62) := by decide +kernel

theorem witness_TurnaroundEndGoesOn_sweeps :
    let s (f : Engine → Engine) (g : Part → Part) := place fun p => turning f (g p)
    let t (f : Engine → Engine) (g : Part → Part) := (after (.turnaroundEnd 3) (s f g)).part
    let none_ : Part → Part := fun p => { p with stations := p.stations.map fun x => { x with state := .barred } }
    let only : Part → Part := fun p => Part.modStation 3 5 (fun x => { x with state := .absent }) (none_ p)
    let slot (r : Option BufNo) (c : Nat) : Engine → Engine := fun g => { g with round := 32, reservation := r, sweepCursor := c }
    let e : TxEntry := entryFor 63
    (32 % ((s id id).part.branchSetup 3).sweepInterval = 0 ∧ ((s id id).part.branchSetup 3).listenMs = 2)
    ∧ (∀ c ∈ [0, 4, 5, 62], ((t (slot (some 7) c) only).engine 3).sent = [(5, true)]
        ∧ ((t (slot (some 7) c) only).engine 3).sweepCursor = 5 ∧ ((t (slot (some 7) c) only).engine 3).roundPart = .sweep)
    ∧ ((t (slot (some 7) 62) id).engine 3).sweepCursor = 1
    ∧ (((t (slot none 9) none_).engine 3).phase = .listen ∧ ((t (slot none 9) none_).engine 3).pollSkipped = 0
        ∧ ((t (slot none 9) none_).engine 3).listen = some 2 ∧ ((t (slot none 9) none_).sup 3).gate.isOpen = true)
    ∧ (let u := t (slot none 9) fun p => { p with pool := { free := [], hostHeld := [] } }
       (u.engine 3).phase = .listen ∧ (u.engine 3).pollSkipped = 1 ∧ (u.engine 3).sweepCursor = 9)
    ∧ (let u := t (fun g => { g with queue := [e] }) id
       (u.engine 3).sent = [(127, true)] ∧ (u.engine 3).roundPart = .broadcast ∧ (u.engine 3).round = 2
        ∧ (u.engine 3).txRead = some { buf := 254, ctl := 6, got := [] }) := by decide +kernel

theorem witness_TurnaroundEndGoesOn_others :
    let s (f : Engine → Engine) (ms : Nat) := place fun p => turning f
      { p with setup := { p.setup with branch := put p.setup.branch 3 { p.branchSetup 3 with listenMs := ms } } }
    let t (f : Engine → Engine) (ms : Nat) := (after (.turnaroundEnd 3) (s f ms)).part
    let swept (g : Engine) : Engine := { g with roundPart := .sweep, visiting := none }
    let initial (n : Nat) (g : Engine) : Engine :=
      { g with state := .initialSweep, visiting := none, initNext := n, reservation := some 7, sweepCursor := 9 }
    (((s swept 2).part.engine 3).roundPart = .sweep ∧ ((s swept 2).part.engine 3).visiting = none
      ∧ ((s swept 2).part.engine 3).strayRun = none)
    ∧ (((t swept 2).engine 3).phase = .listen ∧ ((t swept 2).engine 3).listen = some 2
        ∧ ((t swept 2).sup 3).gate.isOpen = true)
    ∧ (((t swept 0).engine 3).round = 2 ∧ ((s swept 0).part.engine 3).spoke = true)
    ∧ (((s (initial 62) 2).part.engine 3).state = .initialSweep ∧ ((t (initial 62) 2).engine 3).sent = [(62, true)]
        ∧ ((t (initial 62) 2).engine 3).initNext = 63 ∧ ((t (initial 62) 2).engine 3).sweepCursor = 9)
    ∧ (((t (initial 63) 2).engine 3).state = .rounds ∧ ((t (initial 63) 2).engine 3).sent = [(62, true)]) := by
  decide +kernel

theorem witness_ListenSlotsAndPaddingEndTheRound :
    let s (n : Nat) := place fun p => switchAt .inService id (inPhase .listen (fun g => { g with round := 65535 })
      (Part.modSup 3 (fun u => { u with gate := { u.gate with isOpen := true, edges := n } }) p))
    let pads (st : SwitchState) (clean : Bool) (n : Nat) := place fun p =>
      switchAt st (fun w => { w with trial := n }) (inPhase .padding id
        (Part.modSup 3 (fun u => { u with score := 3, clean := clean }) p))
    let t (st : SwitchState) (clean : Bool) (n : Nat) := (after (.paddingEnd 3) (pads st clean n)).part
    (∀ n ∈ [4, 5], ((s n).part.engine 3).phase = .listen ∧ ((s n).part.engine 3).state = .rounds
      ∧ ((s n).part.sup 3).gate.complete = 0 ∧ ((s n).part.engine 3).strayRun = none)
    ∧ ((s 4).part.sup 3).gate.edges ≤ ((s 4).part.branchSetup 3).noiseLimit
    ∧ ((s 5).part.branchSetup 3).noiseLimit < ((s 5).part.sup 3).gate.edges
    ∧ (((after (.listenSlotEnd 3) (s 4)).part.sup 3).clean = true
        ∧ ((after (.listenSlotEnd 3) (s 4)).part.engine 3).round = 0)
    ∧ ((pads .onTrial true 9).part.engine 3).phase = .padding
    ∧ (ready.part.engine 3).phase ≠ .padding ∧ (ready.part.engine 3).phase ≠ .listen
    ∧ ((ready.part.branchSetup 3).c = 1 ∧ (ready.part.branchSetup 3).trialRounds = 50
        ∧ (ready.part.branchSetup 3).tw < (ready.part.branchSetup 3).ti)
    ∧ (((t .inService true 9).sup 3).score = 2 ∧ ((t .inService true 9).switch 3).trial = 9)
    ∧ (((t .onTrial false 48).sup 3).score = 3 ∧ ((t .onTrial false 48).sup 3).clean = true
        ∧ ((t .onTrial false 48).switch 3).trial = 49 ∧ ((t .onTrial false 48).switch 3).state = .onTrial)
    ∧ (((t .onTrial false 49).switch 3).state = .inService ∧ (t .onTrial false 49).notices.latches.getLsbD 2 = true
        ∧ ((t .onTrial false 49).switch 3).trial = 50) := by decide +kernel

/-- A listen slot of branch 3 about to end after `edges` edges and `chars` characters. -/
def slotOver (st : SwitchState) (mask : BitVec 8) (score edges : Nat) (chars : List Byte) : State :=
  place fun p => switchAt st (fun w => { w with trial := 49 }) (inPhase .listen (fun g => { g with round := 65535 })
    (Part.modSup 3 (fun u => { u with
        score := score, clean := true
        gate := { isOpen := true, edges := edges, chars := chars.map fun c => (c, false), complete := chars.length } })
      { p with setup := { p.setup with branch := put p.setup.branch 3 { p.branchSetup 3 with immediateMask := mask } } }))

/-- The end of a slot that isolates nothing: NOISE 64 and STRAY 48, C 1, TI 640 and TW 256. -/
theorem witness_ListenSlotsAndPaddingEndTheRound_noise :
    let t (st : SwitchState) (n e : Nat) (l : List Byte) := (after (.listenSlotEnd 3) (slotOver st 0x40 n e l)).part
    (∀ x ∈ [(0, 64), (1, 64), (575, 638)], ((t .inService x.1 5 []).sup 3).score = x.2
      ∧ ((t .inService x.1 5 []).sup 3).clean = false ∧ ((t .inService x.1 5 []).engine 3).round = 0
      ∧ ((t .inService x.1 5 []).sup 3).kinds.get 5 = 1 ∧ ((t .inService x.1 5 []).sup 3).kinds.get 4 = 0)
    ∧ (((t .inService 527 5 [1]).sup 3).score = 638 ∧ ((t .inService 527 5 [1]).engine 3).state = .rounds
        ∧ ((t .inService 527 5 [1]).sup 3).kinds.get 4 = 1
        ∧ ((t .inService 527 5 [1]).sup 3).capture.kind = .noise
        ∧ ((t .inService 527 5 [1]).sup 3).capture.further = 1 ∧ ((t .inService 527 5 [1]).sup 3).capture.detail = 5)
    ∧ (((t .inService 591 4 [1]).sup 3).score = 638 ∧ ((t .inService 591 4 [1]).sup 3).kinds.get 5 = 0
        ∧ ((t .inService 591 4 [1]).sup 3).capture.kind = .stray
        ∧ ((t .inService 591 4 [1]).sup 3).capture.chars = [(1, false)]
        ∧ ((t .inService 591 4 [1]).sup 3).capture.stamp = 65535)
    ∧ (((t .onTrial 191 5 []).switch 3).state = .inService ∧ ((t .onTrial 191 5 []).sup 3).score = 254) := by
  decide +kernel

/-- The end of a slot that isolates the branch, by the reason and the error that asks. -/
theorem witness_ListenSlotsAndPaddingEndTheRound_isolates :
    let t (st : SwitchState) (m : BitVec 8) (n e : Nat) (l : List Byte) :=
      (after (.listenSlotEnd 3) (slotOver st m n e l)).part
    let stops (q : Part) (r : IsoReason) (n : Nat) : Bool := decide ((q.switch 3).reason = some r)
      && decide ((q.engine 3).state = .stopped) && decide ((q.engine 3).round = 65535)
      && decide ((q.sup 3).score = n) && !(q.sup 3).clean && !(q.sup 3).gate.isOpen
    stops (t .inService 0x60 0 5 []) .immediate 64 = true
    ∧ stops (t .inService 0x50 0 5 [1]) .immediate 112 = true
    ∧ stops (t .onTrial 0x50 0 4 [1]) .immediate 48 = true
    ∧ stops (t .inService 0x40 576 5 []) .score 640 = true
    ∧ stops (t .inService 0x50 576 5 [1]) .score 688 = true
    ∧ stops (t .inService 0x40 528 5 [1]) .score 640 = true
    ∧ stops (t .onTrial 0x40 192 5 []) .trialFailed 256 = true
    ∧ stops (t .onTrial 0x40 1000 4 [1]) .trialFailed 1023 = true
    ∧ (slotOver .inService 0x60 0 5 []).part.held = false
    ∧ ((slotOver .inService 0x60 0 5 []).part.engine 3).strayRun = none := by decide +kernel

theorem witness_ScoresRiseAndDecay :
    let s (w : Bool) (n : Nat) := place (Part.modSup 3 fun u => { u with warn := w, score := n })
    let rises (t : State) : Prop := (t.part.sup 3).warn = false
      ∧ (t.part.branchSetup 3).tw ≤ (t.part.sup 3).score - (t.part.branchSetup 3).d
    let cap (v : Bool) := Part.modSup 3 (fun u => { u with capture := { u.capture with valid := v } }) ready.part
    rises (s false 264) ∧ ¬ rises (s false 263)
    ∧ ((s true 136).part.sup 3).warn = true
    ∧ ((s true 136).part.sup 3).score - ((s true 136).part.branchSetup 3).d ≤ ((s true 136).part.branchSetup 3).tc
    ∧ ((cap false).sup 3).capture.valid = false ∧ ((cap true).sup 3).capture.valid = true
    ∧ (ready.part.branchSetup 3).captureMask.getLsbD 7 = true
    ∧ (ready.part.branchSetup 3).immediateMask.getLsbD 7 = true
    ∧ (ready.part.branchSetup 3).immediateMask.getLsbD 5 = false
    ∧ (∀ st ∈ [SwitchState.inService, .onTrial, .draining], ((switchAt st id ready.part).switch 3).state = st) := by
  decide +kernel

theorem witness_SensePassConvertsTheBranches :
    let s (st : SenseState) (cur : Option Branch) (f : Part → Part) :=
      place fun p => Part.modSense (fun q => { q with state := st, current := cur }) (f p)
    let runs := s .busy (some 3) (switchAt .inService fun w => { w with relay := .at .line })
    let probing (b : Branch) : Part → Part := Part.modSwitch b fun w => { w with relay := .at .probe }
    let checks (v : Verdict) := s .busy (some 3) fun p =>
      Part.modSense (fun q => { q with checks := put q.checks 3 true })
        (switchAt .isolated (fun w => { w with check := true, verdict := v }) p)
    let answered (v : Verdict) (code : Byte) := after (.senseConversionComplete code) (checks v)
    (s .pending none id).part.sense.state = .pending
    ∧ (∀ b : Branch, ((s .pending none id).part.switch b).relay = .at .open)
    ∧ ((s .pending none (switchAt .closing fun w => { w with relay := .moving .line 20 })).part.switch 3).relay
        = .moving .line 20
    ∧ ready.part.sense.state ≠ .pending
    ∧ ((after .sensePassStart (s .pending none (probing 0))).part.sense.current = some 1
        ∧ ((s .pending none (probing 0)).part.switch 0).relay = .at .probe)
    ∧ ((after .sensePassStart (s .pending none fun p => probing 0 (probing 1 (probing 2 (probing 3 p))))).part.sense.state = .idle)
    ∧ ((s .busy (some 0) id).part.sense.current = some 0 ∧ ((s .busy (some 0) id).part.switch 0).state = .disabled
        ∧ (s .busy (some 0) id).part.sense.checks.get 0 = false
        ∧ (after (.senseConversionComplete 100) (s .busy (some 0) (probing 1))).part.sense.current = some 2)
    ∧ ((s .busy (some 3) id).part.sense.current = some 3 ∧ ((s .busy (some 3) id).part.switch 3).state = .disabled)
    ∧ (runs.part.sense.state = .busy ∧ (runs.part.switch 3).state = .inService
        ∧ runs.part.sense.classes.get 3 = .terminated ∧ runs.part.sense.checks.get 3 = false
        ∧ (runs.part.engine 3).phase ≠ .listen ∧ (runs.part.engine 3).strayRun = none
        ∧ (runs.part.branchSetup 3).immediateMask.getLsbD 6 = true)
    ∧ ((checks .clear).part.sense.checks.get 3 = true ∧ ((checks .clear).part.switch 3).check = true
        ∧ ((checks .clear).part.switch 3).state = .isolated ∧ ((checks .clear).part.switch 3).rflt = false
        ∧ ((answered .clear 100).part.switch 3).state = .closing ∧ ((answered .clear 100).part.switch 3).rline = true)
    ∧ (((answered .echo 100).part.switch 3).restore = some 60 ∧ ((answered .clear 0).part.switch 3).restore = some 60
        ∧ ((answered .echo 100).part.switch 3).state = .isolated ∧ ((answered .echo 100).part.switch 3).check = false)
    ∧ (39 : Byte).toNat < ready.part.setup.shortLimit ∧ ready.part.setup.openLimit < (201 : Byte).toNat := by
  decide +kernel

theorem witness_RelayMovementsEnd :
    let moving (st : SwitchState) (t : RelayRest) (d : Option Destination) (c : ClosingFor) (n : Nat) (auto : Bool) :=
      place fun p => switchAt st (fun w => { w with relay := .moving t 20, dest := d, closingFor := c, isolations := n })
        { p with setup := { p.setup with branch := put p.setup.branch 3 { p.branchSetup 3 with autoProbe := auto } } }
    (ready.part.switch 3).relay = .at .open
    ∧ (∀ c ∈ [ClosingFor.enable, .restore], let t := moving .closing .line none c 0 true
      (t.part.switch 3).relay = .moving .line 20 ∧ (t.part.switch 3).state = .closing
        ∧ (t.part.switch 3).dest ≠ some .disabled ∧ (t.part.switch 3).closingFor = c
        ∧ (t.part.engine 3).state = .stopped ∧ (t.part.engine 3).strayRun = none
        ∧ (t.part.station 3 1).state = .absent ∧ t.part.pool.free ≠ []
        ∧ (t.part.branchSetup 3).tc < (t.part.branchSetup 3).tw)
    ∧ (∀ d ∈ [Destination.isolated, .lockedOut], ∀ n ∈ [1, 2, 7], ∀ a ∈ [false, true],
      let t := moving .opening .open (some d) .enable n a
      (t.part.switch 3).relay = .moving .open 20 ∧ (t.part.switch 3).state = .opening
        ∧ (t.part.switch 3).dest = some d ∧ (t.part.switch 3).isolations = n ∧ (t.part.branchSetup 3).autoProbe = a
        ∧ (t.part.branchSetup 3).restoreLimit = 3) := by decide +kernel

theorem witness_RelayMovementsEnd_disabled :
    let s (st : SwitchState) (r : RelayRest) (pend : Bool) := place fun p => switchAt st (fun w => { w with
      relay := .moving r 20, dest := some .disabled, enablePending := pend, rline := true, isolations := 2 })
      (present (Part.modSup 3 (fun u => { u with score := 9, warn := true }) p))
    let t (st : SwitchState) (r : RelayRest) (pend : Bool) := (after (.relaySettle 3) (s st r pend)).part
    (((s .opening .open false).part.switch 3).rflt = false ∧ ((t .opening .open false).switch 3).state = .disabled
      ∧ ((t .opening .open false).switch 3).isolations = 0 ∧ ((t .opening .open false).station 3 62).state = .absent
      ∧ ((t .opening .open false).sup 3).score = 0 ∧ ((t .opening .open false).sup 3).warn = false)
    ∧ (((t .opening .open true).switch 3).state = .closing ∧ ((t .opening .open true).switch 3).rline = true
        ∧ ((t .opening .open true).switch 3).enablePending = false)
    ∧ (((s .closing .line false).part.engine 3).state = .stopped ∧ ((t .closing .line false).switch 3).state = .opening
        ∧ ((t .closing .line false).switch 3).relay = .moving .open 20
        ∧ ((t .closing .line false).switch 3).rline = false
        ∧ ((t .closing .line false).engine 3).state = .stopped) := by decide +kernel

theorem witness_RelayMovementsEnd_probe :
    let s := place fun p => switchAt .probing (fun w => { w with relay := .moving .probe 20, rprobe := true })
      (Part.modProbe (fun u => { u with state := .arming, queue := [3, 0] }) p)
    let t := (after (.relaySettle 3) s).part
    s.part.probe.state ≠ .idle ∧ s.part.probe.queue = 3 :: [0]
    ∧ (t.switch 3).relay = .at .probe ∧ t.probe.state = .pulsing ∧ t.probe.pulses = 1 ∧ t.probe.ppulse = true
    ∧ t.probe.window = some [] := by decide +kernel

theorem witness_RelayMovementsEnd_undecided :
    let s := offered 6 .localUnit fun p => switchAt .closing (fun w => { w with relay := .moving .line 20, rline := true })
      (Part.haltEngine 3 p)
    (∃ o ∈ s.part.router.offers, o.branch = 3) ∧ (s.part.switch 3).relay = .moving .line 20
    ∧ (∀ o ∈ ready.part.router.offers, o.branch ≠ 3)
    ∧ ((after (.relaySettle 3) s).part.switch 3).relay = .moving .line 20 := by decide +kernel

theorem witness_RelayFaultsLockTheBranchOut :
    let s := place fun p => switchAt .inService (fun w => { w with rline := true, relay := .at .line }) (inPhase .padding id p)
    ((s.part.switch 3).rline = true ∧ (s.part.switch 3).dest ≠ some .disabled ∧ (s.part.engine 3).state ≠ .stopped)
    ∧ (ready.part.switch 3).rline = false ∧ (ready.part.switch 3).rprobe = false := by decide +kernel

theorem witness_RelayFaultsLockTheBranchOut_verdict :
    let s := offered 6 .localUnit (switchAt .inService fun w => { w with rline := true, relay := .at .line })
    let t := (after (.relayFault 3 true) s).part
    (s.part.engine 3).phase = .verdict ∧ (t.switch 3).state = .lockedOut ∧ (t.engine 3).state = .stopped
    ∧ (t.engine 3).reservation = some 7 ∧ 7 ∉ t.pool.hostHeld ∧ t.router.offers.length = 1 := by decide +kernel

theorem witness_SwitchTimersAct :
    let s (st : SwitchState) (n : Nat) := place fun p => switchAt st (fun w => { w with restore := some n })
      { p with setup := { p.setup with branch := put p.setup.branch 3 { p.branchSetup 3 with restoreDelay := n } } }
    let busy (conv : Bool) (v : Verdict) := place fun p => switchAt .isolated (fun w => { w with restore := some 60, verdict := v })
      (Part.modSense (fun q => { q with state := .busy, current := some 3, converted := Vector.replicate 4 conv }) p)
    let t (conv : Bool) (v : Verdict) := (after (.restoreTimerExpiry 3) (busy conv v)).part
    (∀ n ∈ [0, 60], ((s .isolated n).part.switch 3).restore.isSome = true ∧ ((s .isolated n).part.switch 3).state = .isolated
      ∧ ((s .isolated n).part.branchSetup 3).restoreDelay = n ∧ (s .isolated n).part.sense.state = .idle)
    ∧ (ready.part.switch 3).restore = none ∧ (ready.part.switch 3).state = .disabled
    ∧ ((s .lockedOut 0).part.switch 3).state ≠ .inService ∧ ((s .lockedOut 0).part.switch 3).state ≠ .disabled
    ∧ (∀ v ∈ [Verdict.echo, .clear], ((busy true v).part.branchSetup 3).restoreDelay = 60
        ∧ (busy true v).part.sense.state = .busy ∧ ((busy true v).part.switch 3).verdict = v
        ∧ (busy true v).part.sense.classes.get 3 = .terminated ∧ ((busy true v).part.switch 3).rflt = false
        ∧ (t false v).sense.checks.get 3 = true ∧ (t false v).sense.state = .busy)
    ∧ (((t true .echo).switch 3).restore = some 60 ∧ ((t true .echo).switch 3).check = false
        ∧ (t true .echo).sense.checks.get 3 = false)
    ∧ (((t true .clear).switch 3).state = .closing ∧ ((t true .clear).switch 3).rline = true
        ∧ ((t true .clear).switch 3).restore = none) := by decide +kernel

theorem witness_ButtonActsOnEverySwitch :
    ready.part.held = false ∧ ready.part.button = true ∧ (place fun p => { p with button := false }).part.button = false
    ∧ ∀ st ∈ [SwitchState.disabled, .closing, .draining, .opening, .probing, .isolated, .lockedOut, .inService, .onTrial],
      ((place (switchAt st id)).part.switch 3).state = st ∧ ((place (switchAt st id)).part.switch 3).rflt = false := by
  decide +kernel

theorem witness_ProbesRunTheirCourse :
    let values : ProbeValues := { count := 16, blank := 20, zero := 3, k := 791, expected := 300, tolerance := 10 }
    let e : Echo := { positive := true, tick := 20 }
    let s (st : ProbeState) (n : Nat) (l : Option (List Echo)) := place fun p => switchAt .probing id
      (Part.modProbe (fun u => { u with state := st, queue := [3], values := values, pulses := n, window := l }) p)
    ((s .idle 0 none).part.probe.state = .idle ∧ (s .idle 0 none).part.probe.queue = 3 :: []
      ∧ ((s .idle 0 none).part.switch 3).rflt = false)
    ∧ ready.part.probe.queue = []
    ∧ ((s .pulsing 15 none).part.probe.state = .pulsing ∧ (s .pulsing 15 none).part.probe.window = none
        ∧ (s .pulsing 15 none).part.probe.pulses < values.count)
    ∧ ((s .pulsing 15 (some [])).part.probe.window = some [] ∧ (s .pulsing 15 (some [])).part.probe.ppulse = false
        ∧ (s .pulsing 15 (some [])).part.probe.pulses < values.count
        ∧ values.count ≤ (s .pulsing 16 (some [])).part.probe.pulses)
    ∧ ((19 : BitVec 12).toNat < values.blank ∧ values.blank ≤ (20 : BitVec 12).toNat
        ∧ (s .pulsing 1 (some [])).part.probe.lastTick = none)
    ∧ [e, e, e].length < 4 ∧ 4 ≤ [e, e, e, e].length := by decide +kernel

theorem witness_DistanceOfAnEcho : 3 ≤ 3 ∧ 2 < 3 ∧ (2047 : Nat) ≤ 2047 ∧ (4095 : Nat) ≤ 4095 := by decide

theorem witness_ProbeEndsWithItsRecord :
    let values : ProbeValues := { count := 1, blank := 20, zero := 3, k := 791, expected := 300, tolerance := 10 }
    let s (l : List (List Echo)) (back : ReturnState) := place fun p =>
      switchAt .probing (fun w => { w with relay := .moving .open 20, back := some back })
        (Part.modProbe (fun u => { u with state := .releasing, queue := [3], values := values, lists := l, pulses := 1 }) p)
    (∀ back ∈ [ReturnState.isolated, .lockedOut], let t := s [[]] back
      t.part.held = false ∧ (t.part.switch 3).relay = .moving .open 20 ∧ (t.part.switch 3).state = .probing
        ∧ (t.part.switch 3).dest ≠ some .disabled ∧ t.part.probe.queue = 3 :: [] ∧ (t.part.switch 3).back = some back
        ∧ ∀ l ∈ t.part.probe.lists, l = [])
    ∧ (∀ n ∈ [61, 62, 64, 65], (s [[{ positive := true, tick := n }]] .isolated).part.probe.lists
        = [[{ positive := true, tick := n }]])
    ∧ echoDistance 791 3 61 + 10 * values.tolerance < 10 * values.expected
    ∧ (10 * values.expected ≤ echoDistance 791 3 62 + 10 * values.tolerance
        ∧ echoDistance 791 3 65 ≤ 10 * values.expected + 10 * values.tolerance)
    ∧ 10 * values.expected + 10 * values.tolerance < echoDistance 791 3 66 := by decide +kernel

theorem witness_ProbeEndsWithItsRecord_averages :
    let e (s : Bool) (n : Nat) : Echo := { positive := s, tick := n }
    let lists := [[e true 100, e false 200], [e true 102, e false 199], [e true 101, e false 199]]
    let s (l : List (List Echo)) := place fun p => switchAt .probing (fun w => { w with
        relay := .moving .open 20, back := some .isolated })
      (Part.modProbe (fun u => { u with
        state := .releasing, queue := [3], lists := l, pulses := l.length
        values := { count := 3, blank := 20, zero := 3, k := 791, expected := 300, tolerance := 10 } }) p)
    let t (l : List (List Echo)) := (after (.relaySettle 3) (s l)).part
    probeStable lists = true ∧ echoList lists = [e true 101, e false 199]
    ∧ (∀ l ∈ [[[e true 100], [e true 103]], [[e true 100], [e false 100]], [[e true 100], []]],
        probeStable l = false ∧ echoList l = [e true 100] ∧ ((t l).records.get 3).stable = false
        ∧ ((t l).switch 3).verdict = .echo)
    ∧ (((t [[e false 40]]).records.get 3).cls = .shortAt ∧ ((t [[e false 40]]).records.get 3).stable = true
        ∧ ((t [[e false 40]]).records.get 3).distance = echoDistance 791 3 40
        ∧ ((t [[e false 40]]).switch 3).verdict = .echo) := by decide +kernel

theorem witness_ConditionsHoldAndResumeTheJob :
    let t (f : PrinterPort → PrinterPort) := f (PrinterPort.blank false false false)
    (∀ f ∈ [false, true], (t fun t => { t with fault := f }).fault = f)
    ∧ ((t fun t => { t with paperOut := true }).paperOut = true ∧ (t fun t => { t with deselected := true }).deselected = true
        ∧ (t fun t => { t with stalled := true }).stalled = true ∧ (t fun t => { t with job := some 0 }).job.isSome = true
        ∧ (t id).fault = false ∧ (t id).paperOut = false ∧ (t id).deselected = false ∧ (t id).stalled = false
        ∧ (t id).job = none)
    ∧ (ready.part.port 2).state = .disabled := by decide +kernel

theorem witness_ConditionsHoldAndResumeTheJob_enabled :
    let s (st : PortState) (f : PrinterPort → PrinterPort) := place fun p => atPort st f (withJob .printing p)
    let t (c : PrinterCondition) (on : Bool) (x : State) := (after (.printerConditionChange 0 c on) x).part
    let out (t : PrinterPort) : PrinterPort := { t with paperOut := true, redirect := some 3 }
    let busy := s .busy fun t => { t with handshake := some 9 }
    ((∀ x ∈ [(PrinterCondition.deselected, PortState.offline, HoldReason.offline), (.paperOut, .paperOut, .paperOut),
        (.fault, .fault, .fault)], ((t x.1 true busy).port 0).state = x.2.1 ∧ ((t x.1 true busy).job 31).hold = some x.2.2
          ∧ ((t x.1 true busy).port 0).handshake = none ∧ ((t x.1 true busy).port 0).abandoned = true
          ∧ ((t x.1 true busy).port 0).redirect = some 5))
    ∧ (((t .fault true (s .paperOut out)).port 0).state = .fault ∧ ((t .fault true (s .paperOut out)).port 0).redirect = some 3
        ∧ ((t .fault true (s .paperOut out)).job 31).hold = some .fault)
    ∧ (((t .deselected true (s .paperOut out)).port 0).state = .paperOut
        ∧ ((t .deselected true (s .paperOut out)).port 0).deselected = true)
    ∧ ((t .paperOut false (s .paperOut out)).port 0).state = .busy
    ∧ (((t .paperOut true (s .idle fun t => { t with job := none })).port 0).state = .paperOut
        ∧ ((s .idle fun t => { t with job := none }).part.port 0).loadPending = false)
    ∧ (((t .paperOut false (s .paperOut fun t => { t with paperOut := true, job := none })).port 0).state = .idle
        ∧ (s .paperOut id).part.queue 0 = [])
    ∧ ((busy.part.printerSetup 0).enable = true ∧ (busy.part.port 0).job = some 31
        ∧ (busy.part.job 31).abortPending = false ∧ ∀ e ∈ (busy.part.job 31).chain, e.fill ≠ 0) := by decide +kernel

theorem witness_BytesArePresentedAndStallsEnd :
    let s (st : PortState) (x : JobState) (f : PrinterPort → PrinterPort) := place fun p => atPort st f (withJob x p)
    let has (a : Bool) := s .busy .printing fun t => { t with fetched := some 9, abandoned := a, stall := some 1 }
    let noJob := s .stalled .held fun t => { t with job := none, stall := some 1, stalled := true }
    (∀ a ∈ [false, true], ((has a).part.port 0).state = .busy ∧ ((has a).part.port 0).job = some 31
      ∧ ((has a).part.port 0).handshake = none ∧ ((has a).part.port 0).fetched = some 9
      ∧ ((has a).part.job 31).abortPending = false ∧ ((has a).part.port 0).abandoned = a)
    ∧ ((s .busy .printing fun t => { t with handshake := some 9 }).part.port 0).handshake.isSome = true
    ∧ (ready.part.port 0).state ≠ .busy ∧ (ready.part.port 0).stall = none
    ∧ (((has false).part.printerSetup 0).enable = true ∧ ((has false).part.port 0).fault = false
        ∧ ((has false).part.port 0).paperOut = false ∧ ((has false).part.port 0).deselected = false
        ∧ ((has false).part.port 0).stall.isSome = true ∧ ((has false).part.port 0).loadPending = false)
    ∧ ((noJob.part.port 0).state = .stalled ∧ (noJob.part.port 0).stall.isSome = true ∧ (noJob.part.port 0).job = none
        ∧ noJob.part.queue 0 = [])
    ∧ (let t := s .stalled .held fun t => { t with stalled := true }
       (t.part.port 0).state = .stalled ∧ (t.part.port 0).job = some 31 ∧ (t.part.port 0).handshake = none
        ∧ (∀ e ∈ (t.part.job 31).chain, e.fill ≠ 0) ∧ (t.part.port 0).fault = false) := by decide +kernel

theorem witness_BytesArePresentedAndStallsEnd_abandoned :
    let s (st : PortState) (a : Bool) (f : Option Byte) := place fun p =>
      atPort st (fun t => { t with abandoned := a, fetched := f, paperOut := st == .paperOut }) (withJob .printing p)
    let t (st : PortState) (a : Bool) (f : Option Byte) := (after (.abandonedByteTimeout 0) (s st a f)).part.port 0
    (((s .busy true (some 9)).part.port 0).state = .busy ∧ (t .busy true (some 9)).abandoned = false)
    ∧ (∀ st ∈ [PortState.busy, .paperOut, .disabled], (t st true none).abandoned = true ∧ (t st true none).overdue = true)
    ∧ t .busy false none = (s .busy false none).part.port 0
    ∧ ((after (.printerConditionChange 0 .paperOut true) (place fun p => atPort .busy (fun t => { t with
        handshake := some 9, overdue := true }) (withJob .printing p))).part.port 0).overdue = false := by decide +kernel

theorem witness_AcknowledgesCountTheByte :
    let s (st : PortState) (h : Option Byte) (n : Nat) := place fun p => atPort st (fun t => { t with handshake := h })
      (Part.modJob 31 (fun x => { x with printed := n }) (withJob .printing p))
    (s .busy none 0).part.held = false ∧ ((s .busy none 0).part.port 0).handshake = none
    ∧ (∀ st ∈ [PortState.idle, .disabled, .paperOut, .offline, .fault], ((s st none 0).part.port 0).state = st)
    ∧ (∀ n ∈ [0, 1], ((s .busy (some 9) n).part.port 0).state = .busy ∧ ((s .busy (some 9) n).part.port 0).job = some 31
        ∧ ((s .busy (some 9) n).part.port 0).handshake = some 9
        ∧ ((s .busy (some 9) n).part.job 31).chain = { buf := 255, fill := 2, shifted := true } :: []
        ∧ ((s .busy (some 9) n).part.job 31).abortPending = false
        ∧ ((s .busy (some 9) n).part.port 0).decide ((s .busy (some 9) n).part.printerSetup 0).enable = .busy
        ∧ ((s .busy (some 9) n).part.job 31).freed = 0 ∧ ((s .busy (some 9) n).part.job 31).queuedBytes = 2
        ∧ (s .busy (some 9) n).part.queue 0 = [] ∧ ((s .busy (some 9) n).part.port 0).loadPending = false) := by
  decide +kernel

theorem witness_AcknowledgesCountTheByte_stalled :
    let s (j : Option JobNo) (h : Option Byte) := place fun p =>
      Part.modPort 0 (fun t => { t with job := j }) (atPort .stalled (fun t => { t with
        handshake := h, stalled := true, abandoned := h.isNone, redirect := some 5, redirected := true }) (withJob .held p))
    let t (j : Option JobNo) (h : Option Byte) := (after (.acknowledge 0) (s j h)).part
    let on (s : State) (j : Option JobNo) :=
      ({ s.part.port 0 with stalled := false, job := j } : PrinterPort).decide (s.part.printerSetup 0).enable
    (((s none none).part.port 0).state = .stalled ∧ (s none none).part.queue 0 = [] ∧ on (s none none) none = .idle
      ∧ ((t none none).port 0).state = .idle ∧ ((t none none).port 0).abandoned = false)
    ∧ (t (some 31) none).port 0 = (s (some 31) none).part.port 0
    ∧ (on (s (some 31) (some 9)) (some 31) = .busy
        ∧ (s (some 31) (some 9)).part.job 31 = { Job.blank with
            state := .held, origin := .submitted 0, chain := [{ buf := 255, fill := 2, shifted := true }], queuedBytes := 2 }
        ∧ ((t (some 31) (some 9)).port 0).state = .busy ∧ ((t (some 31) (some 9)).port 0).redirected = false
        ∧ ((t (some 31) (some 9)).port 0).stall = some 1
        ∧ ((t (some 31) (some 9)).job 31).state = .printing ∧ ((t (some 31) (some 9)).job 31).printed = 1) := by
  decide +kernel

theorem witness_AcknowledgesCountTheByte_abort :
    let s (st : PortState) (x : JobState) := place fun p =>
      atPort st (fun t => { t with handshake := some 9, stalled := st == .stalled, stall := some 1 })
        (Part.modJob 31 (fun y => { y with abortPending := true }) (withJob x p))
    let t (st : PortState) (x : JobState) := (after (.acknowledge 0) (s st x)).part
    ∀ y ∈ [(PortState.busy, JobState.printing), (.stalled, .held)],
      ((s y.1 y.2).part.job 31).abortPending = true ∧ (s y.1 y.2).part.queue 0 = []
      ∧ ((t y.1 y.2).job 31).state = .aborted ∧ ((t y.1 y.2).job 31).result = some .abortedByRequest
      ∧ ((t y.1 y.2).job 31).printed = 1 ∧ ((t y.1 y.2).port 0).state = .idle ∧ ((t y.1 y.2).port 0).job = none
      ∧ (t y.1 y.2).pool.free = ready.part.pool.free ++ [255] := by decide +kernel

theorem witness_RedirectMovesTheWaitingJobs :
    let s (moved : Bool) (l : List JobNo) := place fun p =>
      Part.modJob 30 (fun x => { x with state := .waiting, moved := moved })
        (Part.modQueue 0 (fun _ => [30]) (Part.modQueue 1 (fun _ => l)
          (Part.modPort 1 (fun t => { t with state := .offline, deselected := true })
            (atPort .paperOut (fun t => { t with paperOut := true, redirect := some 1 }) (withJob .held p)))))
    (ready.part.port 0).redirect = none ∧ 3 ≤ (ready.part.printerSetup 0).alternate
    ∧ ∀ m ∈ [false, true], ∀ n ∈ [15, 16], let t := s m (List.replicate n 5)
      (t.part.port 0).redirect.isSome = true ∧ (t.part.printerSetup 0).alternate = (1 : Port).val
        ∧ (t.part.printerSetup 1).enable = true ∧ t.part.queue 0 = [30] ∧ (t.part.port 1).state ≠ .idle
        ∧ (t.part.job 30).moved = m ∧ (t.part.queue 1).length = n := by decide +kernel

theorem witness_OtherCommandsKeepTheMemory :
    (∃ t, exec (.branchSel 3) ready = .next t) ∧ (∃ t, exec (.hostWrite 0x03000 1) ready = .next t)
    ∧ (0xFFFF : Nat) ≠ (0x03000 : Addr).toNat := ⟨⟨_, rfl⟩, ⟨_, rfl⟩, by decide⟩

theorem witness_EventsKeepMemoryTablesAndOtherSupervision :
    (branchOf (.relaySettle 3) = some 3 ∧ ∃ t, exec (.relaySettle 3) ready = .next t)
    ∧ portOf (.acknowledge 2) = some 2 ∧ ∃ t, exec (.acknowledge 2) ready = .next t :=
  ⟨⟨rfl, _, rfl⟩, rfl, _, rfl⟩

/-- The three invariants hold of the state after reset with a command waiting, and a step from it goes on. -/
theorem witness_EveryStepKeepsTheInvariants :
    let s : State := { State.reset with pending := [.memoryPortGrant] }
    s.memoryCanonical ∧ s.drivesExclusive ∧ s.scoresBounded ∧ ∃ t, step s = .next t := by
  refine ⟨rfl, by unfold State.drivesExclusive; decide +kernel, ⟨by decide +kernel, ?_, ?_⟩, _, rfl⟩
  · unfold Setup.scoresBounded; decide +kernel
  · intro next pos h
    exact nomatch h

end Sys2Proof.Tests
end

section
/-! PROOF. The distance of an echo (R157) and the record that holds it (R158). -/

namespace Sys2Proof.Machine

/-! ## The distance of a tick (R157) -/

/-- R157 in one line: the subtraction of naturals stops at 0, which is the rule's t′. -/
theorem echoDistance_eq (k z tavg : Nat) : echoDistance k z tavg = ((tavg - z) * k + 8) / 16 := rfl

/-- A slot before the zero offset: t′ is 0, and the 8 added for rounding does not reach a decimetre. -/
theorem echoDistance_of_lt {k z tavg : Nat} (h : tavg < z) : echoDistance k z tavg = 0 := by
  have ht : tavg - z = 0 := Nat.sub_eq_zero_of_le (Nat.le_of_lt h)
  simp [echoDistance_eq, ht]

/-- The distance grows with K and with the tick, and shrinks as the zero offset grows. -/
theorem echoDistance_mono {k k' z z' t t' : Nat} (hk : k ≤ k') (hz : z' ≤ z) (ht : t ≤ t') :
    echoDistance k z t ≤ echoDistance k' z' t' := by
  have htick : t - z ≤ t' - z' := Nat.le_trans (Nat.sub_le_sub_right ht z) (Nat.sub_le_sub_left hz t')
  have hprod : (t - z) * k ≤ (t' - z') * k' := Nat.mul_le_mul htick hk
  simp only [echoDistance_eq]
  exact Nat.div_le_div_right (Nat.add_le_add_right hprod 8)

/-- The top of the range that R157 works out: 8,382,465 plus 8, divided by 16. -/
theorem echoDistance_top : echoDistance 2047 0 4095 = 523904 := rfl

/-- The top is the bound, as no other K, offset and tick in their ranges give a greater distance. -/
theorem echoDistance_le_top {k z tavg : Nat} (hk : k ≤ 2047) (ht : tavg ≤ 4095) :
    echoDistance k z tavg ≤ 523904 :=
  calc echoDistance k z tavg
    _ ≤ echoDistance 2047 0 4095 := echoDistance_mono hk (Nat.zero_le z) ht
    _ = 523904 := echoDistance_top

/-! ## The record of a probe (R158) -/

/-- Whatever its classification, a record holds each slot of the echo list with that slot's distance. -/
theorem probeResult_echoes (u : ProbeUnit) (byHost : Bool) (round : Nat) :
    (probeResult u byHost round).echoes
      = (echoList u.lists).map fun e => (e, echoDistance u.values.k u.values.zero e.tick) := rfl

/-- Settles O50: the two cases of R157, its bound by monotonicity up to the top that reaches it, and the echoes
that the record takes over. -/
theorem distanceOfAnEcho : Obligations.DistanceOfAnEcho := by
  refine ⟨fun k z tavg => ⟨?notBefore, echoDistance_of_lt, echoDistance_le_top⟩,
    echoDistance_top, ?bottom, probeResult_echoes⟩
  case notBefore => exact fun _ => echoDistance_eq k z tavg
  case bottom => exact fun k _ => echoDistance_of_lt (by decide)

end Sys2Proof.Machine
end

section
/-! PROOF. The reads of the notice unit: TOP_CAUSE (R184), and SUMMARY_LO with the copy it leaves (R183). -/

namespace Sys2Proof.Machine

namespace Part

/-! ## The latches that are on and enabled (R182) -/

theorem enabledLatches_getLsbD (p : Part) (i : Nat) :
    p.enabledLatches.getLsbD i = true ↔
      p.notices.latches.getLsbD i = true ∧ p.setup.noticeEnable.getLsbD i = true := by
  simp [enabledLatches]

/-- R182: /ATTN is deasserted exactly while no latch is on and enabled. -/
theorem attn_eq_false_iff (p : Part) :
    p.attn = false ↔ ∀ i < 16, ¬ p.enabledLatches.getLsbD i = true := by
  constructor
  case mp =>
    intro h i _
    have hzero : p.enabledLatches = 0 := by simpa [attn] using h
    simp [hzero]
  case mpr =>
    intro h
    have hzero : p.enabledLatches = 0 := BitVec.eq_of_getLsbD_eq fun i hi => by simpa using h i hi
    simp [attn, hzero]

theorem attn_of_enabled {p : Part} {i : Nat} (hi : i < 16) (hon : p.enabledLatches.getLsbD i = true) :
    p.attn = true := by
  cases h : p.attn with
  | true => rfl
  | false => exact absurd hon ((attn_eq_false_iff p).mp h i hi)

/-! ## TOP_CAUSE (R184) -/

/-- The number of the lowest-numbered latch that is on and enabled. -/
def IsTopCause (p : Part) (i : Nat) : Prop :=
  p.enabledLatches.getLsbD i = true ∧ ∀ k < i, ¬ p.enabledLatches.getLsbD k = true

/-- While /ATTN is asserted there is a lowest-numbered cause: the search that TOP_CAUSE makes finds one. -/
theorem exists_isTopCause {p : Part} (h : p.attn = true) : ∃ i < 16, p.IsTopCause i := by
  cases hfind : (List.range 16).find? (fun k => p.enabledLatches.getLsbD k) with
  | some i =>
    obtain ⟨hon, hi, hlow⟩ := List.find?_range_eq_some.mp hfind
    exact ⟨i, List.mem_range.mp hi, hon, fun k hk => by simpa using hlow k hk⟩
  | none =>
    have hoff : p.attn = false := (attn_eq_false_iff p).mpr fun k hk =>
      by simpa using List.find?_range_eq_none.mp hfind k hk
    exact nomatch h.symm.trans hoff

theorem topCause_of_isTopCause {p : Part} {i : Nat} (hi : i < 16) (h : p.IsTopCause i) :
    p.topCause = BitVec.ofNat 8 i := by
  obtain ⟨hon, hlow⟩ := h
  have hfind : (List.range 16).find? (fun k => p.enabledLatches.getLsbD k) = some i :=
    List.find?_range_eq_some.mpr ⟨hon, List.mem_range.mpr hi, fun k hk => by simpa using hlow k hk⟩
  simp only [topCause, hfind]

theorem topCause_of_attn_eq_false {p : Part} (h : p.attn = false) : p.topCause = 0xFF := by
  have hfind : (List.range 16).find? (fun k => p.enabledLatches.getLsbD k) = none :=
    List.find?_range_eq_none.mpr fun k hk => by simpa using (attn_eq_false_iff p).mp h k hk
  simp only [topCause, hfind]

/-- 0xFF is the number of no latch, so it tells that /ATTN is deasserted. -/
theorem topCause_eq_none_iff (p : Part) : p.topCause = 0xFF ↔ p.attn = false := by
  refine ⟨fun hread => ?_, topCause_of_attn_eq_false⟩
  cases h : p.attn with
  | false => rfl
  | true =>
    obtain ⟨i, hi, htop⟩ := exists_isTopCause h
    rw [topCause_of_isTopCause hi htop] at hread
    have hval : i % 256 = 255 := by simpa using congrArg BitVec.toNat hread
    omega

end Part

/-! ## What the host reads in the control page (R163, R164) -/

/-- R163: while /RESET is high a read of the control page never waits. -/
theorem hostRead_control {s : State} {a : Addr} (h : s.part.held = false) (ha : a.toNat < 0x100) :
    s.hostRead a = some (s.part.controlRead a.toNat) := by
  simp [State.hostRead, h, ha]

theorem hostRead_topCause {s : State} (h : s.part.held = false) :
    s.hostRead 0x42 = some s.part.topCause := by
  rw [hostRead_control h (by decide)]
  rfl

theorem hostRead_summaryHi {s : State} (h : s.part.held = false) :
    s.hostRead 0x41 = some (byteOf s.part.live.summary.toNat 1) := by
  rw [hostRead_control h (by decide)]
  rfl

/-- Settles O12: the four cases of R184, by the lowest-numbered latch on and enabled where there is one, and by
/ATTN deasserted where there is none. -/
theorem topCauseIsTheLowestEnabledLatch : Obligations.TopCauseIsTheLowestEnabledLatch := by
  intro s hheld
  simp only [hostRead_topCause hheld, Option.some.injEq]
  refine ⟨?lowest, ?none, ?disabled, s.part.topCause_eq_none_iff⟩
  case lowest =>
    intro i hlatch henable hlow
    have hon : s.part.enabledLatches.getLsbD i.val = true :=
      (Part.enabledLatches_getLsbD _ _).mpr ⟨hlatch, henable⟩
    have htop : s.part.IsTopCause i.val := ⟨hon, fun k hk hbit =>
      hlow ⟨k, Nat.lt_trans hk i.isLt⟩ hk ((Part.enabledLatches_getLsbD _ _).mp hbit)⟩
    exact ⟨Part.topCause_of_isTopCause i.isLt htop, Part.attn_of_enabled i.isLt hon⟩
  case none =>
    intro hnone
    have hoff : s.part.attn = false := (Part.attn_eq_false_iff _).mpr fun k hk hbit =>
      hnone ⟨k, hk⟩ ((Part.enabledLatches_getLsbD _ _).mp hbit)
    exact ⟨Part.topCause_of_attn_eq_false hoff, hoff⟩
  case disabled =>
    intro hempty
    exact Part.topCause_of_attn_eq_false (by simp [Part.attn, Part.enabledLatches, hempty])

/-! ## SUMMARY_LO (R183) -/

namespace Part

/-- A read that finds the bus free is made. -/
theorem readCommand_ready (f : Part → Part) {p : Part} (hheld : p.held = false) (hwait : p.hostWait = none) :
    readCommand f p = f p := by
  simp [readCommand, hheld, hwait]

/-- R183: the copy takes all sixteen latches, and those captured on go off. -/
theorem summaryRead_eq (p : Part) :
    p.summaryRead =
      { p with
        live := { p.live with summary := p.notices.latches }
        notices := { p.notices with latches := 0 }
        hostData := p.notices.latches.truncate 8 } := rfl

@[simp] theorem summaryRead_notices (p : Part) :
    p.summaryRead.notices = { p.notices with latches := 0 } := rfl

@[simp] theorem summaryRead_summary (p : Part) : p.summaryRead.live.summary = p.notices.latches := rfl

/-- After the capture no latch is left to assert /ATTN. -/
theorem attn_summaryRead (p : Part) : p.summaryRead.attn = false := by
  simp [attn, enabledLatches]

/-- A cause after the capture is on alone, the capture having left no other latch on. -/
theorem latches_notify_summaryRead (n : Notice) (p : Part) :
    (notify n p.summaryRead).notices.latches = n.bit := by
  simp

/-- R182 after the capture: a cause asserts /ATTN where its enable flag is set. -/
theorem attn_notify_summaryRead (n : Notice) (p : Part) :
    (notify n p.summaryRead).attn = true ↔ p.setup.noticeEnable &&& n.bit ≠ 0 := by
  have hsetup : (notify n p.summaryRead).setup = p.setup := rfl
  simp only [attn, enabledLatches, latches_notify_summaryRead, hsetup, BitVec.and_comm n.bit, bne_iff_ne]

/-- A notice's latch is on once the notice is set, whatever was on before. -/
theorem latches_notify_and_bit (n : Notice) (p : Part) :
    (notify n p).notices.latches &&& n.bit = n.bit := by
  simp only [notify_notices]
  ext i hi
  cases hbit : n.bit[i] with
  | false => simp [hbit]
  | true => simp [hbit]

end Part

theorem exec_summaryLoRead {s : State} (h : s.busReady) :
    exec .summaryLoRead s = .next (s.withPart s.part.summaryRead) := by
  obtain ⟨hheld, hwait⟩ := h
  calc exec .summaryLoRead s
    _ = onPart (Part.readCommand Part.summaryRead) s := rfl
    _ = .next (s.withPart s.part.summaryRead) := by
      simp only [onPart, State.withPart, Part.readCommand_ready _ hheld hwait]

/-- Settles O11: the read as `summaryRead` makes it, a cause before it in the copy and off, a cause after it on
alone, and the copy of every reset. -/
theorem summaryReadCapturesAndClears : Obligations.SummaryReadCapturesAndClears := by
  refine ⟨?read, ?causeBefore, ?copyZero, rfl⟩
  case read =>
    intro s hready
    have ⟨hheld, _⟩ := hready
    exact ⟨_, exec_summaryLoRead hready, congrArg s.withPart s.part.summaryRead_eq,
      hostRead_summaryHi (s := s.withPart s.part.summaryRead) hheld, s.part.attn_summaryRead,
      fun n => ⟨s.part.latches_notify_summaryRead n, s.part.attn_notify_summaryRead n⟩⟩
  case causeBefore =>
    intro n s hready
    have hready' : (s.withPart (Part.notify n s.part)).busReady := hready
    refine ⟨_, exec_summaryLoRead hready', ?captured, ?off⟩
    case captured =>
      simp only [State.withPart, Part.summaryRead_summary, Part.latches_notify_and_bit]
    case off => simp only [State.withPart, Part.summaryRead_notices, BitVec.zero_and, BitVec.ofNat_eq_ofNat]
  case copyZero =>
    intro s hheld hcopy
    rw [hostRead_summaryHi hheld, hcopy]
    rfl

end Sys2Proof.Machine
end

section
/-! PROOF. The invariants of every step (O58 to O60) and the frames of the commands (O56, O57): what reaches the buffer
memory writes it in canonical form, and what acts for one branch is confined to the supervision of that branch. -/

namespace Sys2Proof.Machine

/-! ## The buffer memory -/

/-- The memory `m'` is `m` after some writes of single bytes. -/
inductive Mem.Written (m : List Host.Cell) : List Host.Cell → Prop
  | refl : Mem.Written m m
  | write {m' : List Host.Cell} (a : Nat) (v : Byte) (h : Mem.Written m m') : Mem.Written m (Mem.write m' a v)

theorem Mem.Written.wf {m m' : List Host.Cell} (h : Mem.Written m m') (hm : Mem.wf m = true) : Mem.wf m' = true := by
  induction h with
  | refl => exact hm
  | write a v _ ih => exact Mem.wf_write _ a v ih

namespace Part

variable (x : Part × List Host.Cell)

/-- A host write that is made writes its own byte or none (R160). -/
theorem makeWrite_mem (a : Addr) (v : Byte) :
    (makeWrite a v x).2 = x.2 ∨ (makeWrite a v x).2 = Mem.write x.2 a.toNat v := by
  unfold makeWrite
  split <;> simp

theorem makeWrite_written (a : Addr) (v : Byte) : Mem.Written x.2 (makeWrite a v x).2 := by
  rcases makeWrite_mem x a v with h | h <;> rw [h]
  · exact .refl
  · exact .write _ _ .refl

theorem makeAccess_written (acc : HostAccess) : Mem.Written x.2 (makeAccess acc x).2 := by
  cases acc with
  | read a => exact .refl
  | write a v => exact makeWrite_written ({ x.1 with hostWait := none }, x.2) a v

theorem releaseHost_written {m : List Host.Cell} (hm : m = x.2) : Mem.Written m (releaseHost x).2 := by
  subst hm
  unfold releaseHost
  split
  · split
    · exact .refl
    · exact makeAccess_written x _
  · exact .refl

theorem memoryWrite_mem (a : Addr) (v : Byte) :
    (memoryWrite a v x).2 = x.2 ∨ (memoryWrite a v x).2 = Mem.write x.2 a.toNat v := by
  unfold memoryWrite
  split
  · exact .inl rfl
  · split
    · exact .inl rfl
    · exact makeWrite_mem x a v

theorem hostWrite_mem (a : Addr) (v : Byte) :
    (hostWrite a v x).2 = x.2 ∨ (hostWrite a v x).2 = Mem.write x.2 a.toNat v := by
  unfold hostWrite
  split
  · exact .inl rfl
  · exact memoryWrite_mem x a v

theorem memoryWrite_written (a : Addr) (v : Byte) : Mem.Written x.2 (memoryWrite a v x).2 := by
  rcases memoryWrite_mem x a v with h | h <;> rw [h]
  · exact .refl
  · exact .write _ _ .refl

theorem hostWrite_written (a : Addr) (v : Byte) : Mem.Written x.2 (hostWrite a v x).2 := by
  rcases hostWrite_mem x a v with h | h <;> rw [h]
  · exact .refl
  · exact .write _ _ .refl

theorem endWait_written (before : Part) : Mem.Written x.2 (endWait before x).2 := by
  unfold endWait
  split
  · exact .refl
  · exact .refl
  · exact makeWrite_written x _ _

theorem commitApplication_written : Mem.Written x.2 (commitApplication x).2 := by
  unfold commitApplication
  split
  · split
    · exact releaseHost_written x rfl
    · exact .refl
  · exact .refl

theorem imageComplete_written : Mem.Written x.2 (imageComplete x).2 := by
  unfold imageComplete
  split
  · exact .refl
  · split
    · split
      · exact releaseHost_written _ rfl
      · exact .refl
    · exact .refl

/-! A memory cycle writes one byte at most (R168). -/

theorem writerCycle_written : Mem.Written x.2 (writerCycle x).2 := by
  unfold writerCycle
  split
  · split
    · exact .write _ _ .refl
    · exact .refl
  · exact .refl

theorem receiveCycle_written (b : Branch) : Mem.Written x.2 (receiveCycle b x).2 := by
  unfold receiveCycle
  extract_lets tx
  have read : Mem.Written x.2 tx.2 := by
    unfold tx
    split <;> exact .refl
  split
  · exact .write _ _ .refl
  · exact .write _ _ .refl
  · exact .write _ _ .refl
  · split
    · exact .refl
    · exact read
  · exact read

theorem copyCycle_written : Mem.Written x.2 (copyCycle x).2 := by
  unfold copyCycle
  split
  · exact .write _ _ .refl
  · split
    · exact .write _ _ .refl
    · exact .write _ _ .refl
    · split <;> exact .refl
  · exact .refl

theorem printerCycle_written (k : Port) : Mem.Written x.2 (printerCycle k x).2 := by
  unfold printerCycle
  split <;> exact .refl

theorem loaderCycle_written : Mem.Written x.2 (loaderCycle x).2 := by
  unfold loaderCycle
  split
  · split
    · exact .write _ _ .refl
    · exact .refl
    · exact .refl
  · exact .refl
  · exact .refl
  · exact .write _ _ .refl
  · exact .refl

theorem cycle_written (r : Requester) {m : List Host.Cell} (hm : m = x.2) : Mem.Written m (cycle r x).2 := by
  subst hm
  cases r with
  | imageWriter => exact writerCycle_written x
  | receive b => exact receiveCycle_written x b
  | copy => exact copyCycle_written x
  | printer k => exact printerCycle_written x k
  | ring => exact (ringCycle_mem x).symm ▸ .refl
  | loader => exact loaderCycle_written x

theorem cyclicGrant_written : Mem.Written x.2 (cyclicGrant x).2 := by
  unfold cyclicGrant
  split
  · exact cycle_written _ _ rfl
  · exact .refl

theorem memoryGrant_written : Mem.Written x.2 (memoryGrant x).2 := by
  unfold memoryGrant
  split
  · exact .refl
  · split
    · exact cyclicGrant_written x
    · split
      · split
        · exact cycle_written x _ rfl
        · exact cyclicGrant_written x
      · exact makeAccess_written x _

end Part

/-- A meaning that acts on the part alone leaves the memory. -/
theorem onPart_mem {f : Part → Part} {s t : State} (h : onPart f s = .next t) : t.mem = s.mem := by
  cases h; rfl

theorem onBoth_next {f : Part × List Host.Cell → Part × List Host.Cell} {s t : State} (h : onBoth f s = .next t) :
    t.part = (f (s.part, s.mem)).1 ∧ t.mem = (f (s.part, s.mem)).2 := by
  cases h; exact ⟨rfl, rfl⟩

/-- The commands that reach the buffer memory (8.1, 8.5). -/
def reachesMemory : Instr → Bool
  | .powerOnReset | .pinResetAssert | .commitApplication | .memoryPortGrant | .imageWriteComplete
  | .hostWrite _ _ | .stationEdit _ _ _ | .bar _ _ _ | .unbar _ _ _ | .clearConflict _ _ _
  | .unitMapEdit _ _ | .nodeListEdit _ _ => true
  | _ => false

/-- A command that does not reach the memory acts on the part alone. -/
theorem exec_mem_of_not_reachesMemory {i : Instr} {s t : State} (hi : reachesMemory i = false)
    (h : exec i s = .next t) : t.mem = s.mem := by
  cases i
  case powerOnReset | pinResetAssert | commitApplication | memoryPortGrant | imageWriteComplete | hostWrite
      | stationEdit | bar | unbar | clearConflict | unitMapEdit | nodeListEdit => cases hi
  case attentionButtonRelease => cases h; rfl
  all_goals exact onPart_mem h

/-- Whatever the command, the memory changes by writes of single bytes. -/
theorem exec_mem_written {i : Instr} {s t : State} (h : exec i s = .next t) : Mem.Written s.mem t.mem := by
  by_cases hi : reachesMemory i = false
  · rw [exec_mem_of_not_reachesMemory hi h]; exact .refl
  · cases i
    case powerOnReset => cases h; exact Part.endWait_written (_, s.mem) _
    case pinResetAssert => cases h; exact Part.endWait_written (_, s.mem) _
    case commitApplication => cases h; exact Part.commitApplication_written (s.part, s.mem)
    case memoryPortGrant => cases h; exact Part.memoryGrant_written (s.part, s.mem)
    case imageWriteComplete => cases h; exact Part.imageComplete_written (s.part, s.mem)
    case hostWrite a v => cases h; exact Part.hostWrite_written (s.part, s.mem) a v
    case stationEdit | bar | unbar | clearConflict | unitMapEdit | nodeListEdit =>
      cases h; exact Part.memoryWrite_written (s.part, s.mem) _ _
    all_goals exact absurd rfl hi

/-- A property of states that every command keeps, whatever waits behind it, every step keeps. -/
theorem step_keeps (P : State → Prop) (hpending : ∀ (s : State) (l : List Instr), P s → P { s with pending := l })
    (hexec : ∀ (i : Instr) (s t : State), P s → exec i s = .next t → P t) (s t : State) (hs : P s)
    (h : step s = .next t) : P t := by
  unfold step at h
  split at h
  · cases h; exact hs
  · exact hexec _ _ _ (hpending s _ hs) h

/-- Settles O58: every command changes the memory by writes of single bytes, and a write keeps the canonical form. -/
theorem everyStepKeepsTheMemoryCanonical : Obligations.EveryStepKeepsTheMemoryCanonical :=
  step_keeps State.memoryCanonical (fun _ _ h => h) fun _ _ _ hs h => (exec_mem_written h).wf hs

/-- Settles O56: the commands named are those that reach the memory, and a host write changes its own byte alone. -/
theorem otherCommandsKeepTheMemory : Obligations.OtherCommandsKeepTheMemory := by
  intro i s t h
  refine ⟨fun h1 h2 h3 h4 h5 h6 h7 h8 h9 h10 => exec_mem_of_not_reachesMemory ?_ h, ?byte⟩
  · cases i
    case powerOnReset => exact absurd rfl h1
    case pinResetAssert => exact absurd rfl h2
    case commitApplication => exact absurd rfl h3
    case memoryPortGrant => exact absurd rfl h4
    case imageWriteComplete => exact absurd rfl h5
    case hostWrite a v => exact absurd rfl (h6 a v)
    case stationEdit b n v => exact absurd rfl (h7 b n v)
    case bar b n p => exact absurd rfl (h8 b n p).1
    case unbar b n p => exact absurd rfl (h8 b n p).2.1
    case clearConflict b n p => exact absurd rfl (h8 b n p).2.2
    case unitMapEdit u v => exact absurd rfl (h9 u v)
    case nodeListEdit n v => exact absurd rfl (h10 n v)
    all_goals rfl
  case byte =>
    rintro a v c rfl hc
    obtain ⟨-, hmem⟩ := onBoth_next h
    rcases Part.hostWrite_mem (s.part, s.mem) a v with hm | hm <;> rw [hmem, hm]
    exact Mem.read_write_ne s.mem a.toNat c v hc

end Sys2Proof.Machine
end

section
/-! PROOF. What acts for one branch is confined to the supervision of that branch, and what acts for none leaves all
supervision: the frames of the events (O57), and the invariants of the drives and of the scores (O59, O60). -/

namespace Sys2Proof.Machine

/-! ## What supervises the branches -/

/-- The switch does not assert both of its drives (R141). -/
def Switch.exclusive (w : Switch) : Prop := (w.rline && w.rprobe) = false

/-- The fields that an act for one branch keeps, but for that branch's own entries. -/
def Part.supervision (p : Part) :
    Setup × Loader × Vector UnitEntry 256 × Vector NodeEntry 64 × Vector Supervisor 4 × Vector Switch 4
      × Vector ProbeRecord 4 × Fin 11 :=
  (p.setup, p.loader, p.units, p.nodes, p.sups, p.switches, p.records, p.arbiter)

/-- From `p` to `q` only branch `b` has acted on its supervision: the setup and the tables stand, so do the supervisor,
the switch and the probe record of every other branch; its own drives stay exclusive and its own score bounded. -/
structure Confined (b : Branch) (p q : Part) : Prop where
  setup : q.setup = p.setup
  loader : q.loader = p.loader
  units : q.units = p.units
  nodes : q.nodes = p.nodes
  arbiter : q.arbiter = p.arbiter
  sup : ∀ c, c ≠ b → q.sup c = p.sup c
  switch : ∀ c, c ≠ b → q.switch c = p.switch c
  records : ∀ c, c ≠ b → q.records.get c = p.records.get c
  drives : (p.switch b).exclusive → (q.switch b).exclusive
  score : (p.branchSetup b).tc ≤ 1023 → (p.sup b).score ≤ 1023 → (q.sup b).score ≤ 1023

namespace Confined

variable {b : Branch} {o p q : Part}

theorem refl (b : Branch) (p : Part) : Confined b p p :=
  ⟨rfl, rfl, rfl, rfl, rfl, fun _ _ => rfl, fun _ _ => rfl, fun _ _ => rfl, id, fun _ => id⟩

theorem trans (h : Confined b o p) (k : Confined b p q) : Confined b o q where
  setup := k.setup.trans h.setup
  loader := k.loader.trans h.loader
  units := k.units.trans h.units
  nodes := k.nodes.trans h.nodes
  arbiter := k.arbiter.trans h.arbiter
  sup c hc := (k.sup c hc).trans (h.sup c hc)
  switch c hc := (k.switch c hc).trans (h.switch c hc)
  records c hc := (k.records c hc).trans (h.records c hc)
  drives hw := k.drives (h.drives hw)
  score ht hs := k.score (by rwa [Part.branchSetup_def, h.setup]) (h.score ht hs)

/-- What leaves all supervision is confined to any branch. -/
theorem same (h : Confined b o p) (e : q.supervision = p.supervision) : Confined b o q := by
  simp only [Part.supervision, Prod.mk.injEq] at e
  obtain ⟨hsetup, hloader, hunits, hnodes, hsups, hswitches, hrecords, harbiter⟩ := e
  refine h.trans ⟨hsetup, hloader, hunits, hnodes, harbiter, ?_, ?_, ?_, ?_, ?_⟩
  · intro c _; rw [Part.sup_def, hsups, Part.sup_def]
  · intro c _; rw [Part.switch_def, hswitches, Part.switch_def]
  · intro c _; rw [hrecords]
  · rw [Part.switch_def, Part.switch_def, hswitches]; exact id
  · rw [Part.sup_def, Part.sup_def, hsups]; exact fun _ => id

/-- A change of the branch's own supervisor that keeps the score bounded. -/
theorem modSup (h : Confined b o p) (f : Supervisor → Supervisor)
    (hf : (p.branchSetup b).tc ≤ 1023 → (p.sup b).score ≤ 1023 → (f (p.sup b)).score ≤ 1023) :
    Confined b o (Part.modSup b f p) := by
  refine h.trans ⟨rfl, rfl, rfl, rfl, rfl, fun c hc => Part.sup_modSup_ne b c f p hc, fun _ _ => rfl, fun _ _ => rfl, id, ?_⟩
  rwa [Part.sup_modSup_self]

/-- A change of the branch's own switch that keeps its drives exclusive. -/
theorem modSwitch (h : Confined b o p) (f : Switch → Switch)
    (hf : (p.switch b).exclusive → (f (p.switch b)).exclusive) : Confined b o (Part.modSwitch b f p) := by
  refine h.trans ⟨rfl, rfl, rfl, rfl, rfl, fun _ _ => rfl, fun c hc => Part.switch_modSwitch_ne b c f p hc, fun _ _ => rfl, ?_,
    fun _ => id⟩
  rwa [Part.switch_modSwitch_self]

/-- A change of a switch that leaves its drives. -/
theorem modSwitch_undriven (h : Confined b o p) (f : Switch → Switch)
    (hf : ∀ w, (f w).rline = w.rline ∧ (f w).rprobe = w.rprobe) : Confined b o (Part.modSwitch b f p) :=
  h.modSwitch f fun hw => by
    obtain ⟨h1, h2⟩ := hf (p.switch b)
    rwa [Switch.exclusive, h1, h2]

/-- The steps of a run of acts for one branch, one after another. -/
theorem each {α : Type} (l : List α) (f : α → Part → Part) (hf : ∀ x {p}, Confined b o p → Confined b o (f x p))
    (h : Confined b o p) : Confined b o (Machine.each l f p) :=
  each_keeps_prop (Confined b o) l f (fun x _ hp => hf x hp) p h

theorem awake (f : Part → Part) (h : ∀ p, Confined b p (f p)) (p : Part) : Confined b p (Part.awake f p) := by
  simp only [Part.awake]
  split
  · exact refl b p
  · exact h p


/-! ## What leaves all supervision -/

theorem notify (n : Notice) (h : Confined b o p) : Confined b o (Part.notify n p) := h.same (by simp [Part.supervision])

theorem toTrunkEvent (h : Confined b o p) : Confined b o (Part.toTrunkEvent p) := h.same (by simp [Part.supervision])

theorem modSense (f : Sense → Sense) (h : Confined b o p) : Confined b o (Part.modSense f p) :=
  h.same (by simp [Part.supervision])

theorem modEngine (c : Branch) (f : Engine → Engine) (h : Confined b o p) : Confined b o (Part.modEngine c f p) :=
  h.same (by simp [Part.supervision])

theorem modRouter (f : Router → Router) (h : Confined b o p) : Confined b o (Part.modRouter f p) :=
  h.same (by simp [Part.supervision])

theorem modProbe (f : ProbeUnit → ProbeUnit) (h : Confined b o p) : Confined b o (Part.modProbe f p) :=
  h.same (by simp [Part.supervision])

theorem modPath (c : Branch) (f : List PathOp → List PathOp) (h : Confined b o p) : Confined b o (Part.modPath c f p) :=
  h.same (by simp [Part.supervision])

theorem writeCapture (n : BitVec 16) (h : Confined b o p) : Confined b o (Part.writeCapture b n p) :=
  h.same (by simp [Part.supervision])

theorem writeProbe (h : Confined b o p) : Confined b o (Part.writeProbe b p) := h.same (by simp [Part.supervision])

theorem switchFlush (c : Branch) (h : Confined b o p) : Confined b o (Part.switchFlush c p) :=
  h.same (by simp [Part.supervision])

theorem abandonProbe (c : Branch) (h : Confined b o p) : Confined b o (Part.abandonProbe c p) :=
  h.same (by simp [Part.supervision])

theorem haltEngine (c : Branch) (h : Confined b o p) : Confined b o (Part.haltEngine c p) :=
  h.same (by simp [Part.supervision])

theorem completeEntry (c : Branch) (e : TxEntry) (code : TxCode) (h : Confined b o p) :
    Confined b o (Part.completeEntry c e code p) := h.same (by simp [Part.supervision])

/-! ## The supervisor (6.1 to 6.4) -/

theorem countError (k : ErrorKind) (h : Confined b o p) : Confined b o (Part.countError b k p) :=
  h.modSup _ (by exact fun _ hs => hs)

theorem captureError (r : ErrorReport) (h : Confined b o p) : Confined b o (Part.captureError b r p) := by
  simp only [Part.captureError]
  split
  · split
    · split
      · exact writeCapture _ (h.modSup _ (by exact fun _ hs => hs))
      · exact h
    · exact writeCapture _ (h.modSup _ (by exact fun _ hs => hs))
  · exact h

theorem warnTest (h : Confined b o p) : Confined b o (Part.warnTest b p) := by
  simp only [Part.warnTest]
  split
  · exact (h.modSup _ (by exact fun _ hs => hs)).notify _
  · split
    · exact h.modSup _ (by exact fun _ hs => hs)
    · exact h

theorem addWeight (k : ErrorKind) (h : Confined b o p) : Confined b o (Part.addWeight b k p) := by
  unfold Part.addWeight
  exact h.modSup _ fun _ _ => Nat.min_le_left _ _

theorem scoreError (r : ErrorReport) (h : Confined b o p) : Confined b o (Part.scoreError b r p) :=
  ((((h.countError r.kind).captureError r).addWeight r.kind).modSup _ (by exact fun _ hs => hs)).warnTest

theorem releaseCapture (h : Confined b o p) : Confined b o (Part.releaseCapture b p) :=
  writeCapture _ (h.modSup _ (by exact fun _ hs => hs))

theorem decayScore (h : Confined b o p) : Confined b o (Part.decayScore b p) := by
  unfold Part.decayScore
  exact modSup (warnTest (modSup h _ fun _ hs => Nat.le_trans (Nat.sub_le _ _) hs)) _ (by exact fun _ hs => hs)

theorem creditRound (h : Confined b o p) : Confined b o (Part.creditRound b p) := by
  unfold Part.creditRound
  refine modSup ?_ _ fun _ hs => hs
  split
  · exact warnTest (modSup h _ fun _ hs => Nat.le_trans (Nat.sub_le _ _) hs)
  · exact h

theorem zeroScore (h : Confined b o p) : Confined b o (Part.zeroScore b p) := h.modSup _ fun _ _ => Nat.zero_le _

/-- Entry to ON_TRIAL makes the score TC, which the setup keeps at most 1023 (R127, R133). -/
theorem trialScore (h : Confined b o p) : Confined b o (Part.trialScore b p) :=
  warnTest (modSup h _ fun ht _ => ht)

theorem openGate (h : Confined b o p) : Confined b o (Part.openGate b p) := h.modSup _ (by exact fun _ hs => hs)

theorem closeGate (h : Confined b o p) : Confined b o (Part.closeGate b p) := h.modSup _ (by exact fun _ hs => hs)

theorem discardGate (h : Confined b o p) : Confined b o (Part.discardGate b p) := h.modSup _ (by exact fun _ hs => hs)

theorem scoreAll (l : List ErrorReport) (h : Confined b o p) : Confined b o (Part.scoreAll b l p) :=
  each l _ (fun r {_} hp => hp.scoreError r) h

/-! ## The branch switch (R140 to R150) -/

theorem setSwitch (new : SwitchState) (h : Confined b o p) : Confined b o (Part.setSwitch b new p) := by
  unfold Part.setSwitch
  extract_lets old p1 p2
  have h1 : Confined b o p1 := h.modSwitch_undriven _ (by exact fun _ => ⟨rfl, rfl⟩)
  have h2 : Confined b o p2 := by
    unfold p2
    split
    · exact h1.modSense _
    · exact h1
  split
  · exact h2
  · exact h2.toTrunkEvent

theorem releaseDrives (h : Confined b o p) : Confined b o (Part.releaseDrives b p) := h.modSwitch _ fun _ => rfl

theorem moveOpen (h : Confined b o p) : Confined b o (Part.moveOpen b p) :=
  h.releaseDrives.modSwitch_undriven _ (by exact fun _ => ⟨rfl, rfl⟩)

theorem enterStopped (h : Confined b o p) : Confined b o (Part.enterStopped b p) := (h.haltEngine b).scoreAll _

theorem stopReported (h : Confined b o p) : Confined b o (Part.stopReported b p) := by
  simp only [Part.stopReported]
  split
  · exact ((h.switchFlush b).setSwitch _).moveOpen
  · exact h

theorem stopRequest (h : Confined b o p) : Confined b o (Part.stopRequest b p) := by
  have running : Confined b o (if (p.engine b).phase.inExchange then
        Part.modEngine b (fun g => { g with state := .stopping }) p
      else if (p.engine b).phase = .listen then
        Part.stopReported b (Part.enterStopped b
          (Part.scoreAll b ((Part.closeGate b p).gateReports b) (Part.closeGate b p)))
      else Part.stopReported b (Part.enterStopped b p)) := by
    split
    · exact h.modEngine b _
    · split
      · exact (h.closeGate.scoreAll _).enterStopped.stopReported
      · exact h.enterStopped.stopReported
  unfold Part.stopRequest
  cases hs : (p.engine b).state with
  | stopped => simpa only [hs] using h.stopReported
  | stopping => simpa only [hs] using h
  | initialSweep => simpa only [hs] using running
  | rounds => simpa only [hs] using running

theorem requestIsolation (r : IsoReason) (d : Destination) (h : Confined b o p) :
    Confined b o (Part.requestIsolation b r d p) := by
  simp only [Part.requestIsolation]
  split
  · exact ((h.modSwitch_undriven _ (by exact fun _ => ⟨rfl, rfl⟩)).setSwitch _).stopRequest
  · exact h

theorem isolationTest (k : ErrorKind) (h : Confined b o p) : Confined b o (Part.isolationTest b k p) := by
  simp only [Part.isolationTest]
  split
  · exact h.requestIsolation _ _
  · split
    · exact h.requestIsolation _ _
    · split
      · exact h.requestIsolation _ _
      · exact h

theorem handleError (r : ErrorReport) (h : Confined b o p) : Confined b o (Part.handleError b r p) :=
  (h.scoreError r).isolationTest _

theorem handleAll (l : List ErrorReport) (h : Confined b o p) : Confined b o (Part.handleAll b l p) :=
  each l _ (fun r {_} hp => hp.handleError r) h

theorem faultStop (h : Confined b o p) : Confined b o (Part.faultStop b p) := by
  unfold Part.faultStop
  extract_lets p1 p2 p3
  have h1 : Confined b o p1 := h.releaseDrives.modSwitch_undriven _ (by exact fun _ => ⟨rfl, rfl⟩)
  have h2 : Confined b o p2 := by
    unfold p2
    split
    · exact h1.discardGate
    · exact h1
  have h3 : Confined b o p3 := by
    unfold p3
    split
    · exact h2
    · exact h2.haltEngine b
  exact (h3.switchFlush b).abandonProbe b

theorem faultLock (h : Confined b o p) : Confined b o (Part.faultLock b p) :=
  ((((h.faultStop.modSwitch_undriven _ (by exact fun _ => ⟨rfl, rfl⟩)).setSwitch _).notify _).notify _).scoreAll _

theorem assertLine (h : Confined b o p) : Confined b o (Part.assertLine b p) := by
  unfold Part.assertLine
  extract_lets q
  have hq : Confined b o q := h.modSwitch _ fun _ => rfl
  split
  · exact hq.faultLock
  · exact hq

theorem assertProbe (h : Confined b o p) : Confined b o (Part.assertProbe b p) := by
  unfold Part.assertProbe
  extract_lets q
  have hq : Confined b o q := h.modSwitch _ fun _ => rfl
  split
  · exact hq.faultLock
  · exact hq

theorem beginEnable (h : Confined b o p) : Confined b o (Part.beginEnable b p) :=
  ((h.modSwitch_undriven _ (by exact fun _ => ⟨rfl, rfl⟩)).setSwitch _).assertLine

theorem beginRestore (h : Confined b o p) : Confined b o (Part.beginRestore b p) :=
  ((h.modSwitch_undriven _ (by exact fun _ => ⟨rfl, rfl⟩)).setSwitch _).assertLine

theorem takeRestore (h : Confined b o p) : Confined b o (Part.takeRestore b p) :=
  (h.modSwitch_undriven _ (by exact fun _ => ⟨rfl, rfl⟩)).beginRestore

theorem disableStations (c : Branch) (h : Confined b o p) : Confined b o (Part.disableStations c p) :=
  h.same (by simp [Part.supervision])

theorem disabledEntry (h : Confined b o p) : Confined b o (Part.disabledEntry b p) := by
  unfold Part.disabledEntry
  extract_lets p1 p2
  have h1 : Confined b o p1 := (h.setSwitch _).modSwitch_undriven _ (by exact fun _ => ⟨rfl, rfl⟩)
  have h2 : Confined b o p2 := (h1.disableStations b).zeroScore.releaseCapture
  split
  · exact (h2.modSwitch_undriven _ (by exact fun _ => ⟨rfl, rfl⟩)).beginEnable
  · exact h2

theorem faultDisable (h : Confined b o p) : Confined b o (Part.faultDisable b p) :=
  ((h.faultStop.scoreAll _).notify _).disabledEntry

theorem takeFault (h : Confined b o p) : Confined b o (Part.takeFault b p) := by
  simp only [Part.takeFault]
  split
  · exact h.faultDisable
  · exact h.faultLock

theorem enableBranch (h : Confined b o p) : Confined b o (Part.enableBranch b p) := by
  simp only [Part.enableBranch]
  split
  · exact h.beginEnable
  · split
    · exact h.modSwitch_undriven _ (by exact fun _ => ⟨rfl, rfl⟩)
    · exact h

theorem disableBranch (h : Confined b o p) : Confined b o (Part.disableBranch b p) := by
  unfold Part.disableBranch
  extract_lets w toDisabled
  have hd : Confined b o toDisabled := h.modSwitch_undriven _ (by exact fun _ => ⟨rfl, rfl⟩)
  have running : Confined b o (Part.stopRequest b (Part.setSwitch b .draining (Part.modSwitch b (fun w =>
        { w with dest := some .disabled, verdict := .none, trial := 0 }) p))) :=
    ((h.modSwitch_undriven _ (by exact fun _ => ⟨rfl, rfl⟩)).setSwitch _).stopRequest
  split
  · exact h.modSwitch_undriven _ (by exact fun _ => ⟨rfl, rfl⟩)
  · split
    · exact running
    · exact running
    · exact hd
    · exact hd
    · exact hd
    · exact h.disabledEntry
    · exact h.disabledEntry
    · split
      · exact hd
      · exact (h.abandonProbe b).disabledEntry
    · exact h

/-! ## The trunk engine (R5, R9 to R20) -/

theorem beginExchange (kind : ExchKind) (n : StationNo) (entry : Option BufNo) (seq : Bool)
    (sent : List (Byte × Bool)) (rd : Option TxRead) (h : Confined b o p) :
    Confined b o (Part.beginExchange b kind n entry seq sent rd p) := (h.modEngine b _).handleAll _

theorem allocate {buf : BufNo} (h : Confined b o p) (e : p.allocate = some (buf, q)) : Confined b o q := by
  unfold Part.allocate at e
  split at e
  · cases e
  · cases e; exact h.same (by simp [Part.supervision])

theorem reserve (h : Confined b o p) (e : p.reserve b = some q) : Confined b o q := by
  unfold Part.reserve at e
  split at e
  · cases e; exact h
  · split at e
    · cases e; exact (h.allocate (by assumption)).modEngine b _
    · cases e

theorem skipPoll (h : Confined b o p) : Confined b o (Part.skipPoll b p) := h.modEngine b _

theorem beginPoll (kind : ExchKind) (n : StationNo) (h : Confined b o p) (e : p.beginPoll b kind n = some q) :
    Confined b o q := by
  unfold Part.beginPoll at e
  obtain ⟨r, hr, rfl⟩ := Option.map_eq_some_iff.mp e
  exact (h.reserve hr).beginExchange ..

theorem beginSend (e : TxEntry) (h : Confined b o p) : Confined b o (Part.beginSend b e p) := h.beginExchange ..

theorem startPadding (h : Confined b o p) : Confined b o (Part.startPadding b p) := h.modEngine b _

/-- What follows the parts of a round is confined where what ends the round is. -/
def Ends (b : Branch) (o : Part) (fin : Part → Part) : Prop := ∀ p, Confined b o p → Confined b o (fin p)

variable {fin : Part → Part}

theorem listenSlot (hf : Ends b o fin) (h : Confined b o p) : Confined b o (Part.listenSlot b fin p) := by
  simp only [Part.listenSlot]
  split
  · exact hf p h
  · exact (h.modEngine b _).openGate.handleAll _

theorem sweepSlot (hf : Ends b o fin) (h : Confined b o p) : Confined b o (Part.sweepSlot b fin p) := by
  simp only [Part.sweepSlot]
  split
  · split
    · exact h.listenSlot hf
    · split
      · exact h.skipPoll.listenSlot hf
      · exact ((h.reserve (by assumption)).modEngine b _).beginExchange ..
  · exact hf p h

theorem runVisits (hf : Ends b o fin) (l : List VisitItem) (h : Confined b o p) :
    Confined b o (Part.runVisits b fin l p) := by
  induction l generalizing p with
  | nil => exact (h.modEngine b _).sweepSlot hf
  | cons i r ih =>
    simp only [Part.runVisits]
    split
    · exact ih (h.modEngine b _)
    · split
      · exact (h.modEngine b _).beginSend _
      · split
        · exact (h.modEngine b _).beginPoll _ _ (by assumption)
        · exact ih ((h.modEngine b _).skipPoll.modEngine b _)

theorem beginVisits (hf : Ends b o fin) (h : Confined b o p) : Confined b o (Part.beginVisits b fin p) :=
  h.runVisits hf _

theorem beginRound (hf : Ends b o fin) (h : Confined b o p) : Confined b o (Part.beginRound b fin p) := by
  simp only [Part.beginRound]
  split
  · exact ((h.modEngine b _).modEngine b _).beginSend _
  · exact (h.modEngine b _).beginVisits hf

theorem startPadding_ends : Ends b o (Part.startPadding b) := fun _ h => h.startPadding

theorem trialRound (h : Confined b o p) : Confined b o (Part.trialRound b p) := by
  simp only [Part.trialRound]
  split
  · split
    · exact ((h.modSwitch_undriven _ (by exact fun _ => ⟨rfl, rfl⟩)).setSwitch _).notify _
    · exact h.modSwitch_undriven _ (by exact fun _ => ⟨rfl, rfl⟩)
  · exact h

theorem reportRound (h : Confined b o p) : Confined b o (Part.reportRound b p) :=
  (h.modEngine b _).creditRound.trialRound

theorem endRound (h : Confined b o p) : Confined b o (Part.endRound b p) := h.reportRound.beginRound startPadding_ends

theorem finishRound (h : Confined b o p) : Confined b o (Part.finishRound b p) := by
  simp only [Part.finishRound]
  split
  · exact h.endRound
  · exact h.startPadding

theorem finishRound_ends : Ends b o (Part.finishRound b) := fun _ h => h.finishRound

theorem runInitial (l : List StationNo) (h : Confined b o p) : Confined b o (Part.runInitial b l p) := by
  induction l generalizing p with
  | nil => exact (h.modEngine b _).beginRound startPadding_ends
  | cons n r ih =>
    simp only [Part.runInitial]
    split
    · split
      · exact (h.modEngine b _).beginPoll _ _ (by assumption)
      · exact ih (h.modEngine b _).skipPoll
    · exact ih (h.modEngine b _)

theorem startEngine (h : Confined b o p) : Confined b o (Part.startEngine b p) := by
  simp only [Part.startEngine]
  split
  · exact (h.modEngine b _).runInitial _
  · exact h

theorem goOn (h : Confined b o p) : Confined b o (Part.goOn b p) := by
  simp only [Part.goOn]
  split
  · exact h.runInitial _
  · split
    · exact h.beginVisits finishRound_ends
    · exact h.runVisits finishRound_ends _
    · exact h.listenSlot finishRound_ends
  · exact h
  · exact h

theorem turnaroundEnd (h : Confined b o p) : Confined b o (Part.turnaroundEnd b p) := by
  unfold Part.turnaroundEnd
  extract_lets g p1 p2
  split
  · have h1 : Confined b o p1 := by
      unfold p1
      split
      · exact h.completeEntry ..
      · exact h
    have h2 : Confined b o p2 := h1.modEngine b _
    split
    · exact h2.enterStopped.stopReported
    · exact h2.goOn
  · exact h

theorem transmissionEnd (h : Confined b o p) : Confined b o (Part.transmissionEnd b p) := by
  simp only [Part.transmissionEnd]
  split
  · split
    · exact h
    · split
      · split
        · exact (h.modEngine b _).completeEntry ..
        · exact h.modEngine b _
      · exact h.modEngine b _
  · exact h.modEngine b _
  · exact h

theorem listenEnd (h : Confined b o p) : Confined b o (Part.listenEnd b p) := by
  unfold Part.listenEnd
  split
  · extract_lets p1 errors p2 p3
    have h1 : Confined b o p1 := h.closeGate.modEngine b _
    split
    · have h3 : Confined b o p3 := h1.reportRound.handleAll _
      split
      · exact h3.beginRound startPadding_ends
      · exact h3
    · exact h1.handleAll _
  · exact h

theorem paddingEnd (h : Confined b o p) : Confined b o (Part.paddingEnd b p) := by
  simp only [Part.paddingEnd]
  split
  · exact h.endRound
  · exact h

theorem strayEnd (h : Confined b o p) : Confined b o (Part.strayEnd b p) := by
  simp only [Part.strayEnd]
  split
  · exact (h.modEngine b _).handleAll _
  · exact h

/-! ## The restore checks (R137, R149) and the probe unit -/

theorem startRestoreTimer (h : Confined b o p) : Confined b o (Part.startRestoreTimer b p) := by
  unfold Part.startRestoreTimer
  exact h.modSwitch_undriven _ (by exact fun _ => ⟨rfl, rfl⟩)

theorem answerCheck (c : LoopClass) (h : Confined b o p) : Confined b o (Part.answerCheck b c p) := by
  unfold Part.answerCheck
  extract_lets w q
  have hq : Confined b o q := (h.modSense _).modSwitch_undriven _ (by exact fun _ => ⟨rfl, rfl⟩)
  split
  · split
    · exact hq.beginRestore
    · exact hq.startRestoreTimer
  · exact hq

theorem askCheck (h : Confined b o p) : Confined b o (Part.askCheck b p) := by
  unfold Part.askCheck
  extract_lets p1
  have h1 : Confined b o p1 := h.modSwitch_undriven _ (by exact fun _ => ⟨rfl, rfl⟩)
  split
  · exact h1.answerCheck _
  · exact h1.modSense _

theorem restoreExpiry (h : Confined b o p) : Confined b o (Part.restoreExpiry b p) := by
  simp only [Part.restoreExpiry]
  split
  · have h1 := h.modSwitch_undriven (fun w => { w with restore := none }) fun _ => ⟨rfl, rfl⟩
    split
    · exact h1
    · exact h1.askCheck
  · exact h

theorem askProbe (back : ReturnState) (byHost : Bool) (h : Confined b o p) :
    Confined b o (Part.askProbe b back byHost p) :=
  ((h.setSwitch _).modSwitch_undriven _ (by exact fun _ => ⟨rfl, rfl⟩)).modProbe _

theorem putRecord (r : ProbeRecord) (u : ProbeUnit) (h : Confined b o p) :
    Confined b o { p with records := put p.records b r, probe := u } :=
  h.trans ⟨rfl, rfl, rfl, rfl, rfl, fun _ _ => rfl, fun _ _ => rfl, fun c hc => get_put_ne _ b c r hc, id, fun _ => id⟩

theorem probeDone (h : Confined b o p) : Confined b o (Part.probeDone b p) := by
  unfold Part.probeDone
  extract_lets r blank p1 p2 w p3
  have h1 : Confined b o p1 := writeProbe (h.putRecord r _)
  have h2 : Confined b o p2 := h1.modSwitch_undriven _ (by exact fun _ => ⟨rfl, rfl⟩)
  have h3 : Confined b o p3 := h2.modSwitch_undriven _ (by exact fun _ => ⟨rfl, rfl⟩)
  split
  · exact h2.disabledEntry
  · split
    · exact h3.setSwitch _
    · exact (h3.setSwitch _).startRestoreTimer

/-! ## The events of the switch (R141 to R152) -/

theorem beginRunning (h : Confined b o p) : Confined b o (Part.beginRunning b p) := by
  simp only [Part.beginRunning]
  split
  · exact ((h.modSense _).setSwitch _).zeroScore.startEngine
  · exact (((h.modSense _).modSwitch_undriven _ (by exact fun _ => ⟨rfl, rfl⟩)).setSwitch _).trialScore.startEngine

theorem lineReached (h : Confined b o p) : Confined b o (Part.lineReached b p) := by
  simp only [Part.lineReached]
  split
  · split
    · exact (h.setSwitch _).stopRequest
    · exact h.beginRunning
  · exact h

theorem settleIsolation (h : Confined b o p) : Confined b o (Part.settleIsolation b p) := by
  unfold Part.settleIsolation
  extract_lets w n out p1 p2
  split
  · exact h.disabledEntry
  · have h1 : Confined b o p1 := h.modSwitch_undriven _ (by exact fun _ => ⟨rfl, rfl⟩)
    have h2 : Confined b o p2 := by
      refine notify _ ?_
      split
      · exact h1.setSwitch _
      · exact (h1.setSwitch _).startRestoreTimer
    split
    · exact h2.askProbe _ _
    · exact h2

theorem openReached (h : Confined b o p) : Confined b o (Part.openReached b p) := by
  simp only [Part.openReached]
  split
  · exact h.settleIsolation
  · exact h.probeDone
  · exact h

theorem probeReached (h : Confined b o p) : Confined b o (Part.probeReached b p) := by
  simp only [Part.probeReached]
  split
  · exact h.modProbe _
  · exact h

theorem relaySettle (h : Confined b o p) : Confined b o (Part.relaySettle b p) := by
  simp only [Part.relaySettle]
  split
  · exact h
  · split
    · exact h
    · split
      · exact (h.modSwitch_undriven _ (by exact fun _ => ⟨rfl, rfl⟩)).lineReached
      · exact (h.modSwitch_undriven _ (by exact fun _ => ⟨rfl, rfl⟩)).openReached
      · exact (h.modSwitch_undriven _ (by exact fun _ => ⟨rfl, rfl⟩)).probeReached

theorem relayFault (low : Bool) (h : Confined b o p) : Confined b o (Part.relayFault b low p) := by
  unfold Part.relayFault
  have hq := h.modSwitch_undriven (fun w => { w with rflt := low }) fun _ => ⟨rfl, rfl⟩
  split
  · exact hq.takeFault
  · exact hq

theorem pressBranch (h : Confined b o p) : Confined b o (Part.pressBranch b p) := by
  simp only [Part.pressBranch]
  split
  · exact h.requestIsolation _ _
  · exact h.requestIsolation _ _
  · exact h.takeRestore
  · exact h.takeRestore
  · exact h

theorem flashToggle (h : Confined b o p) : Confined b o (Part.flashToggle b p) :=
  h.modSwitch_undriven _ fun w => by split <;> exact ⟨rfl, rfl⟩

/-! ## The receiver (R1 to R7, R15 to R21, R125) -/

theorem modReply (f : Reply → Reply) (h : Confined b o p) : Confined b o (Part.modReply b f p) := h.modEngine b _

theorem setPhase (c : Branch) (ph : Phase) (h : Confined b o p) : Confined b o (Part.setPhase c ph p) := h.modEngine c _

theorem reportClean (c : Branch) (n : StationNo) (void : Bool) (h : Confined b o p) :
    Confined b o (Part.reportClean c n void p) := h.same (by simp [Part.supervision])

theorem reportDelivery (c : Branch) (n : StationNo) (void : Bool) (h : Confined b o p) :
    Confined b o (Part.reportDelivery c n void p) := h.same (by simp [Part.supervision])

theorem reportMiss (c : Branch) (n : StationNo) (void : Bool) (h : Confined b o p) :
    Confined b o (Part.reportMiss c n void p) := h.same (by simp [Part.supervision])

theorem reportGarble (c : Branch) (n : StationNo) (void : Bool) (score : Nat) (h : Confined b o p) :
    Confined b o (Part.reportGarble c n void score p) := h.same (by simp [Part.supervision])

theorem reportGood (x : Exchange) (h : Confined b o p) : Confined b o (Part.reportGood b x p) := by
  simp only [Part.reportGood]
  split
  · exact h.same (by simp [Part.supervision])
  · exact h.reportClean ..

theorem garbled (x : Exchange) (k : ErrorKind) (h : Confined b o p) : Confined b o (Part.garbled b x k p) :=
  reportGarble _ _ _ _ (handleError _ (setPhase b _ h))

theorem storeByte (off : Nat) (v : Byte) (h : Confined b o p) : Confined b o (Part.storeByte b off v p) := by
  simp only [Part.storeByte]
  split
  · exact h.modPath b _
  · exact h

theorem delivered (x : Exchange) (h : Confined b o p) : Confined b o (Part.delivered b x p) := by
  have h1 : Confined b o (Part.setPhase b .turnaround
      (Part.reportDelivery b x.station x.void (Part.reportClean b x.station x.void p))) :=
    setPhase b _ (reportDelivery b _ _ (reportClean b _ _ h))
  simp only [Part.delivered]
  split
  · exact h1.completeEntry ..
  · exact h1

theorem heldBack (x : Exchange) (h : Confined b o p) : Confined b o (Part.heldBack b x p) := by
  have h1 := (h.reportClean b x.station x.void).setPhase b .turnaround
  simp only [Part.heldBack]
  split
  · split
    · exact (h1.modEngine b _).completeEntry ..
    · exact h1.modEngine b _
  · exact h1

theorem statusCode (x : Exchange) (v : Byte) (h : Confined b o p) : Confined b o (Part.statusCode b x v p) := by
  simp only [Part.statusCode]
  split
  · split
    · split
      · exact h.delivered x
      · exact h.garbled ..
    · split
      · exact h.heldBack x
      · exact h.garbled ..
  · split
    · exact (h.reportGood x).setPhase b _
    · exact h.garbled ..

theorem firstChar (x : Exchange) (c : LineChar) (h : Confined b o p) : Confined b o (Part.firstChar b x c p) := by
  simp only [Part.firstChar]
  split
  · exact h.garbled ..
  · split
    · exact h.modReply _
    · split
      · exact h.modReply _
      · exact h.garbled ..

end Confined

/-! ## What leaves all supervision

The walks, the jobs, the ports and the router act for no branch. -/

namespace Part

/-! ### Jobs and ports -/

theorem supervision_stopSubmitCopy (p : Part) : (stopSubmitCopy p).supervision = p.supervision := by
  unfold stopSubmitCopy
  split
  · split <;> simp [supervision, endCopy]
  · rfl

theorem supervision_abortFilling (j : JobNo) (r : JobResult) (p : Part) :
    (abortFilling j r p).supervision = p.supervision := by
  unfold abortFilling
  split
  · exact (supervision_stopSubmitCopy _).trans (by simp [supervision])
  · simp [supervision]

theorem supervision_idleLoad (k : Port) (p : Part) : (idleLoad k p).supervision = p.supervision := by
  simp [supervision]

theorem supervision_redirectExpiry (k : Port) (p : Part) : (redirectExpiry k p).supervision = p.supervision := by
  unfold redirectExpiry
  split
  · rfl
  · extract_lets p1
    have h1 : p1.supervision = p.supervision := by simp [p1, supervision]
    split
    · exact h1
    · rw [supervision_idleLoad, ← h1]
      refine each_keeps_view supervision _ _ (fun j q => ?_) p1
      split <;> simp [supervision]

theorem supervision_disablePort (k : Port) (p : Part) : (disablePort k p).supervision = p.supervision := by
  unfold disablePort
  extract_lets p1 p2 p3 p4 was p5
  have h1 : p1.supervision = p.supervision := by
    unfold p1
    split <;> simp [supervision]
  have h2 : p2.supervision = p.supervision := by
    refine (each_keeps_view supervision _ _ (fun j q => ?_) p1).trans h1
    split
    · exact supervision_abortFilling ..
    · rfl
  have h3 : p3.supervision = p.supervision := by
    unfold p3
    split
    · exact h2
    · refine (each_keeps_view supervision _ _ (fun j q => ?_) p2).trans h2
      split <;> simp [supervision]
  have h4 : p4.supervision = p.supervision :=
    (each_keeps_view supervision _ _ (fun j q => by simp [supervision]) p3).trans h3
  refine Eq.trans ?_ h4
  split <;> simp [p5, supervision]

theorem supervision_checkSubmitJob (p : Part) : (checkSubmitJob p).supervision = p.supervision := by
  unfold checkSubmitJob
  split
  · split <;> simp [supervision, subDone]
  · rfl

theorem supervision_returnBuffer (v : Byte) (p : Part) : (returnBuffer v p).supervision = p.supervision := by
  unfold returnBuffer
  split <;> simp [supervision]

theorem supervision_jobRelease (v : Byte) (p : Part) : (jobRelease v p).supervision = p.supervision := by
  unfold jobRelease
  split
  · simp [supervision]
  · split <;> simp [supervision]

theorem supervision_abortByHost (j : JobNo) (p : Part) : (abortByHost j p).supervision = p.supervision := by
  unfold abortByHost
  extract_lets x k
  split
  · exact (supervision_checkSubmitJob _).trans (supervision_abortFilling ..)
  · simp [supervision]
  · simp [supervision]
  · split
    · rfl
    · split <;> simp [supervision]
  · simp [supervision]

theorem supervision_jobAbort (v : Byte) (p : Part) : (jobAbort v p).supervision = p.supervision := by
  unfold jobAbort
  split
  · simp [supervision]
  · exact supervision_abortByHost ..

theorem supervision_jobMoveJob (v : Byte) (p : Part) : (jobMoveJob v p).supervision = p.supervision := by
  unfold jobMoveJob
  split <;> simp [supervision]

theorem supervision_moveJobTo (j : JobNo) (k : Port) (p : Part) : (moveJobTo j k p).supervision = p.supervision := by
  unfold moveJobTo
  extract_lets old p1
  refine Eq.trans (by simp [supervision]) (show p1.supervision = p.supervision from ?_)
  unfold p1
  split <;> simp [supervision]

theorem supervision_jobMovePrinter (v : Byte) (p : Part) : (jobMovePrinter v p).supervision = p.supervision := by
  have moved (j : JobNo) (k : Port) : (if !(p.printerSetup k).enable then refuse .badState 0x09 p
      else if !(p.queue k).contains j && !p.hasRoom k then refuse .queueFull 0x09 p
      else moveJobTo j k p).supervision = p.supervision := by
    split
    · simp [supervision]
    · split
      · simp [supervision]
      · exact supervision_moveJobTo ..
  unfold jobMovePrinter
  extract_lets j
  split
  · simp [supervision]
  · split
    · exact moved ..
    · exact moved ..
    · simp [supervision]

theorem supervision_loadGrant (v : Byte) (p : Part) : (loadGrant v p).supervision = p.supervision := by
  unfold loadGrant
  split <;> simp [supervision]

/-! ### The walks and the copy engine -/

theorem supervision_ttFields (l : List Byte) (p : Part) : (ttFields l p).supervision = p.supervision := by
  unfold ttFields
  extract_lets m
  split <;> simp [supervision, ttFail]

theorem supervision_ttRead (l : List Byte) (p : Part) : (ttRead l p).supervision = p.supervision := by
  unfold ttRead
  split
  · rfl
  · simp [supervision]
  all_goals
    split
    · simp [supervision]
    · exact supervision_ttFields ..

theorem supervision_postToTrunk (p : Part) : (postToTrunk p).supervision = p.supervision := by
  unfold postToTrunk
  split <;> simp [supervision]

theorem supervision_toTrunkRetry (p : Part) : (toTrunkRetry p).supervision = p.supervision := by
  unfold toTrunkRetry
  split <;> simp [supervision]

theorem supervision_toTrunkCopied (p : Part) : (toTrunkCopied p).supervision = p.supervision := by
  unfold toTrunkCopied
  split
  · rfl
  · extract_lets q
    split
    · rfl
    · split
      · simp [q, supervision, ttFail, endCopy]
      · split <;> simp [q, supervision, ttTake, endCopy]

theorem supervision_subEnd (j : JobNo) (p : Part) : (subEnd j p).1.supervision = p.supervision := by
  unfold subEnd
  split
  · simp [supervision, subDone]
  · split <;> simp [supervision, subDone, subWait]

theorem supervision_subFill (j : JobNo) (p : Part) : (subFill j p).1.supervision = p.supervision := by
  unfold subFill
  split
  · exact supervision_subEnd ..
  · split <;> simp [supervision, subOverrun, subDone]

theorem supervision_subOpen (p : Part) : (subOpen p).1.supervision = p.supervision := by
  unfold subOpen
  extract_lets w
  split
  · simp [supervision, subDone]
  · split
    · simp [supervision, subDone]
    · split
      · simp [supervision, subWait]
      · exact (supervision_subFill ..).trans (by simp [supervision])

theorem supervision_subTake (l : List Byte) (p : Part) : (subTake l p).1.supervision = p.supervision := by
  unfold subTake
  extract_lets q
  have hq : q.supervision = p.supervision := by simp [q, supervision]
  refine Eq.trans ?_ hq
  split
  · simp [supervision, subDone]
  · split
    · simp [supervision, subDone]
    · split
      · exact supervision_subOpen q
      · split
        · simp [supervision, subDone]
        · exact (supervision_subFill ..).trans (by simp [supervision])

theorem supervision_subGoOn (r : Part × Bool) : (subGoOn r).supervision = r.1.supervision := by
  unfold subGoOn
  split <;> simp [supervision]

theorem supervision_subRead (l : List Byte) (p : Part) : (subRead l p).supervision = p.supervision := by
  unfold subRead
  split
  · split
    · simp [supervision]
    · exact (supervision_subGoOn _).trans (supervision_subTake ..)
  · rfl

theorem supervision_postSubmit (p : Part) : (postSubmit p).supervision = p.supervision := by
  unfold postSubmit
  split <;> simp [supervision]

theorem supervision_submissionRetry (p : Part) : (submissionRetry p).supervision = p.supervision := by
  unfold submissionRetry
  split
  · split
    · exact (supervision_subGoOn _).trans (supervision_subOpen p)
    · exact (supervision_subGoOn _).trans (supervision_subFill ..)
    · exact (supervision_subGoOn _).trans (supervision_subEnd ..)
    · rfl
  · rfl

theorem supervision_submissionCopied (p : Part) : (submissionCopied p).supervision = p.supervision := by
  unfold submissionCopied
  split
  · extract_lets q
    have hq : q.supervision = p.supervision := by simp [q, supervision, endCopy]
    refine Eq.trans ?_ hq
    split
    · simp [supervision, subDone]
    · exact (supervision_subGoOn _).trans ((supervision_subFill ..).trans (by simp [supervision]))
  · rfl

theorem supervision_allocate {p q : Part} {buf : BufNo} (h : p.allocate = some (buf, q)) :
    q.supervision = p.supervision := by
  unfold allocate at h
  split at h
  · cases h
  · cases h; simp [supervision]

theorem supervision_copyServe (p : Part) : (copyServe p).supervision = p.supervision := by
  have allocate : (subAllocate p).supervision = p.supervision := by
    unfold subAllocate
    split
    · split
      · simp [supervision, subWait]
      · refine Eq.trans ?_ (supervision_allocate (by assumption))
        simp [supervision]
    · simp [supervision, subWait]
  unfold copyServe
  split
  · rfl
  · split
    · unfold serveToTrunk
      split
      · simp [supervision]
      · refine Eq.trans ?_ (supervision_allocate (by assumption))
        simp [supervision]
    · unfold serveSubmit
      split
      · split
        · simp [supervision, subOverrun, subDone]
        · exact allocate
      · exact allocate
    · rfl

/-! ### The router -/

theorem supervision_accept (o : Offer) (p : Part) : (accept o p).supervision = p.supervision := by
  simp [supervision, accept, takeReservation]

theorem supervision_deliver (mark : Byte) (o : Offer) (bridge : Bool) (dst : NodeAddr) (p : Part) :
    (deliver mark o bridge dst p).2.supervision = p.supervision := by
  unfold deliver
  extract_lets i bytes p1
  split
  · simp [p1, supervision, accept, takeReservation]
  · rfl

theorem supervision_relay (o : Offer) (b2 : Branch) (s2 : StationNo) (p : Part) :
    (relay o b2 s2 p).2.supervision = p.supervision := by
  unfold relay
  split
  · rfl
  · split
    · rfl
    · split
      · rfl
      · split
        · rfl
        · exact Eq.trans (by simp [supervision]) (supervision_accept o p)

theorem supervision_addFrame (o : Offer) (j : JobNo) (p : Part) : (addFrame o j p).supervision = p.supervision := by
  refine Eq.trans ?_ (supervision_accept o p)
  unfold addFrame
  extract_lets q
  split <;> simp [q, supervision]

theorem supervision_closed (o : Offer) (j : JobNo) (p : Part) :
    (if o.last then closeJob j p else p).supervision = p.supervision := by
  split <;> simp [supervision]

theorem supervision_printFirst (o : Offer) (k : Port) (p : Part) : (printFirst o k p).2.supervision = p.supervision := by
  unfold printFirst
  extract_lets old count p1
  split
  · split
    · have h1 : p1.supervision = p.supervision := by
        unfold p1
        clear_value old
        split <;> simp [supervision]
      refine (supervision_closed ..).trans ((supervision_addFrame ..).trans (Eq.trans ?_ h1))
      simp [supervision]
    · rfl
  · rfl

theorem supervision_printNext (o : Offer) (k : Port) (p : Part) : (printNext o k p).2.supervision = p.supervision := by
  unfold printNext
  split
  · split
    · rfl
    · split
      · simp [supervision]
      · split
        · rfl
        · split
          · rfl
          · exact (supervision_closed ..).trans (supervision_addFrame ..)
  · rfl

theorem supervision_route (mark : Byte) (o : Offer) (p : Part) : (route mark o p).2.supervision = p.supervision := by
  unfold route
  extract_lets st e
  split
  · rfl
  · split
    · rfl
    · split
      · simp [supervision, countUnroutable]
      · split
        · exact supervision_deliver ..
        · exact supervision_deliver ..
        · exact supervision_relay ..
        · unfold printFrame
          split
          · rfl
          · split
            · exact supervision_printFirst ..
            · exact supervision_printNext ..
        · rfl

theorem supervision_offerFrame (o : Offer) (p : Part) : (offerFrame o p).supervision = p.supervision := by
  unfold offerFrame
  split
  · simp [supervision, setPhase]
  · exact Eq.trans (by simp [supervision]) (supervision_route 0 o p)

/-- The verdict of the oldest offer, once its mark is read, touches the supervision of the offering branch alone. -/
theorem decideOffer_confined (mark : Byte) (p : Part) : p.router.offers = [] ∧ decideOffer mark p = p ∨
    ∃ o r, p.router.offers = o :: r ∧ Confined o.branch p (decideOffer mark p) := by
  cases hoffers : p.router.offers with
  | nil => exact .inl ⟨rfl, by simp [decideOffer, hoffers]⟩
  | cons o r =>
    refine .inr ⟨o, r, rfl, ?_⟩
    have routed : Confined o.branch p ((modRouter (fun x => { x with offers := r }) p).route mark o).2 :=
      (Confined.refl _ p).same ((supervision_route mark o _).trans (by simp [supervision]))
    simp only [decideOffer, hoffers]
    split
    · exact ((routed.same (by simp [supervision])).modEngine _ _).handleAll _
    · split
      · unfold abandonJob
        split
        · exact routed.same (by simp [supervision])
        all_goals exact routed
      all_goals
        unfold returnOffered
        split
        · exact routed.same (by simp [supervision, takeReservation])
        · exact routed

end Part

namespace Confined

variable {b : Branch} {o p : Part}

theorem goodFrame (x : Exchange) (h : Confined b o p) : Confined b o (Part.goodFrame b x p) := by
  unfold Part.goodFrame
  extract_lets p1
  have h1 : Confined b o p1 := h.reportGood x
  split
  · exact h1.same (Part.supervision_offerFrame ..)
  · exact h1

theorem nextChar (x : Exchange) (v : Byte) (h : Confined b o p) : Confined b o (Part.nextChar b x v p) := by
  unfold Part.nextChar
  extract_lets r
  split
  · exact h
  · exact h.statusCode x v
  · exact (h.modReply _).storeByte _ _
  · exact (h.modReply _).storeByte _ _
  · split
    · exact h.garbled ..
    · exact (h.modReply _).storeByte _ _
  · exact (h.modReply _).storeByte _ _
  · exact h.modReply _
  · split
    · exact h.goodFrame x
    · exact h.garbled ..

theorem judgeChar (x : Exchange) (c : LineChar) (h : Confined b o p) : Confined b o (Part.judgeChar b x c p) := by
  unfold Part.judgeChar
  extract_lets chars reply x' q
  have hq : Confined b o q := h.modEngine b _
  split
  · exact hq.garbled ..
  · split
    · exact hq.firstChar ..
    · split
      · exact hq.garbled ..
      · exact hq.nextChar ..

theorem receiveChar (c : LineChar) (h : Confined b o p) : Confined b o (Part.receiveChar b c p) := by
  unfold Part.receiveChar
  extract_lets g q
  have hq : Confined b o q := h.modEngine b _
  have stray : Confined b o (if g.arriving = some .elsewhere then Part.strayChar b c q else q) := by
    split
    · exact hq.modEngine b _
    · exact hq
  have judged : Confined b o (if g.arriving = some .elsewhere then
      match g.exch with
      | some x => Part.judgeChar b x c q
      | none => q
    else q) := by
    split
    · split
      · exact hq.judgeChar ..
      · exact hq
    · exact hq
  split
  · exact h
  · split
    · exact h
    · exact h
    · split
      · exact hq.modSup _ (by exact fun _ hs => hs)
      · exact hq
    · exact judged
    · exact judged
    · exact hq
    all_goals exact stray

theorem windowClose (h : Confined b o p) : Confined b o (Part.windowClose b p) := by
  unfold Part.windowClose
  extract_lets g q
  split
  · split
    · exact h
    · split
      · exact h.setPhase b _
      · exact handleError _ (reportMiss b _ _ (setPhase b _ h))
  · exact h

theorem gapTimeout (h : Confined b o p) : Confined b o (Part.gapTimeout b p) := by
  unfold Part.gapTimeout
  extract_lets g
  split
  · split
    · exact h
    · exact h.garbled ..
  · exact h

theorem quietEnd (h : Confined b o p) : Confined b o (Part.quietEnd b p) := by
  unfold Part.quietEnd
  split
  · exact h.setPhase b _
  · exact h

theorem levelChange (level : Bool) (h : Confined b o p) : Confined b o (Part.levelChange b level p) := by
  unfold Part.levelChange
  extract_lets g p1 watching
  have h1 : Confined b o p1 := by
    unfold p1
    split
    · exact h.modSup _ (by exact fun _ hs => hs)
    · exact h
  split
  · exact h
  · exact h1.modEngine b _

theorem markShifted (buf : BufNo) (h : Confined b o p) : Confined b o (Part.markShifted buf p) := h.same rfl

theorem shiftDone (h : Confined b o p) : Confined b o (Part.shiftDone b p) := by
  unfold Part.shiftDone
  split
  · split
    · exact markShifted _ (modPath b _ h)
    · exact h
  · exact h

end Confined

/-! ## The frames of the events -/

/-- An event of a branch acts for that branch alone (6.4, 7.1). -/
theorem exec_branch_confined {i : Instr} {b : Branch} {s t : State} (hi : branchOf i = some b)
    (h : exec i s = .next t) : t.mem = s.mem ∧ Confined b s.part t.part := by
  have event : ∀ f : Part → Part, (∀ p, Confined b p (f p)) → onPart (Part.awake f) s = .next t →
      t.mem = s.mem ∧ Confined b s.part t.part := by
    rintro f hf he
    cases he
    exact ⟨rfl, Confined.awake f hf s.part⟩
  cases i
  case transmissionEnd => cases hi; exact event _ (fun p => (Confined.refl b p).transmissionEnd) h
  case receiveCharacter => cases hi; exact event _ (fun p => (Confined.refl b p).receiveChar _) h
  case replyWindowClose => cases hi; exact event _ (fun p => (Confined.refl b p).windowClose) h
  case gapTimeout => cases hi; exact event _ (fun p => (Confined.refl b p).gapTimeout) h
  case quietWaitEnd => cases hi; exact event _ (fun p => (Confined.refl b p).quietEnd) h
  case strayRunEnd => cases hi; exact event _ (fun p => (Confined.refl b p).strayEnd) h
  case turnaroundEnd => cases hi; exact event _ (fun p => (Confined.refl b p).turnaroundEnd) h
  case listenSlotEnd => cases hi; exact event _ (fun p => (Confined.refl b p).listenEnd) h
  case paddingEnd => cases hi; exact event _ (fun p => (Confined.refl b p).paddingEnd) h
  case payloadShiftComplete => cases hi; exact event _ (fun p => (Confined.refl b p).shiftDone) h
  case decayTimerExpiry => cases hi; exact event _ (fun p => (Confined.refl b p).decayScore) h
  case relaySettle => cases hi; exact event _ (fun p => (Confined.refl b p).relaySettle) h
  case restoreTimerExpiry => cases hi; exact event _ (fun p => (Confined.refl b p).restoreExpiry) h
  case indicatorFlashToggle => cases hi; exact event _ (fun p => (Confined.refl b p).flashToggle) h
  case falseStartBit => cases hi; exact event _ (fun p => (Confined.refl b p).modEngine b _) h
  case relayFault => cases hi; cases h; exact ⟨rfl, (Confined.refl b s.part).relayFault _⟩
  case receiveLineLevelChange => cases hi; cases h; exact ⟨rfl, (Confined.refl b s.part).levelChange _⟩
  all_goals cases hi

/-- What an event of a port leaves: all but the port, its queue and jobs, and what a freed buffer reaches. -/
def Part.behindThePorts (p : Part) :=
  (p.supervision, p.engines, p.sense, p.probe)

theorem Part.behindThePorts_redirectExpiry (k : Port) (p : Part) :
    (redirectExpiry k p).behindThePorts = p.behindThePorts := by
  unfold redirectExpiry
  split
  · rfl
  · extract_lets p1
    have h1 : p1.behindThePorts = p.behindThePorts := by simp [p1, behindThePorts, supervision]
    split
    · exact h1
    · have hload (q : Part) : (idleLoad k q).behindThePorts = q.behindThePorts := by simp [behindThePorts, supervision]
      rw [hload, ← h1]
      refine each_keeps_view behindThePorts _ _ (fun j q => ?_) p1
      split <;> simp [behindThePorts, supervision]

theorem exec_port_keeps {i : Instr} {k : Port} {s t : State} (hi : portOf i = some k) (h : exec i s = .next t) :
    t.mem = s.mem ∧ t.part.behindThePorts = s.part.behindThePorts := by
  have event : ∀ f : Part → Part, (∀ p, (f p).behindThePorts = p.behindThePorts) →
      onPart (Part.awake f) s = .next t → t.mem = s.mem ∧ t.part.behindThePorts = s.part.behindThePorts := by
    rintro f hf he
    cases he
    refine ⟨rfl, ?_⟩
    show (Part.awake f s.part).behindThePorts = _
    unfold Part.awake
    split
    · rfl
    · exact hf _
  cases i
  case printerConditionChange =>
    cases hi; cases h
    exact ⟨rfl, by simp [Part.behindThePorts, Part.supervision]⟩
  case redirectTimerExpiry => cases hi; exact event _ (fun p => p.behindThePorts_redirectExpiry k) h
  case bytePresent => cases hi; exact event _ (fun p => by simp [Part.behindThePorts, Part.supervision]) h
  case abandonedByteTimeout => cases hi; exact event _ (fun p => by simp [Part.behindThePorts, Part.supervision]) h
  case acknowledge => cases hi; exact event _ (fun p => by simp [Part.behindThePorts, Part.supervision]) h
  case stallTimerExpiry => cases hi; exact event _ (fun p => by simp [Part.behindThePorts, Part.supervision]) h
  case stallEndBusyLow => cases hi; exact event _ (fun p => by simp [Part.behindThePorts, Part.supervision]) h
  case printerStrobeEnd => cases hi; exact event _ (fun p => by simp [Part.behindThePorts, Part.supervision]) h
  all_goals cases hi

/-- Settles O57: an event of a branch is confined to it, and an event of a port leaves what lies behind the ports. -/
theorem eventsKeepMemoryTablesAndOtherSupervision : Obligations.EventsKeepMemoryTablesAndOtherSupervision := by
  refine ⟨fun i b s t hi h => ?branch, fun i k s t hi h => ?port⟩
  case branch =>
    obtain ⟨hmem, hc⟩ := exec_branch_confined hi h
    exact ⟨hmem, hc.setup, hc.units, hc.nodes, fun c hne => ⟨hc.sup c hne, hc.switch c hne, hc.records c hne⟩⟩
  case port =>
    obtain ⟨hmem, hk⟩ := exec_port_keeps hi h
    simp only [Part.behindThePorts, Part.supervision, Prod.mk.injEq] at hk
    obtain ⟨⟨hsetup, -, hunits, hnodes, hsups, hswitches, hrecords, -⟩, hengines, hsense, hprobe⟩ := hk
    exact ⟨hmem, hsetup, hunits, hnodes, hengines, hsups, hswitches, hsense, hprobe, hrecords⟩

end Sys2Proof.Machine
end

section
/-! PROOF. A property of the setup, the loader, the supervisors and the switches that every act for one branch keeps, that
every reset establishes and that a commit keeps, is kept by every step: so for the drives (O59) and the scores (O60). -/

namespace Sys2Proof.Machine

namespace Part

/-- What the invariants of the drives and of the scores speak of. -/
def control (p : Part) : Setup × Loader × Vector Supervisor 4 × Vector Switch 4 := (p.setup, p.loader, p.sups, p.switches)

theorem control_of_supervision {p q : Part} (h : q.supervision = p.supervision) : q.control = p.control := by
  simp only [supervision, Prod.mk.injEq] at h
  obtain ⟨hsetup, hloader, -, -, hsups, hswitches, -⟩ := h
  simp only [control, hsetup, hloader, hsups, hswitches]

/-! ## What host writes and memory cycles leave -/

theorem control_editStation (b : Branch) (n : StationNo) (l : List Byte) (p : Part) :
    (editStation b n l p).control = p.control := by
  unfold editStation
  split
  · simp [control]
  · unfold applyControl
    extract_lets st p1
    have h1 : p1.control = p.control := by
      unfold p1
      clear_value st
      split
      · split <;> simp [control]
      · split <;> simp [control]
    refine Eq.trans ?_ h1
    split <;> simp [control]

theorem control_trigger (m : List Host.Cell) (a : Nat) (p : Part) : (trigger m a p).control = p.control := by
  unfold trigger
  split
  · exact (control_editStation ..).trans (by simp [control])
  · split
    · unfold editUnit
      extract_lets u
      split <;> simp [control]
    · split
      · simp [control, editNode]
      · rfl

variable (x : Part × List Host.Cell)

theorem control_makeWrite (a : Addr) (v : Byte) : (makeWrite a v x).1.control = x.1.control := by
  unfold makeWrite
  split
  · exact control_trigger ..
  · simp [control, blockWrite]
  · rfl
  · rfl

theorem control_makeAccess (acc : HostAccess) : (makeAccess acc x).1.control = x.1.control := by
  cases acc with
  | read a => rfl
  | write a v => exact control_makeWrite ({ x.1 with hostWait := none }, x.2) a v

theorem control_releaseHost : (releaseHost x).1.control = x.1.control := by
  unfold releaseHost
  split
  · split
    · rfl
    · exact control_makeAccess ..
  · rfl

theorem control_memoryWrite (a : Addr) (v : Byte) : (memoryWrite a v x).1.control = x.1.control := by
  unfold memoryWrite
  split
  · rfl
  · split
    · rfl
    · exact control_makeWrite ..

theorem control_endWait (before : Part) : (endWait before x).1.control = x.1.control := by
  unfold endWait
  split
  · rfl
  · rfl
  · exact control_makeWrite ..

theorem control_imageComplete : (imageComplete x).1.control = x.1.control := by
  unfold imageComplete
  split
  · rfl
  · split
    · split
      · exact (control_releaseHost _).trans (by simp [control])
      · rfl
    · rfl

theorem control_writerCycle : (writerCycle x).1.control = x.1.control := by
  unfold writerCycle
  split
  · split <;> rfl
  · rfl

theorem control_receiveCycle (b : Branch) : (receiveCycle b x).1.control = x.1.control := by
  unfold receiveCycle
  extract_lets tx
  have read : tx.1.control = x.1.control := by
    unfold tx
    split <;> rfl
  split
  · rfl
  · rfl
  · rfl
  · split
    · rfl
    · exact read
  · exact read

theorem control_copyCycle : (copyCycle x).1.control = x.1.control := by
  unfold copyCycle
  split
  · rfl
  · split
    · simp [control]
    · simp [control]
    · split <;> rfl
  · rfl

theorem control_printerCycle (k : Port) : (printerCycle k x).1.control = x.1.control := by
  unfold printerCycle
  split
  · simp [control]
  · rfl

end Part

/-! ## The properties every step keeps -/

/-- A property of the part that speaks of its control alone, that an act for one branch keeps, that a reset keeps, and
that a commit keeps as it reads the new setup and as it puts it in force. -/
structure Invariant (P : Part → Prop) : Prop where
  same : ∀ {p q : Part}, q.control = p.control → P p → P q
  confined : ∀ {b : Branch} {p q : Part}, Confined b p q → P p → P q
  reset : ∀ {held : Bool} {task : LoaderTask} {p : Part}, (∀ next k, task ≠ .writing next k) → P p →
    P (Part.afterReset held task p)
  loader : ∀ {p : Part} (l : Loader), (∀ next k, l.task = .writing next k → ∃ i, p.loader.task = .writing next i) →
    P p → P { p with loader := l }
  commitRead : ∀ {p : Part}, P p → P (Part.commitRead p)
  inForce : ∀ {p : Part} {next : Setup} {k : Nat}, p.loader.task = .writing next k → P p →
    P { p with setup := next, loader := { p.loader with task := .idle } }

namespace Invariant

variable {P : Part → Prop} (h : Invariant P) {p : Part}
include h

theorem supervised {q : Part} (e : q.supervision = p.supervision) (hp : P p) : P q :=
  h.same (Part.control_of_supervision e) hp

omit h in
theorem each {α : Type} (l : List α) (f : α → Part → Part) (hf : ∀ x p, P p → P (f x p)) (hp : P p) :
    P (Machine.each l f p) := each_keeps_prop P l f hf p hp

omit h in
theorem awake {f : Part → Part} (hf : ∀ p, P p → P (f p)) (hp : P p) : P (Part.awake f p) := by
  unfold Part.awake
  split
  · exact hp
  · exact hf p hp

theorem command {code : Byte} {act : Part → Part} (hact : ∀ p, P p → P (act p)) (hp : P p) :
    P (Part.command code act p) := by
  unfold Part.command
  split
  · exact hp
  · split
    · exact h.same (by simp [Part.control]) hp
    · exact hact p hp

theorem readCommand {f : Part → Part} (hf : ∀ p, P p → P (f p)) (hp : P p) : P (Part.readCommand f p) := by
  unfold Part.readCommand
  split
  · exact h.same (p := p) rfl hp
  · split
    · exact hp
    · exact hf p hp

/-! ### The command words -/

theorem commit (hp : P p) : P (Part.commit p) := by
  unfold Part.commit
  split
  · exact h.loader _ nofun hp
  · exact h.same (by simp [Part.control]) hp

theorem softReset (hp : P p) : P (Part.softReset p) := by
  unfold Part.softReset
  split
  · exact h.same (p := Part.afterReset false (.initialise true 0 []) p) rfl (h.reset nofun hp)
  · exact hp

theorem isolate (hp : P p) : P (Part.isolate p) := by
  unfold Part.isolate
  extract_lets b
  split
  · exact h.confined ((Confined.refl b p).requestIsolation _ _) hp
  · exact h.confined ((Confined.refl b p).requestIsolation _ _) hp
  all_goals exact h.same (by simp [Part.control]) hp

theorem restore (hp : P p) : P (Part.restore p) := by
  unfold Part.restore
  extract_lets b
  split
  · exact h.confined (Confined.refl b p).takeRestore hp
  · exact h.confined (Confined.refl b p).takeRestore hp
  all_goals exact h.same (by simp [Part.control]) hp

theorem probeByHost (hp : P p) : P (Part.probeByHost p) := by
  unfold Part.probeByHost
  extract_lets b
  split
  · exact h.confined ((Confined.refl b p).askProbe _ _) hp
  · exact h.confined ((Confined.refl b p).askProbe _ _) hp
  all_goals exact h.same (by simp [Part.control]) hp

theorem captureRelease (v : Byte) (hp : P p) : P (Part.captureRelease v p) := by
  unfold Part.captureRelease
  split
  · exact h.same (by simp [Part.control]) hp
  · exact h.confined (Confined.refl _ p).releaseCapture hp

theorem clearCounters (v : Byte) (hp : P p) : P (Part.clearCounters v p) := by
  unfold Part.clearCounters
  split
  · exact h.same (by simp [Part.control]) hp
  · exact h.confined ((((Confined.refl _ p).modSup _ (by exact fun _ hs => hs)).modEngine _ _).modRouter _) hp

theorem snapshotCommands (v : Byte) (hp : P p) : P (Part.setSnapKind v p) ∧ P (Part.takeSnapshot v p) := by
  constructor
  · unfold Part.setSnapKind
    split <;> exact h.same (by simp [Part.control]) hp
  · unfold Part.takeSnapshot
    split
    · exact h.same (by simp [Part.control]) hp
    · split
      · exact hp
      · exact h.same (p := p) rfl hp

theorem selectBranch (v : Byte) (hp : P p) : P (Part.selectBranch v p) := by
  unfold Part.selectBranch
  split
  · exact h.same (by simp [Part.control]) hp
  · exact h.same (p := p) rfl hp

theorem branchAction (v : Byte) (hp : P p) :
    P ((if v = 1 then Part.isolate else if v = 2 then Part.restore else if v = 3 then Part.probeByHost
      else Part.refuse .badArgument 0x0C) p) := by
  split
  · exact h.isolate hp
  · split
    · exact h.restore hp
    · split
      · exact h.probeByHost hp
      · exact h.same (by simp [Part.control]) hp

/-- Every command word (R162). -/
theorem commandWrite (code : Nat) (v : Byte) (hp : P p) : P (Part.commandWrite code v p) := by
  unfold Part.commandWrite
  split
  · exact h.command (fun _ => h.commit) hp
  · exact h.softReset hp
  · exact h.command (fun _ => h.supervised (Part.supervision_postToTrunk _)) hp
  · exact h.command (fun _ => h.supervised (Part.supervision_postSubmit _)) hp
  · exact h.command (fun _ => h.supervised (Part.supervision_returnBuffer ..)) hp
  · exact h.command (fun _ => h.supervised (Part.supervision_jobRelease ..)) hp
  · exact h.command (fun _ => h.supervised (Part.supervision_jobAbort ..)) hp
  · exact h.command (fun _ => h.supervised (Part.supervision_jobMoveJob ..)) hp
  · exact h.command (fun _ => h.supervised (Part.supervision_jobMovePrinter ..)) hp
  · exact h.command (fun _ => h.supervised (Part.supervision_loadGrant ..)) hp
  · exact h.command (fun _ => h.selectBranch v) hp
  · exact h.command (fun _ => h.branchAction v) hp
  · exact h.command (fun _ => h.captureRelease v) hp
  · exact h.command (fun _ => h.clearCounters v) hp
  · exact h.command (fun _ hq => (h.snapshotCommands v hq).1) hp
  · exact h.command (fun _ hq => (h.snapshotCommands v hq).2) hp
  · exact h.command (fun _ => h.same (by simp [Part.control, Part.senseTrigger])) hp
  · exact hp

theorem hostWrite (a : Addr) (v : Byte) (x : Part × List Host.Cell) (hp : P x.1) : P (Part.hostWrite a v x).1 := by
  unfold Part.hostWrite
  split
  · exact h.commandWrite _ _ hp
  · exact h.same (Part.control_memoryWrite ..) hp

/-! ### The memory port (R168) -/

theorem readDone (u : RingUser) (l : List Byte) (hp : P p) : P (Part.readDone u l p) := by
  unfold Part.readDone
  split
  · rcases Part.decideOffer_confined (byteAt l 0) p with ⟨-, he⟩ | ⟨o, -, -, hc⟩
    · rwa [he]
    · exact h.confined hc hp
  · exact h.supervised (Part.supervision_ttRead ..) hp
  · exact h.supervised (Part.supervision_subRead ..) hp
  · exact h.same (by simp [Part.control]) hp

theorem ringServe (f : RingRead → Bool) (x : Part × List Host.Cell) (hp : P x.1) : P (Part.ringServe f x).1 := by
  unfold Part.ringServe
  split
  · extract_lets v q
    have hq : P q := h.same (by simp [q, Part.control]) hp
    split
    · exact h.readDone _ _ hq
    · exact hq
  · exact hp

theorem ringCycle (x : Part × List Host.Cell) (hp : P x.1) : P (Part.ringCycle x).1 := by
  unfold Part.ringCycle
  split
  · split <;> exact h.ringServe _ _ hp
  · exact h.ringServe _ _ hp

theorem takeInitByte (pos : Nat) (entry : List Byte) (v : Byte) (hp : P p) : P (Part.takeInitByte pos entry v p) := by
  unfold Part.takeInitByte
  extract_lets l
  split
  · split
    · exact h.same (p := { p with loader := { p.loader with task := .initialise true (pos + 1) [] } }) rfl
        (h.loader _ nofun hp)
    · exact h.loader _ nofun hp
  · split
    · exact h.same (p := { p with loader := { p.loader with task := .initialise true (pos + 1) [] } }) rfl
        (h.loader _ nofun hp)
    · exact h.loader _ nofun hp

omit h in
/-- The loader writes a commit back only while the commit is in progress (R179). -/
theorem writing_of_loaderWork {next : Setup} {pos : Nat} (e : p.loaderWork = some (.write next pos)) :
    p.loader.task = .writing next pos := by
  have commit (hc : p.commitWork = some (.write next pos)) : p.loader.task = .writing next pos := by
    unfold Part.commitWork at hc
    split at hc
    · split at hc <;> simp at hc
    · split at hc
      · simpa only [Option.some.injEq, LoaderWork.write.injEq, ‹p.loader.task = _›, LoaderTask.writing.injEq] using hc
      · simp at hc
    · simp at hc
  unfold Part.loaderWork at e
  split at e
  · split at e <;> simp at e
  · split at e
    · exact commit e
    · unfold Part.tableWork at e
      split at e
      · rename_i k _
        cases hl : (p.port k).loading with
        | none => exact commit (by simpa [hl] using e)
        | some l => simp [hl] at e
      · exact commit e

theorem loaderCycle (x : Part × List Host.Cell) (hp : P x.1) : P (Part.loaderCycle x).1 := by
  unfold Part.loaderCycle
  extract_lets setTask
  split
  · split
    · exact h.loader _ nofun hp
    · exact h.takeInitByte _ _ _ hp
    · exact hp
  · unfold Part.tableByte
    split
    · exact h.same (by simp [Part.control, Part.tableLoaded]) hp
    · exact h.same (by simp [Part.control]) hp
  · exact h.loader _ nofun hp
  · refine h.loader _ (fun next k e => ?_) hp
    cases e
    exact ⟨_, writing_of_loaderWork (by assumption)⟩
  · exact hp

theorem cycle (r : Requester) (x : Part × List Host.Cell) (hp : P x.1) : P (Part.cycle r x).1 := by
  cases r with
  | imageWriter => exact h.same (Part.control_writerCycle x) hp
  | receive b => exact h.same (Part.control_receiveCycle x b) hp
  | copy => exact h.same (Part.control_copyCycle x) hp
  | printer k => exact h.same (Part.control_printerCycle x k) hp
  | ring => exact h.ringCycle x hp
  | loader => exact h.loaderCycle x hp

theorem cyclicGrant (x : Part × List Host.Cell) (hp : P x.1) : P (Part.cyclicGrant x).1 := by
  unfold Part.cyclicGrant
  split
  · exact h.cycle _ _ (h.same (p := x.1) rfl hp)
  · exact hp

theorem memoryGrant (x : Part × List Host.Cell) (hp : P x.1) : P (Part.memoryGrant x).1 := by
  unfold Part.memoryGrant
  split
  · exact hp
  · split
    · exact h.cyclicGrant x hp
    · split
      · split
        · exact h.cycle _ x hp
        · exact h.cyclicGrant x hp
      · exact h.same (Part.control_makeAccess ..) hp

/-! ### Resets, start-up and commit (R175 to R190) -/

theorem endWait {before : Part} (x : Part × List Host.Cell) (hp : P x.1) : P (Part.endWait before x).1 :=
  h.same (Part.control_endWait ..) hp

theorem powerOn (x : Part × List Host.Cell) (hp : P x.1) : P (Part.powerOn x).1 := by
  refine h.endWait _ (h.reset ?_ hp)
  unfold Part.hardTask
  split <;> exact nofun

theorem resetAssert (x : Part × List Host.Cell) (hp : P x.1) : P (Part.resetAssert x).1 :=
  h.endWait _ (h.reset nofun hp)

theorem resetRelease (hp : P p) : P (Part.resetRelease p) := by
  unfold Part.resetRelease
  split
  · exact h.same (p := { p with loader := { p.loader with task := .initialise false 0 [] } }) rfl
      (h.loader _ nofun hp)
  · exact hp

theorem initDone (hp : P p) : P (Part.initDone p) := by
  unfold Part.initDone
  split
  · split
    · exact h.same (by simp [Part.control]) (h.loader { startState := .ready, task := .idle } nofun hp)
    · exact hp
  · exact hp

theorem applyBranch (old : BitVec 4) (b : Branch) (hp : P p) : P (Part.applyBranch old b p) := by
  unfold Part.applyBranch
  extract_lets was now
  split
  · exact h.confined (Confined.refl b p).enableBranch hp
  · split
    · exact h.confined (Confined.refl b p).disableBranch hp
    · exact hp

theorem applyPrinter (old : Vector PrinterSetup 3) (k : Port) (hp : P p) : P (Part.applyPrinter old k p) := by
  unfold Part.applyPrinter
  extract_lets was now
  split
  · exact h.same (by simp [Part.control, Part.enablePort]) hp
  · split
    · exact h.supervised ((Part.supervision_checkSubmitJob _).trans (Part.supervision_disablePort k p)) hp
    · exact hp

theorem startStoppedTimers (hp : P p) : P (Part.startStoppedTimers p) := by
  unfold Part.startStoppedTimers
  extract_lets p1
  have h1 : P p1 := by
    unfold p1
    split
    · exact h.same (by simp [Part.control]) hp
    · exact hp
  refine Invariant.each _ _ (fun b q hq => ?_) h1
  split
  · exact h.confined (Confined.refl b q).startRestoreTimer hq
  · exact hq

theorem applyCommit {next : Setup} {k : Nat} (ht : p.loader.task = .writing next k) (hp : P p) :
    P (Part.applyCommit next p) := by
  unfold Part.applyCommit
  extract_lets old l p1 p2 p3 p4
  have h1 : P p1 := h.inForce ht hp
  have h2 : P p2 := Invariant.each _ _ (fun b q => h.applyBranch _ b) h1
  have h3 : P p3 := Invariant.each _ _ (fun i q => h.applyPrinter _ i) h2
  have h4 : P p4 := h.same (by simp [p4, Part.control]) (h.startStoppedTimers h3)
  clear_value p4
  have h5 : P { p4 with loader := { p4.loader with
      startState := if p4.loader.startState = .ready then .running else p4.loader.startState } } :=
    h.loader _ (fun _ i e => ⟨i, e⟩) h4
  exact h.same (by rfl) h5

theorem commitApplication (x : Part × List Host.Cell) (hp : P x.1) : P (Part.commitApplication x).1 := by
  unfold Part.commitApplication
  split
  · split
    · have hc := Part.control_releaseHost x
      have hl : (Part.releaseHost x).1.loader = x.1.loader := congrArg (fun c => c.2.1) hc
      exact h.applyCommit (hl ▸ ‹x.1.loader.task = _›) (h.same hc hp)
    · exact hp
  · exact hp

/-! ### The sequencer, the button and the probe unit -/

omit h in
theorem senseReach_control (l : List Branch) (p : Part) : (Part.senseReach l p).control = p.control := by
  induction l with
  | nil => simp [Part.senseReach, Part.control]
  | cons b r ih =>
    unfold Part.senseReach
    split
    · exact ih
    · simp [Part.control]

theorem sensePassStart (hp : P p) : P (Part.sensePassStart p) := by
  unfold Part.sensePassStart
  split
  · exact h.same ((senseReach_control ..).trans (by simp [Part.control])) hp
  · exact hp

theorem sensePeriodExpiry (hp : P p) : P (Part.sensePeriodExpiry p) := by
  unfold Part.sensePeriodExpiry
  split
  · exact h.same (by simp [Part.control, Part.senseTrigger]) hp
  · exact hp

theorem conversionDone (code : Byte) (hp : P p) : P (Part.conversionDone code p) := by
  unfold Part.conversionDone
  split
  · extract_lets new old first running p1 p2 p3
    have h1 : P p1 := h.same (by simp [p1, Part.control]) hp
    have h2 : P p2 := by
      unfold p2
      split
      · exact h.confined ((Confined.refl _ p1).handleError _) h1
      · exact h1
    have h3 : P p3 := by
      unfold p3
      split
      · exact h.confined ((Confined.refl _ p2).answerCheck _) h2
      · exact h2
    exact h.same (senseReach_control ..) h3
  · exact hp

theorem buttonPress (hp : P p) : P (Part.buttonPress p) := by
  unfold Part.buttonPress
  split
  · exact Invariant.each _ _ (fun b q => h.confined (Confined.refl b q).pressBranch) (h.same (by simp [Part.control]) hp)
  · exact hp

theorem probeStart (hp : P p) : P (Part.probeStart p) := by
  unfold Part.probeStart
  split
  · exact h.confined ((Confined.refl _ p).modProbe _).assertProbe hp
  · exact hp

theorem windowEnd (hp : P p) : P (Part.windowEnd p) := by
  unfold Part.windowEnd
  split
  · split
    · exact hp
    · extract_lets last q
      have hq : P q := h.same (by simp [q, Part.control]) hp
      split
      · exact h.confined (Confined.refl _ q).moveOpen hq
      · exact hq
  · exact hp

theorem imageBegin (hp : P p) : P (Part.imageBegin p) := by
  unfold Part.imageBegin
  split
  · exact h.same (by simp [Part.control]) hp
  · exact hp

/-! ### Every command -/

omit h in
theorem of_onPart {f : Part → Part} {s t : State} (hf : P s.part → P (f s.part)) (hp : P s.part)
    (e : onPart f s = .next t) : P t.part := by
  cases e; exact hf hp

omit h in
theorem of_onBoth {f : Part × List Host.Cell → Part × List Host.Cell} {s t : State}
    (hf : ∀ x : Part × List Host.Cell, P x.1 → P (f x).1) (hp : P s.part) (e : onBoth f s = .next t) : P t.part := by
  cases e; exact hf (s.part, s.mem) hp

theorem exec {i : Instr} {s t : State} (hp : P s.part) (e : exec i s = .next t) : P t.part := by
  have word (code : Nat) (v : Byte) (he : onPart (Part.commandWrite code v) s = .next t) : P t.part :=
    of_onPart (h.commandWrite code v) hp he
  have event {f : Part → Part} (hf : ∀ p, P p → P (f p)) (he : onPart (Part.awake f) s = .next t) : P t.part :=
    of_onPart (Invariant.awake hf) hp he
  have read {f : Part → Part} (hf : ∀ p, (f p).control = p.control) (he : onPart (Part.readCommand f) s = .next t) :
      P t.part := of_onPart (h.readCommand fun p => h.same (hf p)) hp he
  have trigger (a : Addr) (v : Byte) (he : onBoth (Part.memoryWrite a v) s = .next t) : P t.part :=
    of_onBoth (fun x => h.same (Part.control_memoryWrite x a v)) hp he
  by_cases hb : ∃ b, branchOf i = some b
  · obtain ⟨b, hb⟩ := hb
    exact h.confined (exec_branch_confined hb e).2 hp
  by_cases hk : ∃ k, portOf i = some k
  · obtain ⟨k, hk⟩ := hk
    exact h.supervised (congrArg Prod.fst (exec_port_keeps hk e).2) hp
  cases i
  case powerOnReset => exact of_onBoth h.powerOn hp e
  case pinResetAssert => exact of_onBoth h.resetAssert hp e
  case pinResetRelease => exact of_onPart h.resetRelease hp e
  case initialisationComplete => exact event (fun _ => h.initDone) e
  case commitReadComplete => exact event (fun _ => h.commitRead) e
  case commitApplication => exact of_onBoth h.commitApplication hp e
  case softReset v => exact word 0x02 v e
  case commit v => exact word 0x01 v e
  case postToTrunk v => exact word 0x03 v e
  case postSubmit v => exact word 0x04 v e
  case returnBuffer v => exact word 0x05 v e
  case jobRelease v => exact word 0x06 v e
  case jobAbort v => exact word 0x07 v e
  case jobMoveJob v => exact word 0x08 v e
  case jobMovePrinter v => exact word 0x09 v e
  case loadGrant v => exact word 0x0A v e
  case branchSel v => exact word 0x0B v e
  case isolate => exact word 0x0C 1 e
  case restore => exact word 0x0C 2 e
  case probe => exact word 0x0C 3 e
  case captureRelease v => exact word 0x0D v e
  case clearCounters v => exact word 0x0E v e
  case snapKind v => exact word 0x0F v e
  case snapIndex v => exact word 0x10 v e
  case senseNow v => exact word 0x11 v e
  case toTrunkRetry => exact event (fun _ => h.supervised (Part.supervision_toTrunkRetry _)) e
  case submissionRetry => exact event (fun _ => h.supervised (Part.supervision_submissionRetry _)) e
  case copyEngineServe => exact event (fun _ => h.supervised (Part.supervision_copyServe _)) e
  case toTrunkCopyComplete => exact event (fun _ => h.supervised (Part.supervision_toTrunkCopied _)) e
  case submissionCopyComplete => exact event (fun _ => h.supervised (Part.supervision_submissionCopied _)) e
  case summaryLoRead => exact read (fun _ => by rfl) e
  case liveWordFirstByteRead w => exact read (fun _ => by cases w <;> rfl) e
  case senseMissedRead => exact read (fun _ => by rfl) e
  case snapshotWindowLastByteRead => exact read (fun _ => by rfl) e
  case hostWrite a v => exact of_onBoth (h.hostWrite a v) hp e
  case stationEdit | bar | unbar | clearConflict | unitMapEdit | nodeListEdit => exact trigger _ _ e
  case memoryPortGrant => exact of_onBoth h.memoryGrant hp e
  case imageWriteBegin => exact event (fun _ => h.imageBegin) e
  case imageWriteComplete => exact of_onBoth (fun x => h.same (Part.control_imageComplete x)) hp e
  case sensePeriodExpiry => exact event (fun _ => h.sensePeriodExpiry) e
  case sensePassStart => exact event (fun _ => h.sensePassStart) e
  case senseConversionComplete code => exact event (fun _ => h.conversionDone code) e
  case buttonPress => exact event (fun _ => h.buttonPress) e
  case attentionButtonRelease => cases e; exact h.same (p := s.part) rfl hp
  case probeStart => exact event (fun _ => h.probeStart) e
  case probePulse => exact event (fun p => h.same (p := p) (by rfl)) e
  case probePulseEnd => exact event (fun p => h.same (p := p) (by rfl)) e
  case echoCrossing => exact event (fun p => h.same (p := p) (by rfl)) e
  case captureWindowEnd => exact event (fun _ => h.windowEnd) e
  all_goals first | exact absurd ⟨_, rfl⟩ hb | exact absurd ⟨_, rfl⟩ hk

end Invariant

/-! ## The drives of a switch (R141) -/

theorem drivesExclusive_invariant : Invariant fun p => ∀ b, (p.switch b).exclusive where
  same {p q} e hp b := by
    have hs : q.switches = p.switches := congrArg (fun c => c.2.2.2) e
    rw [Part.switch_def, hs]
    exact hp b
  confined {b p q} hc hp c := by
    by_cases hcb : c = b
    · subst hcb; exact hc.drives (hp c)
    · rw [hc.switch c hcb]; exact hp c
  reset _ _ b := by simp [Part.afterReset, Part.switch_def, Switch.blank, Switch.exclusive]
  loader _ _ hp := hp
  commitRead {p} hp := by
    unfold Part.commitRead
    split
    · split <;> exact hp
    · exact hp
  inForce _ hp := hp

/-- Settles O59: every act for a branch keeps its drives exclusive, and nothing else reaches them. -/
theorem everyStepKeepsTheDrivesExclusive : Obligations.EveryStepKeepsTheDrivesExclusive :=
  step_keeps State.drivesExclusive (fun _ _ hs => hs) fun _ _ _ hs e => drivesExclusive_invariant.exec hs e

/-! ## The scores and the thresholds (6.4, R133, R178) -/

theorem clamp_le {lo hi n : Nat} (h : lo ≤ hi) : clamp lo hi n ≤ hi := by
  unfold clamp
  split
  · exact h
  · split <;> omega

theorem le_clamp {lo hi n : Nat} (h : lo ≤ hi) : lo ≤ clamp lo hi n := by
  unfold clamp
  split
  · exact Nat.le_refl lo
  · split <;> omega

/-- The clamping leaves the thresholds of a branch in their order, whatever the bytes (R133). -/
theorem readBranchSetup_thresholds (l : List Byte) :
    (readBranchSetup l).tc < (readBranchSetup l).tw ∧ (readBranchSetup l).tw < (readBranchSetup l).ti
      ∧ (readBranchSetup l).ti ≤ 1023 := by
  simp only [readBranchSetup]
  have hti : 2 ≤ clamp 2 1023 (numAt l 0x14 2) := le_clamp (by decide)
  have hti' : clamp 2 1023 (numAt l 0x14 2) ≤ 1023 := clamp_le (by decide)
  generalize clamp 2 1023 (numAt l 0x14 2) = ti at hti hti' ⊢
  have htw : 1 ≤ clamp 1 (ti - 1) (numAt l 0x16 2) := le_clamp (by omega)
  have htw' : clamp 1 (ti - 1) (numAt l 0x16 2) ≤ ti - 1 := clamp_le (by omega)
  generalize clamp 1 (ti - 1) (numAt l 0x16 2) = tw at htw htw' ⊢
  have htc : clamp 0 (tw - 1) (numAt l 0x18 2) ≤ tw - 1 := clamp_le (Nat.zero_le _)
  omega

theorem readSetup_scoresBounded (old : Vector Byte 4) (assigned : List NodeAddr) (l : List Byte) :
    (readSetup old assigned l).scoresBounded := by
  intro b
  have hb : (readSetup old assigned l).branch.get b = readBranchSetup ((l.drop (0x20 + 0x60 * b.val)).take 0x60) := by
    simp [readSetup]
  rw [hb]
  exact readBranchSetup_thresholds _

theorem Setup.default_scoresBounded : Setup.default.scoresBounded := by
  intro b
  have hb : Setup.default.branch.get b = BranchSetup.default := by simp [Setup.default]
  rw [hb]
  decide

/-- The bounds of the scores and thresholds, as a property of the part. -/
def Part.scoresBounded (p : Part) : Prop :=
  (∀ b : Branch, (p.sup b).score ≤ 1023) ∧ p.setup.scoresBounded
    ∧ ∀ next pos, p.loader.task = .writing next pos → next.scoresBounded

theorem scoresBounded_invariant : Invariant Part.scoresBounded where
  same {p q} e hp := by
    simp only [Part.control, Prod.mk.injEq] at e
    obtain ⟨hsetup, hloader, hsups, -⟩ := e
    simpa only [Part.scoresBounded, Part.sup_def, hsetup, hloader, hsups] using hp
  confined {b p q} hc := by
    rintro ⟨hscore, hsetup, htask⟩
    refine ⟨fun c => ?_, hc.setup ▸ hsetup, hc.loader ▸ htask⟩
    by_cases hcb : c = b
    · subst hcb
      have ⟨htc, htw, hti⟩ := hsetup c
      exact hc.score (by rw [Part.branchSetup_def]; omega) (hscore c)
    · rw [hc.sup c hcb]; exact hscore c
  reset {held task p} ht _ := by
    refine ⟨fun b => ?_, Setup.default_scoresBounded, fun next pos e => absurd e (ht next pos)⟩
    simp [Part.afterReset, Part.initial, Part.sup_def, Supervisor.blank]
  loader l hl := by
    rintro ⟨hscore, hsetup, htask⟩
    refine ⟨hscore, hsetup, fun next pos e => ?_⟩
    obtain ⟨i, hi⟩ := hl next pos e
    exact htask next i hi
  commitRead {p} hp := by
    obtain ⟨hscore, hsetup, -⟩ := id hp
    unfold Part.commitRead
    split
    · split
      · refine ⟨hscore, hsetup, fun next pos e => ?_⟩
        cases e
        exact readSetup_scoresBounded _ _ _
      · exact hp
    · exact hp
  inForce ht hp := by
    obtain ⟨hscore, -, htask⟩ := hp
    exact ⟨hscore, htask _ _ ht, nofun⟩

/-- Settles O60: an act for a branch keeps its score at most 1023, TC bounding the score of an entry to ON_TRIAL, and a
commit brings the thresholds into their order as it reads them. -/
theorem everyStepKeepsTheScoresBounded : Obligations.EveryStepKeepsTheScoresBounded :=
  step_keeps State.scoresBounded (fun _ _ hs => hs) fun _ _ _ hs e => scoresBounded_invariant.exec hs e

end Sys2Proof.Machine
end

section
/-! PROOF. The queue of commands (O1, O2), when a command word is taken and when it is refused (O6), and the commands and
reads that change one block (O7 to O10, O13, O14). -/

namespace Sys2Proof.Machine

/-! ## The queue of commands -/

/-- Settles O1: the equation of a step on a queue that is not empty. -/
theorem stepRunsTheFrontCommand : Obligations.StepRunsTheFrontCommand := by
  intro c rest s hqueue
  simp only [step, hqueue]

/-- Every meaning is an act on the part, or on the part and the memory, and no such act touches the queue. -/
theorem exec_next (i : Instr) (s : State) : ∃ t : State, exec i s = .next t ∧ t.pending = s.pending := by
  cases i <;> exact ⟨_, rfl, rfl⟩

/-- Settles O2: by the shape of every meaning, and by the idle step. -/
theorem everyCommandAnswersAndKeepsTheQueue : Obligations.EveryCommandAnswersAndKeepsTheQueue := by
  refine ⟨exec_next, fun s hqueue => ?_⟩
  simp only [step, hqueue]

/-! ## When a meaning acts -/

/-- A command word that its owner takes. -/
theorem onPart_command (code : Byte) (act : Part → Part) {s : State} (h : s.takesCommands) :
    onPart (Part.command code act) s = .next (s.withPart (act s.part)) := by
  obtain ⟨⟨hheld, hwait⟩, hinit⟩ := h
  simp only [onPart, State.withPart, Part.command_taken code act s.part hheld hwait hinit]

/-- An event of the part while /RESET is high. -/
theorem onPart_awake (f : Part → Part) {s : State} (h : s.part.held = false) :
    onPart (Part.awake f) s = .next (s.withPart (f s.part)) := by
  simp only [onPart, State.withPart, Part.awake_running f s.part h]

theorem onPart_command_eq {code : Byte} {act : Part → Part} {s : State} {q : Part} (h : s.takesCommands)
    (e : act s.part = q) : onPart (Part.command code act) s = .next (s.withPart q) :=
  e ▸ onPart_command code act h

theorem onPart_awake_eq {f : Part → Part} {s : State} {q : Part} (h : s.part.held = false) (e : f s.part = q) :
    onPart (Part.awake f) s = .next (s.withPart q) :=
  e ▸ onPart_awake f h

/-- A read that changes the part, where the bus carries it. -/
theorem onPart_readCommand (f : Part → Part) {s : State} (h : s.busReady) :
    onPart (Part.readCommand f) s = .next (s.withPart (f s.part)) := by
  obtain ⟨hheld, hwait⟩ := h
  simp only [onPart, State.withPart, Part.readCommand_ready f hheld hwait]

/-- R186: while /RESET is low a read returns 0 and changes nothing else. -/
theorem onPart_readCommand_held (f : Part → Part) {s : State} (h : s.part.held = true) :
    onPart (Part.readCommand f) s = .next (s.withPart { s.part with hostData := 0 }) := by
  have hread : Part.readCommand f s.part = Part.drive 0 s.part := by simp only [Part.readCommand, h, if_true]
  simp only [onPart, hread]
  rfl

/-! ## The arguments of the command words -/

theorem Part.refuse_eq (r : Reason) (code : Byte) (p : Part) : Part.refuse r code p = p.refusedWith r code := rfl

theorem jobArg_ofNat (j : JobNo) : jobArg (BitVec.ofNat 8 j.val) = some j := by
  have hval : (BitVec.ofNat 8 j.val).toNat = j.val := by simp; omega
  simp only [jobArg, hval, j.isLt, dite_true]

theorem branchArg_ofNat (b : Branch) : branchArg (BitVec.ofNat 8 b.val) = some b := by
  have hval : (BitVec.ofNat 8 b.val).toNat = b.val := by simp; omega
  simp only [branchArg, hval, b.isLt, dite_true]

theorem portArg_ofNat (k : Port) : portArg (BitVec.ofNat 8 k.val) = some k := by
  have hval : (BitVec.ofNat 8 k.val).toNat = k.val := by simp; omega
  simp only [portArg, hval, k.isLt, dite_true]

theorem jobArg_eq_none {v : Byte} (h : 32 ≤ v.toNat) : jobArg v = none := dif_neg (by omega)

theorem branchArg_eq_none {v : Byte} (h : 4 ≤ v.toNat) : branchArg v = none := dif_neg (by omega)

theorem portArg_eq_none {v : Byte} (h : 3 ≤ v.toNat) : portArg v = none := dif_neg (by omega)

theorem snapKindArg_eq_none {v : Byte} (h : 3 ≤ v.toNat) : snapKindArg v = none := by
  unfold snapKindArg
  split
  · omega
  · omega
  · omega
  · rfl

/-! ## The refusals of R162 and R189 -/

/-- A command word is decided by its owner, with the word's code, once it is taken. -/
theorem exec_of_commandCode {i : Instr} {code : Byte} (h : commandCode i = some code) :
    ∃ act : Part → Part, ∀ s, exec i s = onPart (Part.command code act) s := by
  cases i <;> cases h <;> exact ⟨_, fun _ => rfl⟩

/-- An argument out of the range of its command is refused with BAD_ARGUMENT. -/
theorem exec_argument_out {i : Instr} {code v : Byte} {limit : Nat} {s : State} (hcode : commandCode i = some code)
    (harg : argumentLimit i = some (limit, v)) (hout : limit ≤ v.toNat) (h : s.takesCommands) :
    exec i s = .next (s.withPart (s.part.refusedWith .badArgument code)) := by
  cases i <;> cases harg <;> cases hcode <;> refine (onPart_command _ _ h).trans ?_
  case jobRelease => simp only [Part.jobRelease, jobArg_eq_none hout, Part.refuse_eq]
  case jobAbort => simp only [Part.jobAbort, jobArg_eq_none hout, Part.refuse_eq]
  case jobMoveJob => simp only [Part.jobMoveJob, jobArg_eq_none hout, Part.refuse_eq]
  case jobMovePrinter => simp only [Part.jobMovePrinter, portArg_eq_none hout, Part.refuse_eq]
  case loadGrant => simp only [Part.loadGrant, portArg_eq_none hout, Part.refuse_eq]
  case branchSel => simp only [Part.selectBranch, branchArg_eq_none hout, Part.refuse_eq]
  case captureRelease => simp only [Part.captureRelease, branchArg_eq_none hout, Part.refuse_eq]
  case clearCounters => simp only [Part.clearCounters, branchArg_eq_none hout, Part.refuse_eq]
  case snapKind => simp only [Part.setSnapKind, snapKindArg_eq_none hout, Part.refuse_eq]

/-- Settles O6: the refusal that stands over every command word, and the range of each argument. -/
theorem commandWordsAreRefused : Obligations.CommandWordsAreRefused := by
  refine ⟨?init, fun i code limit v s hcode harg hout h => exec_argument_out hcode harg hout h⟩
  case init =>
    intro i code s hcode ⟨hheld, hwait⟩ hinit
    obtain ⟨act, hexec⟩ := exec_of_commandCode hcode
    simp only [hexec, onPart, Part.command_init code act s.part hheld hwait hinit]
    rfl

/-! ## Values held and counters cleared -/

/-- Settles O7: the argument of each command is in range, and its act is an equation of the model. -/
theorem valuesAreHeldAndCountersCleared : Obligations.ValuesAreHeldAndCountersCleared := by
  refine ⟨fun s h => ⟨fun j => ?moveJob, fun b => ?branchSel, ?station, ?job, ?branch⟩,
    fun s b h => ⟨?capture, ?counters⟩⟩
  case moveJob =>
    refine (onPart_command 0x08 _ h).trans ?_
    simp only [Part.jobMoveJob, jobArg_ofNat]
  case branchSel =>
    refine (onPart_command 0x0B _ h).trans ?_
    simp only [Part.selectBranch, branchArg_ofNat]
  case station => exact onPart_command 0x0F _ h
  case job => exact onPart_command 0x0F _ h
  case branch => exact onPart_command 0x0F _ h
  case capture =>
    refine (onPart_command 0x0D _ h).trans ?_
    simp only [Part.captureRelease, branchArg_ofNat]
    rfl
  case counters =>
    refine (onPart_command 0x0E _ h).trans ?_
    simp only [Part.clearCounters, branchArg_ofNat]
    rfl

/-! ## Buffers and jobs released -/

theorem Part.returnBuffer_held {v : Byte} {p : Part} (h : v.toFin ∈ p.pool.hostHeld) :
    Part.returnBuffer v p = Part.freeBuffer v.toFin
      (Part.modPool (fun q => { q with hostHeld := q.hostHeld.filter fun x => x != v.toFin }) p) := by
  simp [Part.returnBuffer, h]

theorem Part.returnBuffer_notHeld {v : Byte} {p : Part} (h : v.toFin ∉ p.pool.hostHeld) :
    Part.returnBuffer v p = p.refusedWith .notOwned 0x05 := by
  simp [Part.returnBuffer, h, Part.refuse_eq]

theorem Part.jobRelease_over {j : JobNo} {p : Part} (h : (p.job j).state = .done ∨ (p.job j).state = .aborted) :
    Part.jobRelease (BitVec.ofNat 8 j.val) p = Part.submitEvent (Part.updJob j (fun _ => Job.blank) 0 p) := by
  simp only [Part.jobRelease, jobArg_ofNat]
  rcases h with h | h <;> simp only [h]

theorem Part.jobRelease_notOver {j : JobNo} {p : Part} (hdone : (p.job j).state ≠ .done)
    (haborted : (p.job j).state ≠ .aborted) :
    Part.jobRelease (BitVec.ofNat 8 j.val) p = p.refusedWith .badState 0x06 := by
  simp only [Part.jobRelease, jobArg_ofNat, Part.refuse_eq]

/-- Settles O8: the equations of the two releases, and what freeing a buffer leaves of a piece of path work. -/
theorem releasesFreeABufferOrAJob : Obligations.ReleasesFreeABufferOrAJob := by
  refine ⟨fun s v h => ⟨fun hheld => ?buffer, fun hnot => ?refused⟩, fun x y off len i v byte z => ?path,
    fun s j h => ⟨fun hover => ?release, fun hdone haborted => ?badState⟩⟩
  case buffer =>
    refine (onPart_command 0x05 _ h).trans ?_
    rw [Part.returnBuffer_held hheld]
    rfl
  case refused =>
    refine (onPart_command 0x05 _ h).trans ?_
    rw [Part.returnBuffer_notHeld hnot]
  case path =>
    refine ⟨by simp [PathOp.afterFree], by simp [PathOp.afterFree], by simp [PathOp.afterFree], rfl, fun hne => ?_⟩
    simp [PathOp.afterFree, hne]
  case release =>
    refine ⟨_, onPart_command 0x06 (Part.jobRelease _) h, ?_⟩
    rw [Part.jobRelease_over hover]
    have hblank : (Part.submitEvent (Part.updJob j (fun _ => Job.blank) 0 s.part)).job j = Job.blank := by simp
    refine ⟨?_, ?_, ?_⟩
    · simp only [State.withPart, hblank]
      rfl
    · simp only [State.withPart, hblank]
      rfl
    · simp only [State.withPart, hblank]
      rfl
  case badState =>
    refine (onPart_command 0x06 _ h).trans ?_
    rw [Part.jobRelease_notOver hdone haborted]

/-! ## The sense triggers -/

/-- R134, R135: a trigger makes an IDLE sequencer PENDING and is counted otherwise. -/
theorem Part.senseTrigger_eq (p : Part) : Part.senseTrigger p = { p with sense :=
    if p.sense.state = .idle then { p.sense with state := .pending }
    else { p.sense with missed := if p.sense.missed < 255 then p.sense.missed + 1 else 255 } } := by
  simp only [Part.senseTrigger, Part.modSense, satInc]
  cases hstate : p.sense.state <;> rfl

/-- Settles O9: both commands make the trigger, and the expiry starts the timer again. -/
theorem senseTriggersStartAPassOrAreCounted : Obligations.SenseTriggersStartAPassOrAreCounted := by
  intro s q triggered
  refine ⟨fun v h => ?now, fun hheld hrunning => ?expiry⟩
  case now =>
    refine (onPart_command 0x11 _ h).trans ?_
    rw [Part.senseTrigger_eq]
  case expiry =>
    refine (onPart_awake _ hheld).trans ?_
    rw [Part.sensePeriodExpiry, if_pos hrunning, Part.senseTrigger_eq]
    rfl

/-! ## The snapshot window -/

theorem Part.snapRecord_station {p : Part} (v : Byte) (h : p.snap.kind = .station) :
    p.snapRecord v = some (stationLow (p.stations.get v.toFin) ++ stationHigh (p.stations.get v.toFin)) := by
  simp only [Part.snapRecord, h]
  rfl

theorem Part.snapRecord_job {p : Part} {v : Byte} {j : JobNo} (hv : v.toNat = j.val) (h : p.snap.kind = .job) :
    p.snapRecord v = some (p.jobSnap j) := by
  simp only [Part.snapRecord, h, hv, j.isLt, dite_true]

theorem Part.snapRecord_branch {p : Part} {v : Byte} {b : Branch} (hv : v.toNat = b.val) (h : p.snap.kind = .branch) :
    p.snapRecord v = some (p.branchSnap b) := by
  simp only [Part.snapRecord, h, hv, b.isLt, dite_true]

/-- The record of an index in range exists, whatever the kind held. -/
theorem Part.snapRecord_ne_none {p : Part} {v : Byte} (h : p.snap.kind = .station ∨ (p.snap.kind = .job ∧ v.toNat < 32)
    ∨ (p.snap.kind = .branch ∧ v.toNat < 4)) : ∃ l, p.snapRecord v = some l := by
  rcases h with h | ⟨h, hv⟩ | ⟨h, hv⟩
  · exact ⟨_, snapRecord_station v h⟩
  · exact ⟨_, snapRecord_job (j := ⟨v.toNat, hv⟩) rfl h⟩
  · exact ⟨_, snapRecord_branch (b := ⟨v.toNat, hv⟩) rfl h⟩

theorem Part.snapRecord_eq_none {p : Part} {v : Byte}
    (h : (p.snap.kind = .job ∧ 32 ≤ v.toNat) ∨ (p.snap.kind = .branch ∧ 4 ≤ v.toNat)) : p.snapRecord v = none := by
  rcases h with ⟨h, hv⟩ | ⟨h, hv⟩
  · simp only [Part.snapRecord, h, Nat.not_lt.mpr hv, dite_false]
  · simp only [Part.snapRecord, h, Nat.not_lt.mpr hv, dite_false]

/-- R173: a record is copied into an EMPTY window, cut or filled to 30 bytes, with its index and the kind. -/
theorem Part.takeSnapshot_empty {p : Part} {v : Byte} {l : List Byte} {k : SnapKind} (hrecord : p.snapRecord v = some l)
    (hkind : p.snap.kind = k) (hempty : p.snap.held = false) :
    Part.takeSnapshot v p = { p with snap := { p.snap with held := true, content := windowBytes l v k } } := by
  simp only [Part.takeSnapshot, hrecord, hempty, Part.modSnap, hkind, Bool.false_eq_true, if_false]

/-- Settles O10: the record of each kind, into an EMPTY window, and the two cases in which the window stands. -/
theorem snapshotRequestFillsAnEmptyWindow : Obligations.SnapshotRequestFillsAnEmptyWindow := by
  intro s v h window filled
  have taken := onPart_command 0x10 (Part.takeSnapshot v) h
  refine ⟨fun hkind hempty => ?station, fun j hv hkind hempty => ?job, fun b hv hkind hempty => ?branch,
    fun hrange hheld => ?held, fun hout => ?out⟩
  case station =>
    refine taken.trans ?_
    rw [Part.takeSnapshot_empty (Part.snapRecord_station v hkind) hkind hempty]
    rfl
  case job =>
    refine taken.trans ?_
    rw [Part.takeSnapshot_empty (Part.snapRecord_job hv hkind) hkind hempty]
    rfl
  case branch =>
    refine taken.trans ?_
    rw [Part.takeSnapshot_empty (Part.snapRecord_branch hv hkind) hkind hempty]
    rfl
  case held =>
    obtain ⟨l, hrecord⟩ := Part.snapRecord_ne_none hrange
    refine taken.trans ?_
    simp only [Part.takeSnapshot, hrecord, hheld, if_true, State.withPart]
  case out =>
    refine taken.trans ?_
    simp only [Part.takeSnapshot, Part.snapRecord_eq_none hout, Part.refuse_eq]

/-! ## The reads that capture, clear or release -/

theorem flagBit_fifteen (b : Bool) : flagBit b 15 = if b then 0x8000 else 0 := by cases b <;> rfl

theorem Part.refusalWord_low (p : Part) :
    p.refusalWord.truncate 8 = BitVec.ofNat 8 (reasonCode p.notices.reason) := by
  ext i hi
  rw [BitVec.truncate_eq_setWidth, BitVec.getElem_setWidth, Part.refusalWord, BitVec.getLsbD_append, if_pos hi,
    BitVec.getLsbD_eq_getElem]

/-- Settles O13: for each live word the capture of the model, and the first byte that it drives. -/
theorem firstByteReadsCaptureTheWord : Obligations.FirstByteReadsCaptureTheWord := by
  intro s h lr
  refine ⟨?refusal, onPart_readCommand _ h, onPart_readCommand _ h, fun b => ⟨?score, onPart_readCommand _ h⟩⟩
  case refusal =>
    refine (onPart_readCommand _ h).trans ?_
    simp only [Part.captureWord, Part.refusalWord_low]
    rfl
  case score =>
    refine (onPart_readCommand _ h).trans ?_
    simp only [Part.captureWord, Part.scoreWord, flagBit_fifteen]
    rfl

/-- R164, R174: an address of the window reads the byte that the content holds there. -/
theorem Part.controlRead_window (p : Part) (i : Fin 32) : p.controlRead (0xE0 + i.val) = p.snap.content.get i := by
  have hindex : Fin.ofNat 32 (0xE0 + i.val - 0xE0) = i := Fin.ext (by simp only [Fin.ofNat]; omega)
  unfold controlRead
  extract_lets word
  repeat rw [if_neg (by omega)]
  rw [if_pos (by omega), hindex]

/-- Settles O14: the three reads that clear or release, the same reads while /RESET is low, and the bytes of the
window. -/
theorem readsThatClearOrRelease : Obligations.ReadsThatClearOrRelease := by
  refine ⟨⟨fun s h => onPart_readCommand _ h, fun s hlow => ?low⟩,
    fun s h => ⟨fun i => ?window, onPart_readCommand _ h⟩⟩
  case low =>
    exact ⟨onPart_readCommand_held _ hlow, onPart_readCommand_held _ hlow, onPart_readCommand_held _ hlow,
      fun w => onPart_readCommand_held _ hlow⟩
  case window =>
    have haddr : (BitVec.ofNat 17 (0xE0 + i.val)).toNat = 0xE0 + i.val := by
      simp only [BitVec.toNat_ofNat]
      omega
    rw [hostRead_control h.1 (by omega), haddr, Part.controlRead_window]

end Sys2Proof.Machine
end

section
/-! PROOF. What a reset leaves (O3, O4), and start-up initialisation from its begin to its end (O5). -/

namespace Sys2Proof.Machine

/-! ## Rest, block by block (R190) -/

theorem Engine.blank_atRest (level : Bool) : (Engine.blank level).atRest :=
  ⟨rfl, rfl, rfl, rfl, rfl, rfl, rfl, rfl, rfl, rfl, rfl⟩

theorem Station.blank_atRest : Station.blank.atRest := ⟨rfl, rfl, rfl, rfl, rfl, rfl, rfl, rfl, rfl, rfl, rfl, rfl⟩

theorem PrinterPort.blank_atRest (deselected paperOut fault : Bool) :
    (PrinterPort.blank deselected paperOut fault).atRest := by
  refine ⟨rfl, rfl, rfl, rfl, rfl, rfl, rfl, rfl, rfl, rfl, rfl, rfl, fun i => ?_⟩
  simp only [PrinterPort.blank, defaultTable, get_ofFn, Option.map_some]
  rfl

theorem Supervisor.blank_atRest : Supervisor.blank.atRest :=
  ⟨rfl, rfl, rfl, rfl, rfl, rfl, fun k => get_replicate 0 k⟩

theorem Sense.blank_atRest : Sense.blank.atRest :=
  ⟨rfl, rfl, rfl, fun b => ⟨get_replicate _ b, get_replicate _ b, get_replicate _ b, get_replicate _ b⟩⟩

theorem Switch.blank_atRest (rflt : Bool) : (Switch.blank rflt).atRest :=
  ⟨rfl, rfl, rfl, rfl, rfl, rfl, rfl, rfl, rfl, rfl, rfl, rfl, rfl⟩

namespace Part

variable (held : Bool) (task : LoaderTask) (p : Part)

theorem afterReset_pathAtRest : (afterReset held task p).pathAtRest :=
  ⟨rfl, rfl, rfl, rfl, rfl, rfl, rfl, rfl, rfl, rfl, rfl, rfl, rfl,
    fun b => ⟨get_replicate _ b, get_replicate _ b, get_replicate _ b⟩⟩

theorem afterReset_jobsAtRest : (afterReset held task p).jobsAtRest :=
  ⟨rfl, rfl, rfl, rfl, rfl, rfl, rfl, nofun, rfl, rfl, fun j => congrArg Job.state (get_replicate Job.blank j),
    fun k => get_replicate _ k⟩

theorem afterReset_engine (b : Branch) : (afterReset held task p).engine b = Engine.blank (p.engine b).rxLevel :=
  get_map ..

theorem afterReset_switch (b : Branch) : (afterReset held task p).switch b = Switch.blank (p.switch b).rflt :=
  get_map ..

theorem afterReset_port (k : Port) : (afterReset held task p).port k =
    PrinterPort.blank (p.port k).deselected (p.port k).paperOut (p.port k).fault :=
  get_map ..

theorem afterReset_station (b : Branch) (n : StationNo) : (afterReset held task p).station b n = Station.blank :=
  get_replicate ..

theorem afterReset_sup (b : Branch) : (afterReset held task p).sup b = Supervisor.blank := get_replicate ..

/-- R190: a reset brings every block to rest, whatever the part was doing. -/
theorem afterReset_atRest : (afterReset held task p).atRest := by
  refine ⟨rfl, rfl, rfl, rfl, by simp only [afterReset, initial], rfl, rfl, rfl, rfl, rfl, rfl, rfl,
    afterReset_pathAtRest held task p, afterReset_jobsAtRest held task p, Sense.blank_atRest, ?stations, ?ports, ?branches⟩
  case stations =>
    intro b n
    rw [afterReset_station]
    exact Station.blank_atRest
  case ports =>
    intro k
    rw [afterReset_port]
    exact PrinterPort.blank_atRest ..
  case branches =>
    intro b
    rw [afterReset_engine, afterReset_sup, afterReset_switch]
    exact ⟨Engine.blank_atRest _, Supervisor.blank_atRest, Switch.blank_atRest _,
      congrArg ProbeRecord.valid (get_replicate ProbeRecord.blank b), get_replicate _ b⟩

/-- R47, R49: a power-on or pin reset leaves the tables of units and nodes blank. -/
theorem afterReset_tablesBlank : (afterReset held task p).tablesBlank := by
  refine ⟨fun u => ?_, fun n => ?_⟩
  · have hunit : (afterReset held task p).units.get u = UnitEntry.blank := get_replicate ..
    rw [hunit]
    exact ⟨rfl, rfl⟩
  · have hnode : (afterReset held task p).nodes.get n = NodeEntry.blank := get_replicate ..
    rw [hnode]
    exact ⟨rfl, rfl⟩

/-- The state after power-on is one that a reset leaves. -/
theorem afterReset_initial : afterReset false task (initial task) = initial task := by
  simp [afterReset, initial, Vector.map_replicate, Engine.blank, PrinterPort.blank, Switch.blank]

end Part

/-- Settles O3: the state after power-on is one that a reset leaves, and the invariants hold of the reset switches,
supervisors and setup. -/
theorem resetStateIsAtRest : Obligations.ResetStateIsAtRest := by
  have hreset : State.reset.part = Part.afterReset false (.initialise false 0 []) State.reset.part :=
    (Part.afterReset_initial _).symm
  refine ⟨⟨?rest, ?blank, rfl, rfl, rfl, rfl⟩, rfl, fun b => ?drives, fun b => ?score, Setup.default_scoresBounded, nofun⟩
  case rest =>
    rw [hreset]
    exact Part.afterReset_atRest ..
  case blank =>
    rw [hreset]
    exact Part.afterReset_tablesBlank ..
  case drives =>
    rw [hreset, Part.afterReset_switch]
    rfl
  case score =>
    rw [hreset, Part.afterReset_sup]
    exact Nat.zero_le _

/-! ## The host access that waits when a reset comes (R175) -/

namespace Part

/-- R160: after a reset INIT has begun, so that a write to the host area alone passes. -/
theorem writeClass_hostArea (p : Part) {a : Nat} (hlo : 0x03000 ≤ a) (hhi : a < 0x10000) :
    writeClass p a = .passes := by
  have hpage : ¬ a < 0x100 := by omega
  have himage : partImage a = false := by simp [partImage, within]; omega
  have hfields : stationFields a = false := by simp [stationFields, within]; omega
  have hregion : initRegion a = false := by simp [initRegion, within]; omega
  have hpool : ¬ (Config.poolBase ≤ a) := by simp [Config.poolBase]; omega
  simp [writeClass, hpage, himage, hfields, hregion, hpool]

/-- R160: a region that INIT writes or that only the part writes, and the pool while no buffer is the host's, block
a write. -/
theorem writeClass_blocked {p : Part} (hinit : p.loader.startState = .init) (hheld : p.pool.hostHeld = []) {a : Nat}
    (h : (0x00100 ≤ a ∧ a < 0x00E80 ∧ ¬ (0x00960 ≤ a ∧ a < 0x00980)) ∨ (0x01000 ≤ a ∧ a < 0x02D00) ∨ 0x10000 ≤ a) :
    writeClass p a = .blocked := by
  have hpage : ¬ a < 0x100 := by omega
  have hpool : poolHeld p a = false := by simp [poolHeld, hheld]
  have hregion : partImage a = true ∨ initRegion a = true ∨ Config.poolBase ≤ a := by
    simp [partImage, initRegion, within, Config.poolBase]
    omega
  rcases hregion with hregion | hregion | hregion <;> simp [writeClass, hpage, hinit, hpool, hregion]

/-- The host area holds no trigger. -/
theorem trigger_hostArea (m : List Host.Cell) (p : Part) {a : Nat} (hlo : 0x03000 ≤ a) : trigger m a p = p := by
  have hstation : isStationTrigger a = false := by simp [isStationTrigger]; omega
  have hunit : isUnitTrigger a = false := by simp [isUnitTrigger]; omega
  have hnode : isNodeTrigger a = false := by simp [isNodeTrigger]; omega
  simp [trigger, hstation, hunit, hnode]

theorem makeWrite_passes {a : Addr} {v : Byte} {x : Part × List Host.Cell} (h : writeClass x.1 a.toNat = .passes) :
    makeWrite a v x = (trigger (Mem.write x.2 a.toNat v) a.toNat x.1, Mem.write x.2 a.toNat v) := by
  simp only [makeWrite, h]

theorem makeWrite_blocked {a : Addr} {v : Byte} {x : Part × List Host.Cell} (h : writeClass x.1 a.toNat = .blocked) :
    makeWrite a v x = (blockWrite a x.1, x.2) := by
  simp only [makeWrite, h]

theorem endWait_none {before : Part} (x : Part × List Host.Cell) (h : before.hostWait = none) : endWait before x = x := by
  simp only [endWait, h]

theorem endWait_read {before : Part} {a : Addr} (x : Part × List Host.Cell) (h : before.hostWait = some (.read a)) :
    endWait before x = (drive (Mem.read x.2 a.toNat) x.1, x.2) := by
  simp only [endWait, h]

theorem endWait_write {before : Part} {a : Addr} {v : Byte} (x : Part × List Host.Cell)
    (h : before.hostWait = some (.write a v)) : endWait before x = makeWrite a v x := by
  simp only [endWait, h]

end Part

/-! ## The three resets -/

section

variable {s : State}

theorem exec_powerOnReset (s : State) : exec .powerOnReset s =
    onBoth (fun x => Part.endWait x.1 (Part.afterReset x.1.held (Part.hardTask x.1.held) x.1, x.2)) s := rfl

theorem exec_pinResetAssert (s : State) : exec .pinResetAssert s =
    onBoth (fun x => Part.endWait x.1 (Part.afterReset true .idle x.1, x.2)) s := rfl

/-- A power-on reset while no host access waits. -/
theorem exec_powerOnReset_free (h : s.part.hostWait = none) : exec .powerOnReset s =
    .next (s.withPart (Part.afterReset s.part.held (Part.hardTask s.part.held) s.part)) := by
  simp only [exec_powerOnReset, onBoth, Part.endWait_none _ h, State.withPart]

/-- A power-on reset while a read waits: the byte that memory holds is driven over the reset. -/
theorem exec_powerOnReset_read {a : Addr} (h : s.part.hostWait = some (.read a)) : exec .powerOnReset s =
    .next (s.withPart (Part.drive (Mem.read s.mem a.toNat)
      (Part.afterReset s.part.held (Part.hardTask s.part.held) s.part))) := by
  simp only [exec_powerOnReset, onBoth, Part.endWait_read _ h, State.withPart]

/-- A power-on reset while a write to the host area waits: the byte is stored. -/
theorem exec_powerOnReset_stored {a : Addr} {v : Byte} (h : s.part.hostWait = some (.write a v))
    (hlo : 0x03000 ≤ a.toNat) (hhi : a.toNat < 0x10000) : exec .powerOnReset s =
    .next { s with
      part := Part.afterReset s.part.held (Part.hardTask s.part.held) s.part
      mem := Mem.write s.mem a.toNat v } := by
  simp only [exec_powerOnReset, onBoth, Part.endWait_write _ h,
    Part.makeWrite_passes (x := (_, s.mem)) (Part.writeClass_hostArea _ hlo hhi), Part.trigger_hostArea _ _ hlo]

/-- A power-on reset while a write waits that it has made the part's own: the byte is not stored. -/
theorem exec_powerOnReset_blocked {a : Addr} {v : Byte} (h : s.part.hostWait = some (.write a v))
    (hregion : (0x00100 ≤ a.toNat ∧ a.toNat < 0x00E80 ∧ ¬ (0x00960 ≤ a.toNat ∧ a.toNat < 0x00980))
      ∨ (0x01000 ≤ a.toNat ∧ a.toNat < 0x02D00) ∨ 0x10000 ≤ a.toNat) : exec .powerOnReset s =
    .next (s.withPart (Part.blockWrite a (Part.afterReset s.part.held (Part.hardTask s.part.held) s.part))) := by
  have hblocked := Part.makeWrite_blocked (v := v)
    (x := (Part.afterReset s.part.held (Part.hardTask s.part.held) s.part, s.mem))
    (Part.writeClass_blocked (by rfl) (by rfl) hregion)
  simp only [exec_powerOnReset, onBoth, Part.endWait_write _ h, hblocked, State.withPart]

theorem exec_pinResetAssert_free (h : s.part.hostWait = none) : exec .pinResetAssert s =
    .next (s.withPart (Part.afterReset true .idle s.part)) := by
  simp only [exec_pinResetAssert, onBoth, Part.endWait_none _ h, State.withPart]

theorem exec_softReset (v : Byte) (h : s.busReady) : exec (.softReset v) s =
    .next (s.withPart { Part.afterReset false (.initialise true 0 []) s.part with
      units := s.part.units, nodes := s.part.nodes }) := by
  obtain ⟨hheld, hwait⟩ := h
  have hact : Part.softReset s.part = { Part.afterReset false (.initialise true 0 []) s.part with
      units := s.part.units, nodes := s.part.nodes } := by
    simp [Part.softReset, Part.busFree, hheld, hwait]
  calc exec (.softReset v) s
    _ = .next (s.withPart (Part.softReset s.part)) := rfl
    _ = _ := by rw [hact]

end

/-- Settles O4: where no access waits the three resets leave `afterReset`; a waiting read is answered over it, and a
waiting write is decided by the class it has there. -/
theorem resetsBringThePartToRest : Obligations.ResetsBringThePartToRest := by
  refine ⟨fun s hwait => ⟨?powerOn, ?pin, fun v hheld => ?soft⟩,
    fun s a v hheld => ⟨fun hread => ?read, fun hwrite hlo hhi => ?stored, fun hwrite hregion => ?blocked⟩⟩
  case powerOn =>
    exact ⟨_, exec_powerOnReset_free hwait, Part.afterReset_atRest .., Part.afterReset_tablesBlank .., rfl, rfl, rfl, rfl,
      rfl, rfl⟩
  case pin =>
    exact ⟨_, exec_pinResetAssert_free hwait, Part.afterReset_atRest .., Part.afterReset_tablesBlank .., rfl, rfl, rfl,
      rfl, rfl, rfl⟩
  case soft =>
    exact ⟨_, exec_softReset v ⟨hheld, hwait⟩, Part.afterReset_atRest false _ s.part, rfl, rfl, rfl, rfl, rfl, rfl, rfl, rfl⟩
  case read =>
    exact ⟨_, exec_powerOnReset_read hread, rfl, Part.afterReset_atRest s.part.held _ s.part, rfl, rfl⟩
  case stored =>
    exact ⟨_, exec_powerOnReset_stored hwrite hlo hhi, rfl, Part.afterReset_atRest .., rfl⟩
  case blocked =>
    exact ⟨_, exec_powerOnReset_blocked hwrite hregion, rfl, rfl, rfl, rfl, rfl, BitVec.zero_or⟩

/-! ## Start-up initialisation (R186) -/

theorem Part.initDone_complete {p : Part} {soft : Bool} {pos : Nat} {entry : List Byte}
    (htask : p.loader.task = .initialise soft pos entry) (h : Config.initCycles soft ≤ pos) :
    p.initDone = { p with
      loader := { startState := .ready, task := .idle }
      sense := { p.sense with period := if p.setup.sensePeriod = 0 then none else some p.setup.sensePeriod }
      notices := { p.notices with latches := p.notices.latches ||| 0x8000 } } := by
  simp only [Part.initDone, htask, h, if_true]
  rfl

theorem Part.initDone_going {p : Part} {soft : Bool} {pos : Nat} {entry : List Byte}
    (htask : p.loader.task = .initialise soft pos entry) (h : pos < Config.initCycles soft) : p.initDone = p := by
  simp only [Part.initDone, htask, Nat.not_le.mpr h, if_false]

/-- Settles O5: the rise of /RESET, and the end of INIT by the cycles made. -/
theorem initialisationBeginsAndEnds : Obligations.InitialisationBeginsAndEnds := by
  refine ⟨fun s hheld => ?rises, fun s hheld => ?high, fun s soft pos entry hheld htask => ⟨fun hdone => ?ends,
    fun hgoing => ?waits⟩⟩
  case rises =>
    calc exec .pinResetRelease s
      _ = .next (s.withPart s.part.resetRelease) := rfl
      _ = _ := by rw [Part.resetRelease, if_pos hheld]
  case high =>
    calc exec .pinResetRelease s
      _ = .next (s.withPart s.part.resetRelease) := rfl
      _ = .next s := by simp only [Part.resetRelease, hheld, Bool.false_eq_true, if_false, State.withPart]
  case ends => exact (onPart_awake _ hheld).trans (by rw [Part.initDone_complete htask hdone])
  case waits => exact (onPart_awake _ hheld).trans (by rw [Part.initDone_going htask hgoing]; rfl)

end Sys2Proof.Machine
end

section
/-! PROOF. The stations an address leads to (R42, R43), and the to-trunk walk: the checks of a slot, its reads and its
retries (O17). -/

namespace Sys2Proof.Machine

/-! ## Numbers and bytes of a record -/

theorem inHostArea_iff (addr len : Nat) :
    inHostArea addr len = true ↔ len = 0 ∨ (0x03000 ≤ addr ∧ addr + len ≤ 0x10000) := by
  simp only [inHostArea, Bool.or_eq_true, beq_iff_eq, Bool.and_eq_true, decide_eq_true_eq]
  rfl

theorem byte_eq_ofNat {v : Byte} {n : Nat} (h : v.toNat = n) : v = BitVec.ofNat 8 n := by
  rw [← h]
  simp

theorem get_addrAt (l : List Byte) (i : Nat) (k : Fin 6) : (addrAt l i).get k = byteAt l (i + k.val) := get_ofFn ..

theorem byteAt_toList_append {n : Nat} (v : Vector Byte n) (r : List Byte) (k : Fin n) :
    byteAt (v.toList ++ r) k.val = v.get k := by
  rw [byteAt, List.getD_eq_getElem?_getD, List.getElem?_append_left (by simp)]
  simp [Vector.get]

theorem byteAt_toList_append_right {n : Nat} (v : Vector Byte n) (r : List Byte) (i : Nat) :
    byteAt (v.toList ++ r) (n + i) = byteAt r i := by
  rw [byteAt, List.getD_eq_getElem?_getD, List.getElem?_append_right (by simp)]
  simp [byteAt]

/-- A search finds the one item that has the property. -/
theorem find?_of_unique {α : Type} {l : List α} {P : α → Bool} {x : α} (hx : x ∈ l) (hP : P x = true)
    (hu : ∀ y ∈ l, P y = true → y = x) : l.find? P = some x := by
  cases hfind : l.find? P with
  | none => exact absurd hP (by simpa using List.find?_eq_none.mp hfind x hx)
  | some y => rw [hu y (List.mem_of_find?_eq_some hfind) (List.find?_some hfind)]

namespace Part

/-! ## The stations an address leads to (R42, R43) -/

theorem mem_allStations {t : Branch × StationNo} : t ∈ allStations ↔ t.2 ≠ 0 ∧ t.2 ≠ 63 := by
  obtain ⟨b, n⟩ := t
  have hb : b ∈ branches := by revert b; decide
  simp [allStations, stationNumbers, hb]


/-- R42: a derived address is the base in force, the branch and the station's number. -/
theorem derivedAddr_eq_iff (p : Part) (b : Branch) (n : StationNo) (a : NodeAddr) :
    p.derivedAddr b n = a ↔ (∀ k : Fin 4, a.get (k.castLE (by omega)) = p.setup.derivedPrefix.get k)
      ∧ (a.get 4).toNat = b.val ∧ (a.get 5).toNat = n.val := by
  have hprefix : ∀ k : Fin 4, (p.derivedAddr b n).get (k.castLE (by omega)) = p.setup.derivedPrefix.get k := by
    intro k
    simp only [derivedAddr, get_addrAt, Fin.val_castLE, Nat.zero_add]
    exact byteAt_toList_append _ _ k
  have hbranch : (p.derivedAddr b n).get 4 = BitVec.ofNat 8 b.val :=
    (get_addrAt ..).trans (byteAt_toList_append_right p.setup.derivedPrefix _ 0)
  have hnumber : (p.derivedAddr b n).get 5 = BitVec.ofNat 8 n.val :=
    (get_addrAt ..).trans (byteAt_toList_append_right p.setup.derivedPrefix _ 1)
  constructor
  case mp =>
    rintro rfl
    refine ⟨hprefix, ?_, ?_⟩
    · rw [hbranch, BitVec.toNat_ofNat]
      omega
    · rw [hnumber, BitVec.toNat_ofNat]
      omega
  case mpr =>
    rintro ⟨ha, hb, hn⟩
    have hget : ∀ k : Fin 6, (p.derivedAddr b n).get k = a.get k := by
      intro k
      obtain ⟨i, hi⟩ := k
      rcases Nat.lt_or_ge i 4 with h | h
      · exact (hprefix ⟨i, h⟩).trans (ha ⟨i, h⟩).symm
      · obtain rfl | rfl : i = 4 ∨ i = 5 := by omega
        · exact hbranch.trans (byte_eq_ofNat hb).symm
        · exact hnumber.trans (byte_eq_ofNat hn).symm
    exact Vector.ext fun i hi => hget ⟨i, hi⟩

theorem reverseLookup_assigned {p : Part} {a : NodeAddr} {b : Branch} {n : StationNo} (h0 : n ≠ 0) (h63 : n ≠ 63)
    (ha : (p.station b n).assigned = some a)
    (hu : ∀ (c : Branch) (m : StationNo), m ≠ 0 → m ≠ 63 → (p.station c m).assigned = some a → c = b ∧ m = n) :
    p.reverseLookup a = some (b, n) := by
  have hfind : allStations.find? (fun s => (p.station s.1 s.2).assigned = some a) = some (b, n) := by
    refine find?_of_unique (mem_allStations.mpr ⟨h0, h63⟩) (by simpa using ha) fun y hy hPy => ?_
    obtain ⟨h0', h63'⟩ := mem_allStations.mp hy
    obtain ⟨hc, hm⟩ := hu y.1 y.2 h0' h63' (by simpa using hPy)
    exact Prod.ext hc hm
  simp only [reverseLookup, hfind]

/-- R43: an address that no station is assigned is looked up among the derived addresses. -/
theorem reverseLookup_unassigned {p : Part} {a : NodeAddr}
    (h : ∀ (c : Branch) (m : StationNo), m ≠ 0 → m ≠ 63 → (p.station c m).assigned ≠ some a) : p.reverseLookup a =
      allStations.find? fun s => (p.station s.1 s.2).assigned = none ∧ p.derivedAddr s.1 s.2 = a := by
  have hfind : allStations.find? (fun s => (p.station s.1 s.2).assigned = some a) = none :=
    List.find?_eq_none.mpr fun t ht => by
      obtain ⟨h0, h63⟩ := mem_allStations.mp ht
      simpa using h t.1 t.2 h0 h63
  simp only [reverseLookup, hfind]

theorem reverseLookup_derived {p : Part} {a : NodeAddr} {b : Branch} {n : StationNo} (h0 : n ≠ 0) (h63 : n ≠ 63)
    (hnone : (p.station b n).assigned = none) (ha : p.derivedAddr b n = a)
    (h : ∀ (c : Branch) (m : StationNo), m ≠ 0 → m ≠ 63 → (p.station c m).assigned ≠ some a) :
    p.reverseLookup a = some (b, n) := by
  rw [reverseLookup_unassigned h]
  refine find?_of_unique (mem_allStations.mpr ⟨h0, h63⟩) (by simpa using ⟨hnone, ha⟩) fun y _ hPy => ?_
  obtain ⟨-, hy⟩ : (p.station y.1 y.2).assigned = none ∧ p.derivedAddr y.1 y.2 = a := by simpa using hPy
  obtain ⟨-, hb, hn⟩ := (derivedAddr_eq_iff p b n a).mp ha
  obtain ⟨-, hb', hn'⟩ := (derivedAddr_eq_iff p y.1 y.2 a).mp hy
  exact Prod.ext (Fin.ext (hb'.symm.trans hb)) (Fin.ext (hn'.symm.trans hn))

theorem reverseLookup_none {p : Part} {a : NodeAddr}
    (h : ∀ (c : Branch) (m : StationNo), m ≠ 0 → m ≠ 63 → (p.station c m).assigned ≠ some a)
    (hd : ∀ (b : Branch) (n : StationNo), n ≠ 0 → n ≠ 63 → (p.station b n).assigned = none → p.derivedAddr b n ≠ a) :
    p.reverseLookup a = none := by
  rw [reverseLookup_unassigned h]
  refine List.find?_eq_none.mpr fun t ht => ?_
  obtain ⟨h0, h63⟩ := mem_allStations.mp ht
  simpa using hd t.1 t.2 h0 h63

/-! ## The checks of a to-trunk slot (R69) -/

theorem ttCheck_tooLong {p : Part} {l : List Byte} (h : 240 < ttLength l) : p.ttCheck l = .error .tooLong := if_pos h

theorem ttCheck_badAddress {p : Part} {l : List Byte} (hlen : ttLength l ≤ 240)
    (h : ¬ (ttLength l = 0 ∨ (0x03000 ≤ ttData l ∧ ttData l + ttLength l ≤ 0x10000))) :
    p.ttCheck l = .error .badAddress := by
  have harea : inHostArea (ttData l) (ttLength l) = false := by
    rw [← Bool.not_eq_true, inHostArea_iff]
    exact h
  simp only [ttCheck, Nat.not_lt.mpr hlen, harea, if_false, Bool.not_false, if_true]

/-- A slot that passes the checks of its data is decided by its target. -/
theorem ttCheck_target {p : Part} {l : List Byte} (hlen : ttLength l ≤ 240)
    (h : ttLength l = 0 ∨ (0x03000 ≤ ttData l ∧ ttData l + ttLength l ≤ 0x10000)) : p.ttCheck l = p.ttResolve l := by
  have harea : inHostArea (ttData l) (ttLength l) = true := (inHostArea_iff ..).mpr h
  simp only [ttCheck, Nat.not_lt.mpr hlen, harea, if_false, Bool.not_true, Bool.false_eq_true]

theorem ttResolve_noTarget {p : Part} {l : List Byte} (h : p.ttTarget l = none) : p.ttResolve l = .error .noRoute := by
  simp only [ttResolve, h]

theorem ttResolve_target {p : Part} {l : List Byte} {b : Branch} {n : StationNo} (h : p.ttTarget l = some (b, n)) :
    p.ttResolve l = match p.ttTargetResult b n with | some r => .error r | none => .ok (b, n) := by
  simp only [ttResolve, h] <;> rfl

theorem running_eq_false {x : SwitchState} (h1 : x ≠ .inService) (h2 : x ≠ .onTrial) : x.running = false := by
  cases x <;> simp_all [SwitchState.running]

theorem running_eq_true {x : SwitchState} (h : x = .inService ∨ x = .onTrial) : x.running = true := by
  rcases h with rfl | rfl <;> rfl

/-- Check 4 of R69. -/
theorem ttTargetResult_stopped {p : Part} {b : Branch} (n : StationNo) (h1 : (p.switch b).state ≠ .inService)
    (h2 : (p.switch b).state ≠ .onTrial) : p.ttTargetResult b n = some .isolated := by
  simp only [ttTargetResult, running_eq_false h1 h2, Bool.not_false, if_true]

/-- The broadcast is not checked for a station. -/
theorem ttTargetResult_broadcast {p : Part} {b : Branch} (h : (p.switch b).state.running = true) :
    p.ttTargetResult b 63 = none := by
  simp only [ttTargetResult, h, Bool.not_true, Bool.false_eq_true, if_false, if_true]

/-- Check 5 of R69. -/
theorem ttTargetResult_station {p : Part} {b : Branch} {n : StationNo} (h : (p.switch b).state.running = true)
    (hn : n ≠ 63) : p.ttTargetResult b n = match (p.station b n).state with
      | .present => none
      | .absent => some .noStation
      | .barred => some .barred
      | .conflict => some .conflict := by
  simp only [ttTargetResult, h, Bool.not_true, Bool.false_eq_true, if_false, hn] <;> rfl

/-! ## The target a slot names (R69, R192) -/

theorem ttByStation_eq {l : List Byte} {b : Branch} {n : StationNo} (hn : n ≠ 0) (hb : (byteAt l 2).toNat = b.val)
    (hs : (byteAt l 3).toNat = n.val) : ttByStation l = some (b, n) := by
  have hn0 : n.val ≠ 0 := fun h => hn (Fin.ext h)
  simp only [ttByStation, hb, hs, b.isLt, n.isLt, and_self, dite_true, hn0, if_false]

theorem ttByStation_none {l : List Byte} (h : 4 ≤ (byteAt l 2).toNat ∨ 64 ≤ (byteAt l 3).toNat ∨ byteAt l 3 = 0) :
    ttByStation l = none := by
  unfold ttByStation
  split
  · have hzero : (byteAt l 3).toNat = 0 := by
      rcases h with h | h | h
      · omega
      · omega
      · simp [h]
    exact if_pos hzero
  · rfl

theorem ttTarget_byStation {p : Part} {l : List Byte} (h : byteAt l 1 = 0) : p.ttTarget l = ttByStation l := by
  simp only [ttTarget, h]
  rfl

theorem ttTarget_byAddress {p : Part} {l : List Byte} (h : byteAt l 1 = 1) :
    p.ttTarget l = p.reverseLookup (addrAt l 4) := by
  simp only [ttTarget, h]
  rfl

theorem ttTarget_none {p : Part} {l : List Byte} (h : 2 ≤ (byteAt l 1).toNat) : p.ttTarget l = none := by
  unfold ttTarget
  split
  · omega
  · omega
  · rfl

/-! ## The reads and retries of the walk (R68, R70) -/

theorem postToTrunk_idle {p : Part} (h : p.toTrunk.state = .idle) :
    p.postToTrunk = ttNext (modToTrunk (fun w => { w with state := .working }) p) := if_pos h

theorem postToTrunk_busy {p : Part} (h : p.toTrunk.state ≠ .idle) :
    p.postToTrunk = modToTrunk (fun w => { w with pending := true }) p := if_neg h

theorem ttAskFields_eq (p : Part) :
    p.ttAskFields = askReads .toTrunk (0x02801 + 32 * p.toTrunk.index.val) 16 p := by
  have haddr : (ImgRecord.toTrunk p.toTrunk.index).base + 1 = 0x02801 + 32 * p.toTrunk.index.val := by
    simp only [ImgRecord.base, Config.toTrunkBase]
    omega
  simp only [ttAskFields, haddr]

theorem readsAsked_eq_false_iff {p : Part} {u : RingUser} :
    p.readsAsked u = false ↔ ∀ r ∈ p.ring, r.user ≠ u := by
  simp [readsAsked]

/-- A mark has been read by a walk that works. -/
theorem cycle_ttMark {p : Part} {a : Nat} {rest : List RingRead} (m : List Host.Cell) (hstate : p.toTrunk.state = .working)
    (h : p.lastRead .toTrunk a [] rest) :
    Part.cycle .ring (p, m) = (ttMark (Mem.read m a) { p with ring := rest }, m) := by
  rw [cycle_lastRead .toTrunk nofun a [] rest p m h]
  simp only [readDone, List.nil_append, ttRead, hstate]

/-- The last of a slot's fields has been read. -/
theorem cycle_ttFields {p : Part} {a : Nat} {got : List Byte} {rest : List RingRead} (m : List Host.Cell)
    (hstate : p.toTrunk.state = .working ∨ p.toTrunk.state = .waiting) (hgot : got.length = 15)
    (h : p.lastRead .toTrunk a got rest) :
    Part.cycle .ring (p, m) = (ttFields (got ++ [Mem.read m a]) { p with ring := rest }, m) := by
  rw [cycle_lastRead .toTrunk nofun a got rest p m h]
  exact congrArg (·, m) (ttRead_fields _ { p with ring := rest } hstate (by simp [hgot]))

theorem ttMark_again {p : Part} {v : Byte} (hv : v ≠ 1) (h : p.toTrunk.pending = true) :
    ttMark v p = ttNext (modToTrunk (fun w => { w with pending := false }) p) := by
  simp only [ttMark, hv, h, if_false, if_true]

theorem ttFields_fails {p : Part} {fields : List Byte} {r : WalkResult} (h : p.ttCheck (1 :: fields) = .error r) :
    ttFields fields p = ttNext (ttFail (1 :: fields) r p) := by
  simp only [ttFields, h]

theorem ttFields_passes {p : Part} {fields : List Byte} {t : Branch × StationNo} (h : p.ttCheck (1 :: fields) = .ok t) :
    ttFields fields p = ttWant t (1 :: fields) p := by
  simp only [ttFields, h]

/-- R70, R71: the queue has room and a buffer is free. -/
theorem ttWant_now {p : Part} {t : Branch × StationNo} (l : List Byte) (hroom : (p.engine t.1).queue.length < 32)
    (hfree : p.pool.free ≠ []) : ttWant t l p =
      modToTrunk (fun w => { w with state := .working, asking := true, retryDue := false, slot := l }) p := by
  have hroom' : p.txRoom t.1 = true := decide_eq_true hroom
  simp only [ttWant, hroom', hfree, ne_eq, not_false_eq_true, decide_true, Bool.and_true, if_true]

theorem ttWant_waits {p : Part} {t : Branch × StationNo} (l : List Byte)
    (h : 32 ≤ (p.engine t.1).queue.length ∨ p.pool.free = []) : ttWant t l p =
      modToTrunk (fun w => { w with state := .waiting, asking := false, slot := l }) p := by
  refine if_neg fun hboth => ?_
  obtain ⟨hroom, hfree⟩ : (p.engine t.1).queue.length < Config.txCapacity ∧ p.pool.free ≠ [] := by
    simpa [txRoom] using hboth
  exact h.elim (Nat.not_le.mpr hroom) hfree

end Part

/-- Settles O17: each check fails or passes as its lemma states, an address is looked up by R43, and each read and each
retry is an equation of the walk. -/
theorem toTrunkWalkTakesTheSlotAtItsIndex : Obligations.ToTrunkWalkTakesTheSlotAtItsIndex := by
  refine ⟨?checks, ?target, ?lookup, ?post, ?retry, ?reads⟩
  case checks =>
    intro p l len addr inArea
    refine ⟨Part.ttCheck_tooLong, Part.ttCheck_badAddress, fun hlen harea htarget => ?_, fun b n hlen harea htarget => ?_⟩
    · exact (Part.ttCheck_target hlen harea).trans (Part.ttResolve_noTarget htarget)
    · rw [Part.ttCheck_target hlen harea, Part.ttResolve_target htarget]
      refine ⟨fun h1 h2 => ?stopped, fun hrunning => ⟨fun h63 => ?broadcast, fun h63 => ?station⟩⟩
      case stopped => rw [Part.ttTargetResult_stopped n h1 h2]
      case broadcast => rw [h63, Part.ttTargetResult_broadcast (Part.running_eq_true hrunning)]
      case station =>
        rw [Part.ttTargetResult_station (Part.running_eq_true hrunning) h63]
        refine ⟨fun hstate => ?_, fun hstate => ?_, fun hstate => ?_, fun hstate => ?_⟩ <;> rw [hstate]
  case target =>
    intro p l
    refine ⟨fun hmode => ⟨fun b n hn hb hs => ?_, fun hbad => ?_⟩, Part.ttTarget_byAddress, Part.ttTarget_none⟩
    · rw [Part.ttTarget_byStation hmode, Part.ttByStation_eq hn hb hs]
    · rw [Part.ttTarget_byStation hmode, Part.ttByStation_none hbad]
  case lookup =>
    intro p a station
    refine ⟨fun b n h0 h63 ha hu => Part.reverseLookup_assigned h0 h63 ha hu,
      fun hnone => ⟨fun b n ⟨h0, h63, hassigned, haddr⟩ => ?_, fun hst => ?_⟩⟩
    · exact Part.reverseLookup_derived h0 h63 hassigned ((Part.derivedAddr_eq_iff p b n a).mpr haddr) hnone
    · exact Part.reverseLookup_none hnone fun b n h0 h63 hassigned haddr =>
        hst b n ⟨h0, h63, hassigned, (Part.derivedAddr_eq_iff p b n a).mp haddr⟩
  case post =>
    refine fun s v h => ⟨fun hbusy => ?_, fun hidle => ?_⟩
    · exact (onPart_command 0x03 _ h).trans (by rw [Part.postToTrunk_busy hbusy]; rfl)
    · exact (onPart_command 0x03 _ h).trans (by rw [Part.postToTrunk_idle hidle]; rfl)
  case retry =>
    intro s hheld due
    refine ⟨fun hnot => ?_, fun ⟨hw, hd, hr⟩ => ?_⟩
    · refine (onPart_awake _ hheld).trans ?_
      rw [Part.toTrunkRetry, if_neg fun ⟨hw, hd, hr⟩ => hnot ⟨hw, hd, Part.readsAsked_eq_false_iff.mp hr⟩]
      rfl
    · refine (onPart_awake _ hheld).trans ?_
      rw [Part.toTrunkRetry, if_pos ⟨hw, hd, Part.readsAsked_eq_false_iff.mpr hr⟩, Part.ttAskFields_eq]
      rfl
  case reads =>
    intro p m rest w base mark
    refine ⟨fun hstate hread => ?marks, fun got hstate hgot hread => ?fields⟩
    case marks =>
      rw [Part.cycle_ttMark m hstate hread]
      refine ⟨fun hmark => ?_, fun hmark hpending => ?_, fun hmark hpending => ?_⟩
      · rw [hmark, Part.ttMark_posted]
        rfl
      · rw [Part.ttMark_again (p := { p with ring := rest }) hmark hpending]
        rfl
      · rw [Part.ttMark_stops _ { p with ring := rest } hmark hpending]
        rfl
    case fields =>
      intro l
      rw [Part.cycle_ttFields m hstate hgot hread]
      refine ⟨fun t ht => ?_, fun r hr => ?_⟩
      · rw [Part.ttFields_passes (p := { p with ring := rest }) ht]
        exact ⟨fun hroom hfree => by rw [Part.ttWant_now (p := { p with ring := rest }) _ hroom hfree]; rfl,
          fun hnot => by rw [Part.ttWant_waits (p := { p with ring := rest }) _ hnot]; rfl⟩
      · rw [Part.ttFields_fails (p := { p with ring := rest }) hr]
        rfl

end Sys2Proof.Machine
end

section
/-! PROOF. The end of a to-trunk copy: the target fields read again, the frame appended, or its buffer freed (O19). -/

namespace Sys2Proof.Machine

namespace Part

/-! ## An entry joins a transmit queue (R22, R41) -/

theorem updStation_of_ne {b : Branch} {n : StationNo} {f : Station → Station} {p : Part}
    (h : f (p.station b n) ≠ p.station b n) : updStation b n f p = writeStationHigh b n (modStation b n f p) := if_neg h

/-- An entry for the broadcast is reported to no station. -/
theorem appendEntry_broadcast {b : Branch} {e : TxEntry} (p : Part) (h : e.target = 63) :
    appendEntry b e p = modEngine b (fun g => { g with queue := g.queue ++ [e] }) p := if_pos h

/-- An entry for a station raises its queued count, and its image is written. -/
theorem appendEntry_station {b : Branch} {e : TxEntry} (p : Part) (h : e.target ≠ 63) :
    appendEntry b e p = writeStationHigh b e.target (modStation b e.target (fun st => { st with queued := st.queued + 1 })
      (modEngine b (fun g => { g with queue := g.queue ++ [e] }) p)) := by
  refine (if_neg h).trans (updStation_of_ne fun hsame => ?_)
  exact absurd (congrArg Station.queued hsame) (Nat.succ_ne_self _)

/-! ## What the walk asks for -/

@[simp] theorem ttNext_ring (p : Part) : (ttNext p).ring = p.ring ++
    [{ user := .toTrunk, addr := 0x02800 + 32 * p.toTrunk.index.val, left := 1, got := [] }] := rfl

@[simp] theorem writeWhole_writer (r : ImgRecord) (content : List Byte) (notices : BitVec 16) (p : Part) :
    (writeWhole r content notices p).writer =
      { p.writer with queue := enqueueWrite (slotWrite r content notices) p.writer.queue } := rfl

@[simp] theorem doneSlot_writer (i : Fin 32) (l : List Byte) (r : Nat) (p : Part) : (doneSlot i l r p).writer =
    { p.writer with queue := enqueueWrite (slotWrite (.toTrunk i)
        (toTrunkSlotBytes l 3 (byteAt l 2) (byteAt l 3) r) 0x0400) p.writer.queue } := rfl

/-! ## The last byte of a copy, and its end (R72, R74) -/

theorem copyWritten_last {d : Copy} (p : Part) (h : d.walk = .toTrunk ∧ d.head = [] ∧ d.left = 0 ∧ d.byte = none) :
    copyWritten d p = ttAskTarget (modCopy (fun e => { e with current := some d }) p) := if_pos h

/-- The last byte of a to-trunk copy is written: of the header, where the frame has no data, or of the data. -/
theorem copyCycle_last {p : Part} {c : Copy} (m : List Host.Cell) (hcopy : p.copy.current = some c)
    (hstopped : p.copy.stopped = none) (hwalk : c.walk = .toTrunk) (hleft : c.left = 0)
    (h : (∃ v, c.head = [] ∧ c.byte = some v) ∨ (∃ v, c.head = [v] ∧ c.byte = none)) :
    ∃ d, (copyCycle (p, m)).1 = ttAskTarget (modCopy (fun e => { e with current := some d }) p) := by
  rcases h with ⟨v, hhead, hbyte⟩ | ⟨v, hhead, hbyte⟩
  · refine ⟨{ c with head := [], byte := none, off := c.off + 1 }, ?_⟩
    simp only [copyCycle, hstopped, hcopy, hhead, hbyte]
    exact copyWritten_last _ ⟨hwalk, rfl, hleft, rfl⟩
  · refine ⟨{ c with head := [], off := c.off + 1 }, ?_⟩
    simp only [copyCycle, hstopped, hcopy, hhead]
    exact copyWritten_last _ ⟨hwalk, rfl, hleft, hbyte⟩

/-- A walk that copies takes the bytes it has read as the target fields of its slot. -/
theorem cycle_retarget {p : Part} {a : Nat} {got : List Byte} {rest : List RingRead} (m : List Host.Cell)
    (hstate : p.toTrunk.state = .copying) (h : p.lastRead .toTrunk a got rest) : Part.cycle .ring (p, m) =
      (modToTrunk (fun w => { w with slot := retarget w.slot (got ++ [Mem.read m a]) }) { p with ring := rest }, m) := by
  rw [cycle_lastRead .toTrunk nofun a got rest p m h]
  simp only [readDone, ttRead, hstate]

/-- The copy of a walk has every byte in place. -/
def copyEnded (p : Part) (c : Copy) : Prop := p.copy.current = some c ∧ c.head = [] ∧ c.left = 0 ∧ c.byte = none

theorem copyDone_of_ended {p : Part} {c : Copy} (h : p.copyEnded c) : p.copyDone c.walk = some c := by
  obtain ⟨hcopy, hhead, hleft, hbyte⟩ := h
  simp only [copyDone, hcopy, hhead, hleft, hbyte, and_self, if_true]

theorem copyDone_of_not_ended {p : Part} {c : Copy} {w : Walk} (hcopy : p.copy.current = some c)
    (h : ¬ (c.head = [] ∧ c.left = 0 ∧ c.byte = none)) : p.copyDone w = none := by
  simp only [copyDone, hcopy]
  exact if_neg fun ⟨_, hend⟩ => h hend

/-- Before the copy ends, or while the walk still reads its target, the command has no effect (log 1). -/
theorem toTrunkCopied_going {p : Part} {c : Copy} (hcopy : p.copy.current = some c)
    (h : ¬ (c.head = [] ∧ c.left = 0 ∧ c.byte = none ∧ ∀ r ∈ p.ring, r.user ≠ .toTrunk)) : p.toTrunkCopied = p := by
  by_cases hend : c.head = [] ∧ c.left = 0 ∧ c.byte = none
  · have hasked : p.readsAsked .toTrunk = true := by
      rw [← Bool.not_eq_false, readsAsked_eq_false_iff]
      exact fun hring => h ⟨hend.1, hend.2.1, hend.2.2, hring⟩
    unfold toTrunkCopied
    split
    · rfl
    · exact if_pos hasked
  · simp only [toTrunkCopied, copyDone_of_not_ended hcopy hend]

section

variable {p : Part} {c : Copy}

theorem toTrunkCopied_fails {r : WalkResult} (hwalk : c.walk = .toTrunk) (hend : p.copyEnded c)
    (hring : p.readsAsked .toTrunk = false) (h : p.ttResolve p.toTrunk.slot = .error r) :
    p.toTrunkCopied = ttNext (ttFail p.toTrunk.slot r (freeBuffer c.buf (endCopy .toTrunk p))) := by
  have hdone : p.copyDone .toTrunk = some c := hwalk ▸ copyDone_of_ended hend
  have hresolve : (endCopy .toTrunk p).ttResolve (endCopy .toTrunk p).toTrunk.slot = .error r := h
  simp only [toTrunkCopied, hdone, hring, Bool.false_eq_true, if_false, hresolve]
  rfl

theorem toTrunkCopied_takes {t : Branch × StationNo} (hwalk : c.walk = .toTrunk) (hend : p.copyEnded c)
    (hring : p.readsAsked .toTrunk = false) (h : p.ttResolve p.toTrunk.slot = .ok t)
    (hroom : (p.engine t.1).queue.length < 32) : p.toTrunkCopied = ttNext (ttTake t c.buf (endCopy .toTrunk p)) := by
  have hdone : p.copyDone .toTrunk = some c := hwalk ▸ copyDone_of_ended hend
  have hresolve : (endCopy .toTrunk p).ttResolve (endCopy .toTrunk p).toTrunk.slot = .ok t := h
  have hroom' : (endCopy .toTrunk p).txRoom t.1 = true := decide_eq_true hroom
  simp only [toTrunkCopied, hdone, hring, Bool.false_eq_true, if_false, hresolve, hroom', if_true]

theorem toTrunkCopied_waits {t : Branch × StationNo} (hwalk : c.walk = .toTrunk) (hend : p.copyEnded c)
    (hring : p.readsAsked .toTrunk = false) (h : p.ttResolve p.toTrunk.slot = .ok t)
    (hfull : 32 ≤ (p.engine t.1).queue.length) : p.toTrunkCopied =
      modToTrunk (fun w => { w with state := .waiting, retryDue := false }) (freeBuffer c.buf (endCopy .toTrunk p)) := by
  have hdone : p.copyDone .toTrunk = some c := hwalk ▸ copyDone_of_ended hend
  have hresolve : (endCopy .toTrunk p).ttResolve (endCopy .toTrunk p).toTrunk.slot = .ok t := h
  have hroom : (endCopy .toTrunk p).txRoom t.1 = false := decide_eq_false (Nat.not_lt.mpr hfull)
  simp only [toTrunkCopied, hdone, hring, Bool.false_eq_true, if_false, hresolve, hroom]

end

/-- The entry that the frame of the slot copied joins its queue as (R22, R72, R193). -/
def takenEntry (p : Part) (t : Branch × StationNo) (buf : BufNo) : TxEntry :=
  let l := toTrunkSlotBytes p.toTrunk.slot 2 (BitVec.ofNat 8 t.1.val) (BitVec.ofNat 8 t.2.val) 0
  { target := t.2, buf := buf, origin := .slot p.toTrunk.index l, hold := 0
    first := flagFirst (byteAt l 11), last := flagLast (byteAt l 11) }

theorem ttTake_eq (t : Branch × StationNo) (buf : BufNo) (p : Part) : ttTake t buf p =
    modToTrunk (fun w => { w with state := .working, index := p.toTrunk.index + 1, slot := [] })
      (writeWhole (.toTrunk p.toTrunk.index)
        (toTrunkSlotBytes p.toTrunk.slot 2 (BitVec.ofNat 8 t.1.val) (BitVec.ofNat 8 t.2.val) 0) 0
        (appendEntry t.1 (p.takenEntry t buf) p)) := rfl

/-- The part after the end of a copy whose frame has joined a queue, but for the station that is told of it. -/
def taken (p : Part) (t : Branch × StationNo) (buf : BufNo) (stations : Vector Station 256) (writes : List ImgWrite) : Part :=
  { p with
    copy := { p.copy with current := none, last := some .toTrunk }
    engines := put p.engines t.1 { p.engine t.1 with queue := (p.engine t.1).queue ++ [p.takenEntry t buf] }
    stations := stations
    writer := { p.writer with queue := enqueueWrite (slotWrite (.toTrunk p.toTrunk.index)
      (toTrunkSlotBytes p.toTrunk.slot 2 (BitVec.ofNat 8 t.1.val) (BitVec.ofNat 8 t.2.val) 0) 0) writes }
    ring := p.ring ++ [{ user := .toTrunk, addr := 0x02800 + 32 * (p.toTrunk.index + 1).val, left := 1, got := [] }]
    toTrunk := { p.toTrunk with state := .working, index := p.toTrunk.index + 1, slot := [] } }

theorem ttTake_broadcast (b : Branch) (buf : BufNo) (p : Part) : ttNext (ttTake (b, 63) buf (endCopy .toTrunk p)) =
    p.taken (b, 63) buf p.stations p.writer.queue := by
  rw [ttTake_eq, appendEntry_broadcast _ rfl]
  simp only [taken, takenEntry, ttNext, askReads, modRing, modToTrunk, writeWhole, requestWrite, modWriter, modEngine,
    endCopy, modCopy, engine_def, slotWrite]
  rfl

theorem ttTake_station (b : Branch) {n : StationNo} (buf : BufNo) (p : Part) (h : n ≠ 63) :
    ttNext (ttTake (b, n) buf (endCopy .toTrunk p)) = p.taken (b, n) buf
      (put p.stations (stationIx b n) { p.station b n with queued := (p.station b n).queued + 1 })
      (enqueueWrite { recordWrite (.station b n) 0 with high := true } p.writer.queue) := by
  rw [ttTake_eq, appendEntry_station _ h]
  simp only [taken, takenEntry, ttNext, askReads, modRing, modToTrunk, writeWhole, requestWrite, modWriter, writeStationHigh,
    modStation, modEngine, endCopy, modCopy, engine_def, station_def, slotWrite, recordWrite]
  rfl

/-- A whole write of a slot keeps its flags (R193). -/
theorem flags_of_toTrunkSlotBytes (l : List Byte) (mark : Nat) (b n : Byte) (r : Nat) :
    flagFirst (byteAt (toTrunkSlotBytes l mark b n r) 11) = flagFirst (byteAt l 11)
      ∧ flagLast (byteAt (toTrunkSlotBytes l mark b n r) 11) = flagLast (byteAt l 11) := by
  have hbyte : byteAt (toTrunkSlotBytes l mark b n r) 11 = byteAt l 11 &&& 0x06 := by
    simp only [toTrunkSlotBytes, List.append_assoc]
    exact byteAt_toList_append_right (addrAt l 4) _ 1
  simp [hbyte, flagFirst, flagLast, bitAt]

end Part

/-- Settles O19: the reads of the target by the cycles that make them, and the end of the copy by whether its check
passes and its queue has room. -/
theorem toTrunkCopyEndAppendsTheFrame : Obligations.ToTrunkCopyEndAppendsTheFrame := by
  refine ⟨?reads, ?ends⟩
  case reads =>
    intro p m c rest got base
    refine ⟨fun hcopy hstopped hwalk hleft hlast => ?_, fun hstate hgot hread => ?_⟩
    · obtain ⟨d, hd⟩ := Part.copyCycle_last m hcopy hstopped hwalk hleft hlast
      rw [show (Part.cycle .copy (p, m)).1 = (Part.copyCycle (p, m)).1 from rfl, hd]
      exact ⟨rfl, rfl⟩
    · exact Part.cycle_retarget m hstate hread
  case ends =>
    intro s c hheld hcopy hwalk x l ended ring
    refine ⟨fun hnot => ?going, fun b n ⟨hhead, hleft, hbyte, hring⟩ hok => ⟨fun hroom => ?takes, fun hfull => ?waits⟩,
      fun r ⟨hhead, hleft, hbyte, hring⟩ herror => ?fails⟩
    case going => exact (onPart_awake _ hheld).trans (by rw [Part.toTrunkCopied_going hcopy hnot]; rfl)
    case takes =>
      have htakes := Part.toTrunkCopied_takes hwalk ⟨hcopy, hhead, hleft, hbyte⟩ (Part.readsAsked_eq_false_iff.mpr hring)
        hok hroom
      obtain ⟨hfirst, hlast⟩ := Part.flags_of_toTrunkSlotBytes l 2 (BitVec.ofNat 8 b.val) (BitVec.ofNat 8 n.val) 0
      have hothers : ∀ d : Branch, d ≠ b → ∀ e, (put s.part.engines b e).get d = s.part.engine d :=
        fun d hd e => get_put_ne _ _ _ _ hd
      by_cases hn : n = 63
      · subst hn
        rw [Part.ttTake_broadcast] at htakes
        refine ⟨_, onPart_awake_eq hheld htakes, rfl,
          ⟨Part.takenEntry s.part (b, 63) c.buf, get_put_self .., rfl, rfl, rfl, hfirst, hlast, rfl⟩,
          fun d hd => hothers d hd _, fun hne => absurd rfl hne, fun _ => rfl, fun d y _ => rfl, rfl, ?_⟩
        rw [if_pos rfl]
        rfl
      · rw [Part.ttTake_station b c.buf s.part hn] at htakes
        refine ⟨_, onPart_awake_eq hheld htakes, rfl,
          ⟨Part.takenEntry s.part (b, n) c.buf, get_put_self .., rfl, rfl, rfl, hfirst, hlast, rfl⟩,
          fun d hd => hothers d hd _, fun _ => get_put_self .., fun heq => absurd heq hn,
          fun d y hne => get_put_ne _ _ _ _ fun hix => hne ?_, rfl, ?_⟩
        · obtain ⟨hb, hy⟩ := Part.stationIx_inj _ _ _ _ hix
          exact Prod.ext hb hy
        · rw [if_neg hn]
          rfl
    case waits =>
      refine ⟨_, onPart_awake _ hheld, ?_⟩
      rw [Part.toTrunkCopied_waits hwalk ⟨hcopy, hhead, hleft, hbyte⟩ (Part.readsAsked_eq_false_iff.mpr hring) hok hfull]
      simp [State.withPart, Part.endCopy, x]
    case fails =>
      refine ⟨_, onPart_awake _ hheld, ?_⟩
      rw [Part.toTrunkCopied_fails hwalk ⟨hcopy, hhead, hleft, hbyte⟩ (Part.readsAsked_eq_false_iff.mpr hring) herror]
      simp [State.withPart, Part.ttFail, Part.endCopy, x, l, ring]

end Sys2Proof.Machine
end

section
/-! PROOF. The job manager's operations on one job, and the copy engine that serves the walks (O18). -/

namespace Sys2Proof.Machine

namespace Part

/-! ## A job aborted (R93) -/

section

variable {p : Part} {j : JobNo}

theorem abortJob_live (r : JobResult) (h : (p.job j).state.live = true) : abortJob j r p =
    reportLeft (p.job j).origin (updJob j
      (fun x => { x with state := .aborted, result := some r, chain := [], hold := none, abortPending := false })
      Notice.jobDone.bit (freeBuffers ((p.job j).chain.map fun e => e.buf)
        (if (p.job j).state = .waiting then leaveQueue j (p.job j).printer p else p))) := if_pos h

theorem abortJob_job_self (r : JobResult) (h : (p.job j).state.live = true) : (abortJob j r p).job j =
    { p.job j with state := .aborted, result := some r, chain := [], hold := none, abortPending := false } := by
  simp [job_def, abortJob_jobs j r p h]

theorem abortJob_job_ne {i : JobNo} (r : JobResult) (h : i ≠ j) : (abortJob j r p).job i = p.job i := by
  by_cases hl : (p.job j).state.live = true
  · simp [job_def, abortJob_jobs j r p hl, get_put_ne _ _ _ _ h]
  · simp only [abortJob, hl, Bool.false_eq_true, if_false]

/-- The chain of an aborted job is freed in order. -/
theorem abortJob_pool (r : JobResult) (h : (p.job j).state.live = true) : (abortJob j r p).pool =
    { p.pool with free := p.pool.free ++ (p.job j).chain.map fun e => e.buf } := by
  rw [abortJob_live r h]
  split <;> simp

theorem reportLeft_untold {o : JobOrigin} (q : Part) (h : ∀ d n, o ≠ .trunk d n) : reportLeft o q = q := by
  cases o with
  | trunk d n => exact absurd rfl (h d n)
  | none => rfl
  | submitted tag => rfl

@[simp] theorem updJob_writer (f : Job → Job) (n : BitVec 16) (q : Part) : (updJob j f n q).writer =
    { q.writer with queue := enqueueWrite (recordWrite (.job j) n) q.writer.queue } := rfl

/-- The abort of a job that no station sent asks for its image alone. -/
theorem abortJob_writer (r : JobResult) (h : (p.job j).state.live = true)
    (ho : ∀ d n, (p.job j).origin ≠ .trunk d n) : (abortJob j r p).writer =
      { p.writer with queue := enqueueWrite (recordWrite (.job j) 0x0100) p.writer.queue } := by
  rw [abortJob_live r h, reportLeft_untold _ ho]
  split <;> simp <;> rfl

end

/-! ## A slot of the submission ring ends (R91) -/

@[simp] theorem subNext_ring (p : Part) : (subNext p).ring = p.ring ++
    [{ user := .submit, addr := 0x02C00 + 16 * p.submit.index.val, left := 1, got := [] }] := rfl

/-- The write that ends a slot: DONE with its result and, for a FIRST slot, the number of its job (R87, R91). -/
def endedSlot (w : SubmitWalk) (r : SubmitResult) : ImgWrite :=
  slotWrite (.submit w.index) (submitSlotBytes w.slot 3 (subJobByte w) r.code) 0x0800

@[simp] theorem subDone_submit (r : SubmitResult) (p : Part) : (subDone r p).submit =
    { p.submit with state := .working, index := p.submit.index + 1, asking := false, retryDue := false, slot := []
                    job := none, pos := 0 } := rfl

@[simp] theorem subDone_writer (r : SubmitResult) (p : Part) : (subDone r p).writer =
    { p.writer with queue := enqueueWrite (endedSlot p.submit r) p.writer.queue } := rfl

@[simp] theorem subDone_keeps (r : SubmitResult) (p : Part) :
    (subDone r p).held = p.held ∧ (subDone r p).setup = p.setup ∧ (subDone r p).loader = p.loader ∧
    (subDone r p).notices = p.notices ∧ (subDone r p).pool = p.pool ∧ (subDone r p).stations = p.stations ∧
    (subDone r p).engines = p.engines ∧ (subDone r p).paths = p.paths ∧ (subDone r p).router = p.router ∧
    (subDone r p).toTrunk = p.toTrunk ∧ (subDone r p).copy = p.copy ∧ (subDone r p).jobs = p.jobs ∧
    (subDone r p).queues = p.queues ∧ (subDone r p).stamp = p.stamp ∧ (subDone r p).ports = p.ports ∧
    (subDone r p).ring = p.ring := by
  refine ⟨rfl, rfl, rfl, rfl, rfl, rfl, rfl, rfl, rfl, rfl, rfl, rfl, rfl, rfl, rfl, rfl⟩

@[simp] theorem subDone_views (r : SubmitResult) (p : Part) :
    (∀ y, (subDone r p).job y = p.job y) ∧ (∀ y, (subDone r p).queue y = p.queue y) ∧
    (∀ y, (subDone r p).port y = p.port y) := by
  simp [job, queue, port]

/-- The write that ends a slot, while the walk has a job. -/
theorem endedSlot_job {w : SubmitWalk} {j : JobNo} (r : SubmitResult) (h : w.job = some j) : endedSlot w r =
    slotWrite (.submit w.index)
      (submitSlotBytes w.slot 3 (if subFirst w.slot then BitVec.ofNat 8 j.val else byteAt w.slot 3) r.code) 0x0800 := by
  simp only [endedSlot, subJobByte, h]

/-! ## A buffer taken for a copy (R52, R54) -/

theorem takeHead_eq {p : Part} {buf : BufNo} {rest : List BufNo} (h : p.pool.free = buf :: rest) : p.takeHead =
    { p with
      pool := { p.pool with free := rest }
      notices := { p.notices with latches :=
        if rest.length + 1 = p.setup.reserve then p.notices.latches ||| 0x1000 else p.notices.latches } } := by
  have hcount : p.freeCount = rest.length + 1 := by simp [freeCount, h]
  have hfalls : (p.setup.reserve ≤ rest.length + 1 ∧ rest.length + 1 - 1 < p.setup.reserve) ↔
      rest.length + 1 = p.setup.reserve := by omega
  simp only [takeHead, hcount, hfalls, modPool, h, List.tail_cons]
  split <;> rfl

theorem allocate_cons {p : Part} {buf : BufNo} {rest : List BufNo} (h : p.pool.free = buf :: rest) :
    p.allocate = some (buf, p.takeHead) := by
  simp only [allocate, h]

theorem allocate_nil {p : Part} (h : p.pool.free = []) : p.allocate = none := by simp only [allocate, h]

/-! ## The walk served (R75) -/

section

variable {p : Part}

theorem copyServe_busy (h : p.copy.current.isSome = true) : p.copyServe = p := if_pos h

theorem copyServe_idle (h : p.copy.current = none) : p.copyServe = match p.copyChoice with
    | some .toTrunk => serveToTrunk p
    | some .submit => serveSubmit p
    | none => p := by
  simp only [copyServe, h] <;> rfl

theorem copyChoice_none (ht : ¬ p.toTrunk.asking = true) (hs : ¬ p.submit.asking = true) : p.copyChoice = none := by
  simp only [copyChoice, Bool.eq_false_iff.mpr ht, Bool.eq_false_iff.mpr hs]

/-- The to-trunk walk is served unless the copy just ended was its own. -/
theorem copyChoice_toTrunk (ht : p.toTrunk.asking = true)
    (h : ¬ p.submit.asking = true ∨ p.copy.last ≠ some .toTrunk) : p.copyChoice = some .toTrunk := by
  cases hs : p.submit.asking with
  | false => simp only [copyChoice, ht, hs]
  | true =>
    have hlast : p.copy.last ≠ some .toTrunk := h.resolve_left fun hn => hn hs
    simp only [copyChoice, ht, hs, hlast, if_false]

theorem copyChoice_submit (hs : p.submit.asking = true)
    (h : ¬ p.toTrunk.asking = true ∨ p.copy.last = some .toTrunk) : p.copyChoice = some .submit := by
  cases ht : p.toTrunk.asking with
  | false => simp only [copyChoice, ht, hs]
  | true =>
    have hlast : p.copy.last = some .toTrunk := h.resolve_left fun hn => hn ht
    simp only [copyChoice, ht, hs, hlast, if_true]

/-- The copy of a to-trunk slot, which begins with the three bytes that a frame has before its data (R71). -/
def toTrunkCopy (p : Part) (buf : BufNo) : Copy :=
  let l := p.toTrunk.slot
  { walk := .toTrunk, buf := buf
    head := [byteAt l 10, ctlByte false (flagFirst (byteAt l 11)) (flagLast (byteAt l 11)), byteAt l 12]
    src := ttData l, left := ttLength l, off := 0, byte := none, total := 3 + ttLength l }

theorem serveToTrunk_granted {buf : BufNo} {rest : List BufNo} (h : p.pool.free = buf :: rest) : p.serveToTrunk =
    { p with
      pool := { p.pool with free := rest }
      notices := { p.notices with latches :=
        if rest.length + 1 = p.setup.reserve then p.notices.latches ||| 0x1000 else p.notices.latches }
      toTrunk := { p.toTrunk with state := .copying, asking := false }
      copy := { p.copy with current := some (p.toTrunkCopy buf) } } := by
  simp only [serveToTrunk, allocate_cons h, takeHead_eq h]
  rfl

theorem serveToTrunk_waits (h : p.pool.free = []) : p.serveToTrunk =
    { p with toTrunk := { p.toTrunk with state := .waiting, asking := false, retryDue := false } } := by
  simp only [serveToTrunk, allocate_nil h]
  rfl

/-- The copy of the next part of a submission's data (R90). -/
def submitCopy (p : Part) (buf : BufNo) : Copy :=
  let n := min 256 (subLength p.submit.slot - p.submit.pos)
  { walk := .submit, buf := buf, head := [], src := subData p.submit.slot + p.submit.pos, left := n, off := 0
    byte := none, total := n }

theorem subAllocate_granted {buf : BufNo} {rest : List BufNo} (h : p.pool.free = buf :: rest)
    (hreserve : p.setup.reserve < rest.length + 1) : p.subAllocate =
    { p with
      pool := { p.pool with free := rest }
      submit := { p.submit with state := .copying, asking := false }
      copy := { p.copy with current := some (p.submitCopy buf) } } := by
  have hcount : p.freeCount = rest.length + 1 := by simp [freeCount, h]
  have hlow : ¬ rest.length + 1 = p.setup.reserve := by omega
  simp only [subAllocate, hcount, hreserve, if_true, allocate_cons h, takeHead_eq h, hlow, if_false]
  rfl

theorem subAllocate_waits (h : p.pool.free.length ≤ p.setup.reserve) : p.subAllocate =
    { p with submit := { p.submit with state := .waiting, wait := .buffer, asking := false, retryDue := false } } :=
  if_neg (Nat.not_lt.mpr h)

end

end Part

theorem live_of_assembling {x : JobState} (h : x = .assembling) : x.live = true := by rw [h]; rfl

/-- Settles O18: the choice of the walk, and then the equations of a buffer granted, refused and withheld. -/
theorem copyEngineServesTheWalksInTurn : Obligations.CopyEngineServesTheWalksInTurn := by
  intro s hheld toTrunk submit w served
  refine ⟨?none, ?toTrunk, ?full, ?room⟩
  case none =>
    intro h
    refine onPart_awake_eq hheld ?_
    rcases h with hbusy | ⟨ht, hs⟩
    · exact Part.copyServe_busy hbusy
    · cases hcopy : s.part.copy.current with
      | some c => exact Part.copyServe_busy (by rw [hcopy]; rfl)
      | none => rw [Part.copyServe_idle hcopy, Part.copyChoice_none ht hs]
  case toTrunk =>
    intro hcopy ht hs
    have hserve : s.part.copyServe = s.part.serveToTrunk := by
      rw [Part.copyServe_idle hcopy, Part.copyChoice_toTrunk ht hs]
    refine ⟨fun buf rest hfree => ⟨_, onPart_awake_eq hheld (hserve.trans (Part.serveToTrunk_granted hfree)), rfl, rfl,
      s.part.toTrunkCopy buf, rfl, rfl, rfl, rfl, rfl, rfl, rfl, rfl⟩, fun hfree => ?_⟩
    exact onPart_awake_eq hheld (hserve.trans (Part.serveToTrunk_waits hfree))
  case full =>
    rintro ⟨hcopy, hs, ht⟩ j hjob hstate hfull
    have hserve : s.part.copyServe = Part.subNext (Part.subDone .tooLarge (Part.abortJob j .tooLarge s.part)) := by
      rw [Part.copyServe_idle hcopy, Part.copyChoice_submit hs ht]
      exact Part.serveSubmit_full _ j hjob hfull
    have hlive := live_of_assembling hstate
    refine ⟨_, onPart_awake_eq hheld hserve, ?_⟩
    have hended := Part.endedSlot_job (w := (Part.abortJob j .tooLarge s.part).submit) .tooLarge (by simpa using hjob)
    simp [State.withPart, Part.abortJob_job_self _ hlive, Part.abortJob_pool _ hlive, hended, w]
    intro ho
    simp [Part.abortJob_writer _ hlive ho]
    rfl
  case room =>
    rintro ⟨hcopy, hs, ht⟩ hroom
    have hserve : s.part.copyServe = s.part.subAllocate := by
      rw [Part.copyServe_idle hcopy, Part.copyChoice_submit hs ht]
      exact Part.serveSubmit_room _ hroom
    exact ⟨fun buf rest hfree hreserve => ⟨_, onPart_awake_eq hheld (hserve.trans
        (Part.subAllocate_granted hfree hreserve)), rfl, s.part.submitCopy buf, rfl, rfl, rfl, rfl, rfl, rfl, rfl, rfl, rfl⟩,
      fun hfew => onPart_awake_eq hheld (hserve.trans (Part.subAllocate_waits hfew))⟩

end Sys2Proof.Machine
end

section
/-! PROOF. The submission walk: the checks of a slot and its reads (O20), and how the walk goes on (O21). -/

namespace Sys2Proof.Machine

namespace Part

/-! ## The reads of the walk (R88) -/

section

variable {p : Part}

theorem postSubmit_idle (h : p.submit.state = .idle) :
    p.postSubmit = subNext (modSubmit (fun w => { w with state := .working }) p) := if_pos h

theorem postSubmit_busy (h : p.submit.state ≠ .idle) :
    p.postSubmit = modSubmit (fun w => { w with pending := true }) p := if_neg h

theorem cycle_subMark {a : Nat} {rest : List RingRead} (m : List Host.Cell) (hstate : p.submit.state = .working)
    (h : p.lastRead .submit a [] rest) :
    Part.cycle .ring (p, m) = (subMark (Mem.read m a) { p with ring := rest }, m) := by
  rw [cycle_lastRead .submit nofun a [] rest p m h]
  simp only [readDone, List.nil_append, subRead, hstate, if_true]

theorem cycle_subFields {a : Nat} {got : List Byte} {rest : List RingRead} (m : List Host.Cell)
    (hstate : p.submit.state = .working) (hgot : got.length = 9) (h : p.lastRead .submit a got rest) :
    Part.cycle .ring (p, m) = (subGoOn (subTake (1 :: (got ++ [Mem.read m a])) { p with ring := rest }), m) := by
  rw [cycle_lastRead .submit nofun a got rest p m h]
  exact congrArg (·, m) (subRead_fields _ { p with ring := rest } hstate (by simp [hgot]))

theorem subMark_posted : subMark 1 p = askReads .submit ((ImgRecord.submit p.submit.index).base + 1) 10 p := if_pos rfl

theorem subMark_again {v : Byte} (hv : v ≠ 1) (h : p.submit.pending = true) :
    subMark v p = subNext (modSubmit (fun w => { w with pending := false }) p) := by
  simp only [subMark, hv, h, if_false, if_true]

end

/-! ## The checks of a slot (R89) -/

/-- The walk with a slot taken, before its checks. -/
def slotTaken (l : List Byte) : Part → Part := modSubmit fun w => { w with slot := l, job := none, pos := 0 }

section

variable {p : Part} {l : List Byte}

theorem subTake_tooLong (h : 32768 < subLength l) : subTake l p = (subDone .tooLong (slotTaken l p), true) := if_pos h

theorem subTake_badAddress (hlen : subLength l ≤ 32768)
    (h : ¬ (subLength l = 0 ∨ (0x03000 ≤ subData l ∧ subData l + subLength l ≤ 0x10000))) :
    subTake l p = (subDone .badAddress (slotTaken l p), true) := by
  have harea : inHostArea (subData l) (subLength l) = false := by
    rw [← Bool.not_eq_true, inHostArea_iff]
    exact h
  simp only [subTake, Nat.not_lt.mpr hlen, harea, if_false, Bool.not_false, if_true]
  rfl

/-- A FIRST slot whose data passes goes on to its printer. -/
theorem subTake_first (hlen : subLength l ≤ 32768)
    (h : subLength l = 0 ∨ (0x03000 ≤ subData l ∧ subData l + subLength l ≤ 0x10000)) (hfirst : subFirst l = true) :
    subTake l p = subOpen (slotTaken l p) := by
  have harea : inHostArea (subData l) (subLength l) = true := (inHostArea_iff ..).mpr h
  simp only [subTake, Nat.not_lt.mpr hlen, harea, if_false, Bool.not_true, Bool.false_eq_true, hfirst, if_true]
  rfl

/-- Any other slot whose data passes goes on to the job it names. -/
theorem subTake_next (hlen : subLength l ≤ 32768)
    (h : subLength l = 0 ∨ (0x03000 ≤ subData l ∧ subData l + subLength l ≤ 0x10000)) (hfirst : subFirst l = false) :
    subTake l p = match p.subContinues l with
      | none => (subDone .badJob (slotTaken l p), true)
      | some j => subFill j (modSubmit (fun w => { w with job := some j }) (slotTaken l p)) := by
  have harea : inHostArea (subData l) (subLength l) = true := (inHostArea_iff ..).mpr h
  simp only [subTake, Nat.not_lt.mpr hlen, harea, if_false, Bool.not_true, Bool.false_eq_true, hfirst]
  rfl

theorem subContinues_none (h : subJob l = none ∨ ∃ j, subJob l = some j ∧ ((p.job j).state ≠ .assembling
    ∨ ∀ tag, (p.job j).origin ≠ .submitted tag)) : p.subContinues l = none := by
  rcases h with h | ⟨j, h, hnot⟩
  · simp only [subContinues, h]
  · simp only [subContinues, h]
    split
    · next hstate horigin => exact absurd (hnot.resolve_left (fun hn => hn hstate)) fun hn => hn _ horigin
    · rfl

theorem subContinues_some {j : JobNo} {tag : Nat} (h : subJob l = some j) (hstate : (p.job j).state = .assembling)
    (horigin : (p.job j).origin = .submitted tag) : p.subContinues l = some j := by
  simp only [subContinues, h, hstate, horigin]

/-! ## A job opened, filled and ended (R89 to R91) -/

theorem subOpen_off (h : subPrinter p.submit.slot = none
    ∨ ∃ k, subPrinter p.submit.slot = some k ∧ (p.printerSetup k).enable = false) :
    subOpen p = (subDone .printerOff p, true) := by
  rcases h with h | ⟨k, h, hoff⟩
  · simp only [subOpen, h]
  · simp only [subOpen, h, hoff, Bool.not_false, if_true]

theorem subOpen_waits {k : Port} (hk : subPrinter p.submit.slot = some k) (hon : (p.printerSetup k).enable = true)
    (h : p.freeRecord = none) : subOpen p = (subWait .record p, false) := by
  simp only [subOpen, hk, hon, Bool.not_true, Bool.false_eq_true, if_false, h]

/-- A job opened for the walk, with its number written into the slot (R77, R89). -/
def submissionOpened (j : JobNo) (k : Port) (p : Part) : Part :=
  { (p.asksWrite (recordWrite (.job j) 0)).asksWrite
      (slotWrite (.submit p.submit.index) (submitSlotBytes p.submit.slot 1 (BitVec.ofNat 8 j.val) 0) 0) with
    jobs := put p.jobs j
      { Job.blank with state := .assembling, printer := k, origin := .submitted (subTag p.submit.slot) }
    submit := { p.submit with state := .working, job := some j, retryDue := false } }

theorem subOpen_opens {k : Port} {j : JobNo} (hk : subPrinter p.submit.slot = some k)
    (hon : (p.printerSetup k).enable = true) (h : p.freeRecord = some j) :
    subOpen p = subFill j (submissionOpened j k p) := by
  simp only [subOpen, hk, hon, Bool.not_true, Bool.false_eq_true, if_false, h]
  refine congrArg (subFill j) ?_
  simp only [submissionOpened, openJob, reportOpened, updJob, writeJob, writeWhole, requestWrite, modWriter, modJob,
    modSubmit, asksWrite, slotWrite, recordWrite]

theorem chain_submissionOpened (j : JobNo) (k : Port) (p : Part) : ((submissionOpened j k p).job j).chain = [] := by
  simp [submissionOpened, job, Job.blank]

variable {j : JobNo}

theorem subFill_ends (h : subLength p.submit.slot ≤ p.submit.pos) : subFill j p = subEnd j p := if_pos h

theorem subFill_overruns (h : p.submit.pos < subLength p.submit.slot)
    (hfull : p.setup.jobBufferLimit ≤ (p.job j).chain.length) : subFill j p = (subOverrun j p, true) := by
  simp only [subFill, Nat.not_le.mpr h, if_false, (chainFull_eq_true p j).mpr hfull, if_true]

theorem subFill_asks (h : p.submit.pos < subLength p.submit.slot)
    (hroom : (p.job j).chain.length < p.setup.jobBufferLimit) : subFill j p =
      ({ p with submit := { p.submit with state := .working, asking := true, retryDue := false } }, false) := by
  simp only [subFill, Nat.not_le.mpr h, if_false, (chainFull_eq_false p j).mpr hroom, Bool.false_eq_true]
  rfl

theorem subEnd_continues (h : subLast p.submit.slot = false) : subEnd j p = (subDone .accepted p, true) := by
  simp only [subEnd, h, Bool.not_false, if_true]

theorem subEnd_closes (h : subLast p.submit.slot = true)
    (hroom : (p.queue (p.closeTarget (p.job j).printer)).length < 16) :
    subEnd j p = (subDone .accepted (closeJob j p), true) := by
  have hroom' : p.hasRoom (p.closeTarget (p.job j).printer) = true := decide_eq_true hroom
  simp only [subEnd, h, Bool.not_true, Bool.false_eq_true, if_false, hroom', if_true]

theorem subEnd_waits (h : subLast p.submit.slot = true)
    (hfull : 16 ≤ (p.queue (p.closeTarget (p.job j).printer)).length) : subEnd j p = (subWait .room p, false) := by
  have hroom : p.hasRoom (p.closeTarget (p.job j).printer) = false := decide_eq_false (Nat.not_lt.mpr hfull)
  simp only [subEnd, h, Bool.not_true, Bool.false_eq_true, if_false, hroom]

end

/-- A slot that fails its checks ends with no job of the walk's own (R87, R91). -/
theorem subDone_taken (r : SubmitResult) (l : List Byte) (rest : List RingRead) (p : Part) :
    subNext (subDone r (slotTaken l { p with ring := rest })) =
      { p.asksWrite (slotWrite (.submit p.submit.index)
          (submitSlotBytes l 3 (if subFirst l then 0xFF else byteAt l 3) r.code) 0x0800) with
        submit := { p.submit with state := .working, index := p.submit.index + 1, asking := false, retryDue := false
                                  slot := [], job := none, pos := 0 }
        ring := rest ++
          [{ user := .submit, addr := 0x02C00 + 16 * (p.submit.index + 1).val, left := 1, got := [] }] } := rfl

end Part

/-- Settles O20: each read of the walk is an equation, and each slot is taken by the check that decides it. -/
theorem submissionWalkTakesTheSlotAtItsIndex : Obligations.SubmissionWalkTakesTheSlotAtItsIndex := by
  refine ⟨?post, ?reads⟩
  case post =>
    intro s v h w
    exact ⟨fun hbusy => onPart_command_eq h (Part.postSubmit_busy hbusy),
      fun hidle => onPart_command_eq h (Part.postSubmit_idle hidle)⟩
  case reads =>
    intro p m rest w base mark hstate
    refine ⟨fun hread => ?marks, fun got hgot hread => ?fields⟩
    case marks =>
      rw [Part.cycle_subMark m hstate hread]
      refine ⟨fun hmark => ?_, fun hmark hpending => ?_, fun hmark hpending => ?_⟩
      · rw [hmark, Part.subMark_posted]
        rfl
      · rw [Part.subMark_again (p := { p with ring := rest }) hmark hpending]
        rfl
      · rw [Part.subMark_stops _ { p with ring := rest } hmark hpending]
        rfl
    case fields =>
      intro l inArea endsWith
      have cycle := Part.cycle_subFields m hstate hgot hread
      have ends : ∀ r : SubmitResult, Part.subTake l { p with ring := rest } =
          (Part.subDone r (Part.slotTaken l { p with ring := rest }), true) → endsWith r.code := by
        intro r htake
        exact cycle.trans (congrArg (·, m) ((congrArg Part.subGoOn htake).trans (Part.subDone_taken r l rest p)))
      refine ⟨fun hlen => ends .tooLong (Part.subTake_tooLong hlen),
        fun hlen harea => ends .badAddress (Part.subTake_badAddress hlen harea),
        fun hlen harea hfirst hoff => ends .printerOff ((Part.subTake_first hlen harea hfirst).trans ?off),
        fun hlen harea hfirst hnot => ends .badJob ((Part.subTake_next hlen harea hfirst).trans ?badJob),
        fun j tag hlen harea hfirst hjob hassembling horigin hdata hroom => cycle.trans (congrArg (·, m) ?continues),
        fun k hlen harea hfirst hk hon => ⟨fun hnone => cycle.trans (congrArg (·, m) ?noRecord),
          fun j hj hdata hlimit => cycle.trans (congrArg (·, m) ?opens)⟩⟩
      case off => exact Part.subOpen_off hoff
      case badJob => rw [Part.subContinues_none (p := { p with ring := rest }) hnot]
      case continues =>
        rw [Part.subTake_next hlen harea hfirst, Part.subContinues_some (p := { p with ring := rest }) hjob hassembling horigin]
        exact congrArg Part.subGoOn (Part.subFill_asks (p :=
          Part.modSubmit (fun w => { w with job := some j }) (Part.slotTaken l { p with ring := rest })) hdata hroom)
      case noRecord =>
        rw [Part.subTake_first hlen harea hfirst]
        exact congrArg Part.subGoOn (Part.subOpen_waits (p := Part.slotTaken l { p with ring := rest }) hk hon hnone)
      case opens =>
        rw [Part.subTake_first hlen harea hfirst,
          Part.subOpen_opens (p := Part.slotTaken l { p with ring := rest }) hk hon hj,
          Part.subFill_asks (p := Part.submissionOpened j k (Part.slotTaken l { p with ring := rest })) hdata (by rw [Part.chain_submissionOpened]; exact hlimit)]
        rfl

/-! ## How the walk goes on (R90 to R92) -/

namespace Part

section

variable {p : Part} {k : Port}

/-- A port that decides no grant is done (R112). -/
theorem servePort_none (h : grantOnce k p = none) : servePort k p = idleLoad k p := by
  simp only [servePort, grantLoop, h]

/-- Only an IDLE port grants (R112). -/
theorem grantOnce_notIdle (h : (p.port k).state ≠ .idle) : grantOnce k p = none := by
  simp only [grantOnce, h, false_and, if_false]

theorem servePort_notIdle (h : (p.port k).state ≠ .idle) : servePort k p = idleLoad k p :=
  servePort_none (grantOnce_notIdle h)

/-- A load waits while the queue has a job (R114). -/
theorem idleLoad_queued (h : p.queue k ≠ []) : idleLoad k p = p := if_neg fun ⟨_, _, hq⟩ => h hq

/-- A job that joins the queue of a port that is not IDLE waits in it (R86, R112). -/
theorem joinQueue_notIdle (j : JobNo) (h : (p.port k).state ≠ .idle) :
    joinQueue k j p = modQueue k (fun l => l ++ [j]) p := by
  have hport : ((modQueue k (fun l => l ++ [j]) p).port k).state ≠ .idle := by simpa using h
  exact (servePort_notIdle hport).trans (idleLoad_queued (by simp))

/-- The part after a job has been closed and waits in the queue of its target (R85). -/
def jobClosed (j : JobNo) (p : Part) : Part :=
  let k := p.closeTarget (p.job j).printer
  { p.asksWrite (recordWrite (.job j) 0) with
    jobs := put p.jobs j { p.job j with printer := k, stamp := p.stamp, state := .waiting }
    queues := put p.queues k (p.queue k ++ [j])
    stamp := wrapInc p.stamp }

/-- Closing a job into the queue of a port that is not IDLE (R85). -/
theorem closeJob_notIdle {j : JobNo} (h : (p.port (p.closeTarget (p.job j).printer)).state ≠ .idle) :
    closeJob j p = jobClosed j p := by
  refine (joinQueue_notIdle j ?_).trans (by rfl)
  have hport : (updJob j (fun x => { x with
      printer := p.closeTarget (p.job j).printer, stamp := p.stamp, state := .waiting }) 0 p).port
        (p.closeTarget (p.job j).printer) = p.port (p.closeTarget (p.job j).printer) := by simp
  exact hport ▸ h

end

section

variable {p : Part}

theorem submissionRetry_notDue (h : ¬ (p.submit.state = .waiting ∧ p.submit.retryDue = true)) :
    p.submissionRetry = p := if_neg h

theorem submissionRetry_record (hstate : p.submit.state = .waiting) (hdue : p.submit.retryDue = true)
    (h : p.submit.wait = .record) : p.submissionRetry = subGoOn (subOpen p) := by
  simp only [submissionRetry, hstate, hdue, and_self, if_true, h]

theorem submissionRetry_buffer {j : JobNo} (hstate : p.submit.state = .waiting) (hdue : p.submit.retryDue = true)
    (h : p.submit.wait = .buffer) (hj : p.submit.job = some j) : p.submissionRetry = subGoOn (subFill j p) := by
  simp only [submissionRetry, hstate, hdue, and_self, if_true, h, hj]

theorem submissionRetry_room {j : JobNo} (hstate : p.submit.state = .waiting) (hdue : p.submit.retryDue = true)
    (h : p.submit.wait = .room) (hj : p.submit.job = some j) : p.submissionRetry = subGoOn (subEnd j p) := by
  simp only [submissionRetry, hstate, hdue, and_self, if_true, h, hj]

/-- The part after a copy for the walk has ended and its buffer has joined the chain of its job (R80, R90). -/
def copyAdded (j : JobNo) (c : Copy) (p : Part) : Part :=
  Part.asksWrite { p with
      copy := { p.copy with current := none, last := some .submit }
      jobs := put p.jobs j { p.job j with
        chain := (p.job j).chain ++ [{ buf := c.buf, fill := c.total, shifted := true }]
        queuedBytes := (p.job j).queuedBytes + c.total }
      submit := { p.submit with state := .working, pos := p.submit.pos + c.total } }
    (recordWrite (.job j) 0)

theorem submissionCopied_adds {c : Copy} {j : JobNo} (hwalk : c.walk = .submit) (hend : p.copyEnded c)
    (hj : p.submit.job = some j) (h : (p.job j).chain.length < p.setup.jobBufferLimit) :
    p.submissionCopied = subGoOn (subFill j (copyAdded j c p)) :=
  (submissionCopied_room p c j (hwalk ▸ copyDone_of_ended hend) hj h).trans (by rfl)

theorem job_copyAdded (j : JobNo) (c : Copy) (p : Part) : (copyAdded j c p).job j = { p.job j with
    chain := (p.job j).chain ++ [{ buf := c.buf, fill := c.total, shifted := true }]
    queuedBytes := (p.job j).queuedBytes + c.total } := by
  simp [copyAdded, asksWrite, job]

theorem chain_copyAdded (j : JobNo) (c : Copy) (p : Part) :
    ((copyAdded j c p).job j).chain.length = (p.job j).chain.length + 1 := by
  simp [job_copyAdded]

@[simp] theorem copyAdded_fields (j : JobNo) (c : Copy) (p : Part) :
    (copyAdded j c p).pool = p.pool ∧ (copyAdded j c p).ring = p.ring ∧ (copyAdded j c p).setup = p.setup
      ∧ (copyAdded j c p).copy = { p.copy with current := none, last := some .submit }
      ∧ (copyAdded j c p).submit = { p.submit with state := .working, pos := p.submit.pos + c.total }
      ∧ (copyAdded j c p).writer =
        { p.writer with queue := enqueueWrite (recordWrite (.job j) 0) p.writer.queue } :=
  ⟨rfl, rfl, rfl, rfl, rfl, rfl⟩

end

end Part

/-- Settles O21: a retry goes on from where the walk stopped, and the end of a copy from whether the chain has room for
the buffer, has room after it, and has all the data. -/
theorem submissionWalkGoesOn : Obligations.SubmissionWalkGoesOn := by
  unfold Obligations.SubmissionWalkGoesOn
  intro ended mark
  refine ⟨?retry, ?adds, ?ends, ?full⟩
  case retry =>
    intro s hheld w
    refine ⟨fun hnot => onPart_awake_eq hheld (Part.submissionRetry_notDue hnot), fun hstate hdue =>
      ⟨fun j hwait hj hdata hroom => ?buffer, fun j k hwait hk hon hfree hdata hlimit => ?record,
        fun j hwait hj hlast hfull => ?waits, fun j hwait hj hlast hroom hport => ?closes⟩⟩
    case buffer =>
      refine onPart_awake_eq hheld ((Part.submissionRetry_buffer hstate hdue hwait hj).trans ?_)
      rw [Part.subFill_asks hdata hroom]
      rfl
    case record =>
      have hretry : s.part.submissionRetry = { Part.submissionOpened j k s.part with submit :=
          { w with state := .working, job := some j, asking := true, retryDue := false } } := by
        rw [Part.submissionRetry_record hstate hdue hwait, Part.subOpen_opens hk hon hfree,
          Part.subFill_asks (p := Part.submissionOpened j k s.part) hdata (by rw [Part.chain_submissionOpened]; exact hlimit)]
        rfl
      exact ⟨_, onPart_awake_eq hheld hretry, rfl, rfl, rfl⟩
    case waits =>
      refine onPart_awake_eq hheld ((Part.submissionRetry_room hstate hdue hwait hj).trans ?_)
      rw [Part.subEnd_waits hlast hfull]
      simp only [Part.subGoOn, Part.subWait, Part.modSubmit, ← hstate, ← hwait]
      rfl
    case closes =>
      have hretry : s.part.submissionRetry = Part.subNext (Part.subDone .accepted (Part.closeJob j s.part)) := by
        rw [Part.submissionRetry_room hstate hdue hwait hj, Part.subEnd_closes hlast hroom]
        rfl
      rw [Part.closeJob_notIdle hport] at hretry
      have hended := Part.endedSlot_job (w := s.part.submit) .accepted hj
      refine ⟨_, onPart_awake_eq hheld hretry, ?_⟩
      simp [State.withPart, Part.jobClosed, Part.job, Part.queue, Part.asksWrite, hended, wrapInc]
      exact ⟨rfl, rfl, rfl⟩
  case adds =>
    intro s c j hheld hcopy hwalk hhead hleft hbyte hj hdata
    have hcopied := Part.submissionCopied_adds hwalk ⟨hcopy, hhead, hleft, hbyte⟩ hj
    refine ⟨fun hroom => ?more, fun hroom hlimit hstate => ?overruns⟩
    case more =>
      refine onPart_awake_eq hheld ((hcopied (by omega)).trans ?_)
      rw [Part.subFill_asks hdata (by rw [Part.chain_copyAdded]; exact hroom)]
      rfl
    case overruns =>
      have hlive : ((Part.copyAdded j c s.part).job j).state.live = true := by
        rw [Part.job_copyAdded]
        exact live_of_assembling hstate
      have hover : s.part.submissionCopied =
          Part.subNext (Part.subDone .tooLarge (Part.abortJob j .tooLarge (Part.copyAdded j c s.part))) := by
        rw [hcopied hroom, Part.subFill_overruns hdata (by rw [Part.chain_copyAdded]; exact hlimit)]
        rfl
      refine ⟨_, onPart_awake_eq hheld hover, ?_⟩
      have horigin : ((Part.copyAdded j c s.part).job j).origin = (s.part.job j).origin := by rw [Part.job_copyAdded]
      have hended := Part.endedSlot_job (w := (Part.abortJob j .tooLarge (Part.copyAdded j c s.part)).submit) .tooLarge
        (by simpa using hj)
      simp [State.withPart, Part.abortJob_job_self _ hlive, Part.abortJob_pool _ hlive, Part.job_copyAdded, mark, hended]
      intro ho
      rw [Part.abortJob_writer _ hlive (horigin ▸ ho)]
      rfl
  case ends =>
    intro s c j hheld hcopy hwalk hhead hleft hbyte hj hdata hlast hroom
    have hcopied : s.part.submissionCopied = Part.subNext (Part.subDone .accepted (Part.copyAdded j c s.part)) := by
      rw [Part.submissionCopied_adds hwalk ⟨hcopy, hhead, hleft, hbyte⟩ hj hroom,
        Part.subFill_ends (p := Part.copyAdded j c s.part) hdata, Part.subEnd_continues (p := Part.copyAdded j c s.part) hlast]
      rfl
    refine ⟨_, onPart_awake_eq hheld hcopied, ?_⟩
    have hended := Part.endedSlot_job (w := (Part.copyAdded j c s.part).submit) .accepted hj
    simp [State.withPart, Part.job_copyAdded, mark]
    exact congrArg (enqueueWrite · _) hended
  case full =>
    intro s c j hheld hcopy hwalk hhead hleft hbyte hj hstate hfull
    have hlive : ((Part.endCopy .submit s.part).job j).state.live = true := live_of_assembling hstate
    have hcopied := Part.submissionCopied_full s.part c j (hwalk ▸ Part.copyDone_of_ended ⟨hcopy, hhead, hleft, hbyte⟩) hj
      hfull
    refine ⟨_, onPart_awake_eq hheld hcopied, ?_⟩
    have hended := Part.endedSlot_job (w := (Part.freeBuffer c.buf
      (Part.abortJob j .tooLarge (Part.endCopy .submit s.part))).submit) .tooLarge (by simpa [Part.endCopy] using hj)
    simp [State.withPart, Part.abortJob_job_self _ hlive, Part.abortJob_pool _ hlive, mark, hended]
    refine ⟨rfl, rfl, rfl, ⟨rfl, rfl⟩, rfl, fun ho => ?_⟩
    rw [Part.abortJob_writer _ hlive ho]
    rfl

end Sys2Proof.Machine
end

section
/-! PROOF. The host's commands on jobs: JOB_ABORT by the job's state (O22) and JOB_MOVE_PRINTER with its checks (O23). -/

namespace Sys2Proof.Machine

namespace Part

/-! ## What the job operations do to queues, paths and ports -/

theorem leaveQueue_mem {p : Part} {j : JobNo} {k : Port} (h : j ∈ p.queue k) :
    leaveQueue j k p = submitEvent (modQueue k (fun l => l.filter fun i => i != j) p) :=
  if_pos (by simpa using h)

theorem leaveQueue_notMem {p : Part} {j : JobNo} {k : Port} (h : j ∉ p.queue k) : leaveQueue j k p = p :=
  if_neg (by simpa using h)

/-- A job that has left a queue is not in it, whether or not it was. -/
@[simp] theorem queue_leaveQueue_self (j : JobNo) (k : Port) (p : Part) :
    (leaveQueue j k p).queue k = (p.queue k).filter fun i => i != j := by
  by_cases h : j ∈ p.queue k
  · simp [leaveQueue_mem h]
  · rw [leaveQueue_notMem h, List.filter_eq_self.mpr fun i hi => bne_iff_ne.mpr (ne_of_mem_of_not_mem hi h)]

theorem queue_leaveQueue_ne {i k : Port} (j : JobNo) (p : Part) (h : i ≠ k) : (leaveQueue j k p).queue i = p.queue i := by
  by_cases hmem : j ∈ p.queue k
  · simp [leaveQueue_mem hmem, queue_modQueue_ne _ _ _ _ h]
  · rw [leaveQueue_notMem hmem]

/-- Freeing buffers withdraws the accesses asked for on their behalf (R81). -/
theorem path_freeBuffers (l : List BufNo) (b : Branch) (p : Part) :
    (freeBuffers l p).path b = l.foldl (fun q buf => q.filterMap (PathOp.afterFree buf)) (p.path b) := by
  unfold freeBuffers each
  induction l generalizing p with
  | nil => rfl
  | cons buf l ih =>
    have hpath : (freeBuffer buf p).path b = (p.path b).filterMap (PathOp.afterFree buf) :=
      path_withdraw buf (modPool (fun q => { q with free := q.free ++ [buf] }) p) b
    simp only [List.foldl_cons, ih, hpath]

/-- A load that begins changes nothing of a port but the bytes being read. -/
theorem idleLoad_port (k : Port) (p : Part) : ∃ l, (idleLoad k p).port k = { p.port k with loading := l } := by
  unfold idleLoad
  extract_lets t
  split
  · refine ⟨if (p.port k).loading.isSome then (p.port k).loading else some [], ?_⟩
    simp only [startLoad, port_modPort_self]
    split <;> rfl
  · exact ⟨(p.port k).loading, rfl⟩

/-- A port gives up its byte in handshake, and keeps its conditions (R99, R105). -/
@[simp] theorem giveUp_port (k : Port) (p : Part) :
    ((giveUp k p).port k).state = (p.port k).state ∧ ((giveUp k p).port k).job = (p.port k).job ∧
    ((giveUp k p).port k).handshake = none ∧ ((giveUp k p).port k).redirect = (p.port k).redirect ∧
    ((giveUp k p).port k).redirected = (p.port k).redirected ∧ ((giveUp k p).port k).stalled = (p.port k).stalled ∧
    ((giveUp k p).port k).stall = (p.port k).stall := by
  simp only [giveUp, port_modPort_self]
  cases (p.port k).handshake <;> simp

@[simp] theorem detach_port (k : Port) (p : Part) :
    ((detach k p).port k).state = (p.port k).state ∧ ((detach k p).port k).job = none ∧
    ((detach k p).port k).handshake = none ∧ ((detach k p).port k).redirect = (p.port k).redirect ∧
    ((detach k p).port k).redirected = (p.port k).redirected ∧
    ((detach k p).port k).stalled = (p.port k).stalled := by
  simp [detach]

theorem detach_port_ne {i k : Port} (p : Part) (h : i ≠ k) : (detach k p).port i = p.port i := by
  simp [detach, giveUp, port_modPort_ne _ _ _ _ h]

section

variable {p : Part} {j : JobNo} {k : Port}

/-- The abort of a job that is in no queue withdraws the accesses of its chain, in chain order (R93). -/
theorem abortJob_path (r : JobResult) (b : Branch) (hlive : (p.job j).state.live = true)
    (h : (p.job j).state ≠ .waiting) : (abortJob j r p).path b =
      (p.job j).chain.foldl (fun l e => l.filterMap (PathOp.afterFree e.buf)) (p.path b) := by
  rw [abortJob_live r hlive, if_neg h]
  simp [path_freeBuffers, List.foldl_map]

theorem abortJob_queue (r : JobResult) (h : (p.job j).state = .waiting) :
    (abortJob j r p).queue (p.job j).printer = (p.queue (p.job j).printer).filter fun i => i != j := by
  rw [abortJob_live r (by rw [h]; rfl), if_pos h]
  simp

theorem abortJob_queues (r : JobResult) (h : (p.job j).state ≠ .waiting) : (abortJob j r p).queues = p.queues := by
  by_cases hlive : (p.job j).state.live = true
  · rw [abortJob_live r hlive, if_neg h]
    simp
  · simp only [abortJob, hlive, Bool.false_eq_true, if_false]

/-- A port with an empty queue has nothing to grant (R112). -/
theorem grantOnce_empty (h : p.queue k = []) : grantOnce k p = none := by
  unfold grantOnce
  extract_lets t
  split
  · rw [h]
  · rfl

theorem servePort_empty (h : p.queue k = []) : servePort k p = idleLoad k p := servePort_none (grantOnce_empty h)

theorem decidePort_same (h : (p.port k).decide (p.printerSetup k).enable = (p.port k).state) : decidePort k p = p :=
  if_pos h

theorem decidePort_running (hne : (p.port k).decide (p.printerSetup k).enable ≠ (p.port k).state)
    (h : ((p.port k).decide (p.printerSetup k).enable).trouble = false) :
    decidePort k p = enterRunning k ((p.port k).decide (p.printerSetup k).enable) p := by
  simp only [decidePort, hne, if_false, h, Bool.false_eq_true]

end

/-- A port as it enters IDLE or BUSY, before its job is told (R103, R106, R108). -/
def runningPort (k : Port) (new : PortState) (p : Part) : Part :=
  let q := modPort k (fun t =>
    { t with state := new, redirect := none, redirected := false, stalled := false, fetched := none
             stall := if new = .busy then some (p.printerSetup k).stallS else none }) p
  if (p.port k).redirected then submitEvent q else q

@[simp] theorem runningPort_port (k : Port) (new : PortState) (p : Part) : (runningPort k new p).port k =
    { p.port k with state := new, redirect := none, redirected := false, stalled := false, fetched := none
                    stall := if new = .busy then some (p.printerSetup k).stallS else none } := by
  unfold runningPort
  cases (p.port k).redirected <;> simp

@[simp] theorem runningPort_keeps (k : Port) (new : PortState) (p : Part) :
    (runningPort k new p).jobs = p.jobs ∧ (runningPort k new p).pool = p.pool ∧
    (runningPort k new p).setup = p.setup ∧ (runningPort k new p).queues = p.queues ∧
    (runningPort k new p).notices = p.notices ∧ (runningPort k new p).paths = p.paths := by
  unfold runningPort
  cases (p.port k).redirected <;> simp

@[simp] theorem runningPort_views (k : Port) (new : PortState) (p : Part) :
    (∀ y, (runningPort k new p).job y = p.job y) ∧ (∀ y, (runningPort k new p).queue y = p.queue y) ∧
    (∀ y, (runningPort k new p).printerSetup y = p.printerSetup y) := by
  simp [job, queue, printerSetup]

section

variable {p : Part} {k : Port}

theorem enterRunning_noJob (new : PortState) (h : (p.port k).job = none) :
    enterRunning k new p = runningPort k new p := by
  have hjob : ((runningPort k new p).port k).job = none := by simpa using h
  calc enterRunning k new p
    _ = match ((runningPort k new p).port k).job with
        | none => runningPort k new p
        | some j => reach k (updJob j (fun x => { x with state := .printing, hold := none }) 0 (runningPort k new p)) := rfl
    _ = runningPort k new p := by rw [hjob]

theorem enterRunning_job {j : JobNo} (new : PortState) (h : (p.port k).job = some j) : enterRunning k new p =
    reach k (updJob j (fun x => { x with state := .printing, hold := none }) 0 (runningPort k new p)) := by
  have hjob : ((runningPort k new p).port k).job = some j := by simpa using h
  calc enterRunning k new p
    _ = match ((runningPort k new p).port k).job with
        | none => runningPort k new p
        | some j => reach k (updJob j (fun x => { x with state := .printing, hold := none }) 0 (runningPort k new p)) := rfl
    _ = _ := by rw [hjob]

end

/-! ## The walk whose job has been aborted (R76, R92) -/

section

variable {p : Part}

/-- The walk's job still assembles, or it has none. -/
theorem checkSubmitJob_keeps_walk (h : ∀ i, p.submit.job = some i → (p.job i).state = .assembling) :
    checkSubmitJob p = p := by
  unfold checkSubmitJob
  split
  · next i hi => exact if_pos (h i hi)
  · rfl

theorem checkSubmitJob_ends {j : JobNo} (hj : p.submit.job = some j) (h : (p.job j).state ≠ .assembling) :
    checkSubmitJob p = subNext (subDone .jobAborted p) := by
  simp only [checkSubmitJob, hj, h, if_false]

theorem stopSubmitCopy_other (h : ∀ y, p.copy.current = some y → y.walk ≠ .submit) : stopSubmitCopy p = p := by
  unfold stopSubmitCopy
  split
  · next y hy => exact if_neg (h y hy)
  · rfl

theorem stopSubmitCopy_own {y : Copy} (h : p.copy.current = some y) (hwalk : y.walk = .submit) : stopSubmitCopy p =
    freeBuffer y.buf (endCopy .submit (modCopy (fun e => { e with stopped := y.inProgress <|> e.stopped }) p)) := by
  simp only [stopSubmitCopy, h, hwalk, if_true]

@[simp] theorem stopSubmitCopy_keeps (p : Part) :
    (stopSubmitCopy p).jobs = p.jobs ∧ (stopSubmitCopy p).queues = p.queues ∧ (stopSubmitCopy p).ports = p.ports ∧
    (stopSubmitCopy p).ring = p.ring ∧ (stopSubmitCopy p).writer = p.writer ∧ (stopSubmitCopy p).setup = p.setup ∧
    (stopSubmitCopy p).submit.index = p.submit.index ∧ (stopSubmitCopy p).submit.slot = p.submit.slot ∧
    (stopSubmitCopy p).submit.job = p.submit.job ∧ (stopSubmitCopy p).submit.state = p.submit.state := by
  unfold stopSubmitCopy
  split
  · split <;> simp [endCopy]
  · simp

end

/-! ## JOB_ABORT (R94) -/

section

variable {p : Part} {j : JobNo}

theorem jobAbort_ofNat (j : JobNo) (p : Part) : jobAbort (BitVec.ofNat 8 j.val) p = abortByHost j p := by
  simp only [jobAbort, jobArg_ofNat]

theorem abortByHost_assembling (h : (p.job j).state = .assembling) (hwalk : p.submit.job ≠ some j) :
    abortByHost j p = checkSubmitJob (abortJob j .abortedByRequest p) := by
  simp only [abortByHost, h, abortFilling, hwalk, if_false]

theorem abortByHost_filling (h : (p.job j).state = .assembling) (hwalk : p.submit.job = some j) :
    abortByHost j p = checkSubmitJob (stopSubmitCopy (abortJob j .abortedByRequest p)) := by
  simp only [abortByHost, h, abortFilling, hwalk, if_true]

theorem abortByHost_waiting (h : (p.job j).state = .waiting) :
    abortByHost j p = servePort (p.job j).printer (abortJob j .abortedByRequest p) := by
  simp only [abortByHost, h]

theorem abortByHost_held (h : (p.job j).state = .held) : abortByHost j p =
    servePort (p.job j).printer (detach (p.job j).printer (abortJob j .abortedByRequest p)) := by
  simp only [abortByHost, h]

theorem abortByHost_printing (h : (p.job j).state = .printing) (hnot : (p.job j).abortPending = false)
    (hfree : (p.port (p.job j).printer).handshake = none) : abortByHost j p =
      redecide (p.job j).printer (modPort (p.job j).printer (fun t => { t with job := none, fetched := none })
        (abortJob j .abortedByRequest p)) := by
  simp only [abortByHost, h, hnot, Bool.false_eq_true, if_false, hfree, if_true]

theorem abortByHost_handshake (h : (p.job j).state = .printing) (hnot : (p.job j).abortPending = false)
    (hbusy : (p.port (p.job j).printer).handshake.isSome = true) :
    abortByHost j p = modJob j (fun x => { x with abortPending := true }) p := by
  have hne : (p.port (p.job j).printer).handshake ≠ none := Option.isSome_iff_ne_none.mp hbusy
  simp only [abortByHost, h, hnot, Bool.false_eq_true, if_false, hne]

theorem abortByHost_pending (h : (p.job j).state = .printing) (hpending : (p.job j).abortPending = true) :
    abortByHost j p = p := by
  simp only [abortByHost, h, hpending, if_true]

theorem abortByHost_over (h : (p.job j).state = .free ∨ (p.job j).state = .done ∨ (p.job j).state = .aborted) :
    abortByHost j p = p.refusedWith .badState 0x07 := by
  rcases h with h | h | h <;> simp only [abortByHost, h, refuse_eq]

/-- The record of job `j` alone is changed, to that of an abort by request. -/
structure Aborts (j : JobNo) (p q : Part) : Prop where
  own : q.job j =
    { p.job j with state := .aborted, result := some .abortedByRequest, chain := [], hold := none, abortPending := false }
  others : ∀ i, i ≠ j → q.job i = p.job i

theorem abortJob_aborts (h : (p.job j).state.live = true) : Aborts j p (abortJob j .abortedByRequest p) :=
  ⟨abortJob_job_self _ h, fun _ hi => abortJob_job_ne _ hi⟩

theorem Aborts.of_jobs {q r : Part} (h : Aborts j p q) (e : r.jobs = q.jobs) : Aborts j p r := by
  obtain ⟨own, others⟩ := h
  have hjob : ∀ i, r.job i = q.job i := fun i => congrArg (Vector.get · i) e
  exact ⟨(hjob j).trans own, fun i hi => (hjob i).trans (others i hi)⟩

end

end Part

theorem live_of_waiting {x : JobState} (h : x = .waiting) : x.live = true := by rw [h]; rfl

theorem live_of_held {x : JobState} (h : x = .held) : x.live = true := by rw [h]; rfl

theorem live_of_printing {x : JobState} (h : x = .printing) : x.live = true := by rw [h]; rfl

/-- A port whose conditions gave BUSY is IDLE once it has no job (R101). -/
theorem PrinterPort.decide_noJob {t : PrinterPort} {on : Bool} (h : t.decide on = .busy) :
    { t with job := none, fetched := none }.decide on = .idle := by
  unfold PrinterPort.decide at h ⊢
  (repeat' split at h) <;> simp_all

/-- Settles O22: in each state of the job its abort is the equation above, and `abortJob` gives the record, the
buffers, the queue and the paths. -/
theorem jobAbortFollowsTheStateOfTheJob : Obligations.JobAbortFollowsTheStateOfTheJob := by
  intro s j h x k c aborted ended
  have exec_eq : ∀ {q : Part}, Part.abortByHost j s.part = q → exec c s = .next (s.withPart q) :=
    fun e => onPart_command_eq h ((Part.jobAbort_ofNat j s.part).trans e)
  have aborted_of : ∀ {q : Part}, Part.Aborts j s.part q → aborted (s.withPart q) := by
    rintro q ⟨own, others⟩
    have own' : (s.withPart q).part.job j = _ := own
    refine ⟨?_, ?_, ?_, ?_, rfl, others⟩ <;> rw [own']
  refine ⟨fun hx hwalk => ?assembling, fun hx hwalk => ?filling, fun hx hport hmem => ?waiting, fun hx hport => ?held,
    fun hx hnot hfree hdecide hbusy hqueue => ?printing, fun hx hnot hbusy => exec_eq (Part.abortByHost_handshake hx hnot hbusy),
    fun hx hpending => exec_eq (Part.abortByHost_pending hx hpending), fun hx => exec_eq (Part.abortByHost_over hx)⟩
  case assembling =>
    have hlive := live_of_assembling hx
    have hnot : s.part.submit.job ≠ some j := fun e => (hwalk j e).1 rfl
    have habort : Part.abortByHost j s.part = Part.abortJob j .abortedByRequest s.part := by
      rw [Part.abortByHost_assembling hx hnot]
      refine Part.checkSubmitJob_keeps_walk fun i hi => ?_
      obtain ⟨hne, hassembling⟩ := hwalk i (by simpa using hi)
      rw [Part.abortJob_job_ne _ hne]
      exact hassembling
    refine ⟨_, exec_eq habort, aborted_of (Part.abortJob_aborts hlive), ?_, ?_, ?_, fun b => ?_⟩
    · simp [State.withPart]
    · simp [State.withPart]
    · simp [State.withPart, Part.abortJob_pool _ hlive, x]
    · exact Part.abortJob_path _ b hlive (by rw [hx]; decide)
  case filling =>
    have hlive := live_of_assembling hx
    have hjob : (Part.stopSubmitCopy (Part.abortJob j .abortedByRequest s.part)).submit.job = some j := by simpa using hwalk
    have haborts : Part.Aborts j s.part (Part.stopSubmitCopy (Part.abortJob j .abortedByRequest s.part)) :=
      (Part.abortJob_aborts hlive).of_jobs (by simp)
    have hover := Part.checkSubmitJob_ends hjob (by rw [haborts.own]; exact nofun)
    refine ⟨_, exec_eq ((Part.abortByHost_filling hx hwalk).trans hover), aborted_of (haborts.of_jobs (by simp)), rfl, rfl,
      ?_, ?_, fun hother => ?_, fun y hy hyw => ?_, fun ho => ?_⟩
    · simp [State.withPart]
    · simp [State.withPart]
    · have hstop : Part.stopSubmitCopy (Part.abortJob j .abortedByRequest s.part) = _ :=
        Part.stopSubmitCopy_other (by simpa using hother)
      simp [State.withPart, hstop, Part.abortJob_pool _ hlive, x]
    · have hstop : Part.stopSubmitCopy (Part.abortJob j .abortedByRequest s.part) = _ :=
        Part.stopSubmitCopy_own (y := y) (by simpa using hy) hyw
      refine ⟨?_, ?_⟩
      · simp [State.withPart, hstop, Part.endCopy]
        unfold Copy.inProgress
        cases y.byte <;> rfl
      · simp [State.withPart, hstop, Part.endCopy, Part.abortJob_pool _ hlive, x]
    · have hended := Part.endedSlot_job .jobAborted hjob
      simp [State.withPart, Part.abortJob_writer _ hlive ho, hended]
      rfl
  case waiting =>
    have hlive := live_of_waiting hx
    have hport' : ((Part.abortJob j .abortedByRequest s.part).port k).state ≠ .idle := by simpa using hport
    have habort := (Part.abortByHost_waiting hx).trans (Part.servePort_notIdle hport')
    refine ⟨_, exec_eq habort, aborted_of ((Part.abortJob_aborts hlive).of_jobs (by simp)), ?_, ?_⟩
    · simpa [State.withPart] using Part.abortJob_queue .abortedByRequest hx
    · simp [State.withPart, Part.abortJob_pool _ hlive, x]
  case held =>
    have hlive := live_of_held hx
    have hport' : ((Part.detach k (Part.abortJob j .abortedByRequest s.part)).port k).state = (s.part.port k).state := by
      simp
    have habort := (Part.abortByHost_held hx).trans (Part.servePort_notIdle (by rw [hport']; exact hport))
    obtain ⟨l, hl⟩ := Part.idleLoad_port k (Part.detach k (Part.abortJob j .abortedByRequest s.part))
    refine ⟨_, exec_eq habort, aborted_of ((Part.abortJob_aborts hlive).of_jobs (by simp)), ?_, ?_, ?_⟩
    · exact (congrArg PrinterPort.job hl).trans (by simp)
    · exact (congrArg PrinterPort.state hl).trans (by simp)
    · simp [State.withPart, Part.abortJob_pool _ hlive, x]
  case printing =>
    have hlive := live_of_printing hx
    have hqueues := Part.abortJob_queues .abortedByRequest (p := s.part) (j := j) (by rw [hx]; decide)
    let q : Part := Part.modPort k (fun t => { t with job := none, fetched := none })
      (Part.abortJob j .abortedByRequest s.part)
    have hidle : (q.port k).decide (q.printerSetup k).enable = .idle := by
      simpa [q] using PrinterPort.decide_noJob hdecide
    have hdecided : Part.decidePort k q = Part.runningPort k .idle q := by
      rw [Part.decidePort_running (by rw [hidle]; simp [q, hbusy]) (by rw [hidle]; rfl), hidle]
      exact Part.enterRunning_noJob _ (by simp [q])
    have habort : Part.abortByHost j s.part = Part.idleLoad k (Part.runningPort k .idle q) := by
      rw [Part.abortByHost_printing hx hnot hfree]
      exact (congrArg (Part.servePort k) hdecided).trans (Part.servePort_empty (by simpa [q, Part.queue, hqueues] using hqueue))
    obtain ⟨l, hl⟩ := Part.idleLoad_port k (Part.runningPort k .idle q)
    refine ⟨_, exec_eq habort, aborted_of ((Part.abortJob_aborts hlive).of_jobs (by simp [q])), ?_, ?_, ?_⟩
    · exact (congrArg PrinterPort.job hl).trans (by simp [q])
    · exact (congrArg PrinterPort.state hl).trans (by simp)
    · simp [State.withPart, Part.abortJob_pool _ hlive, x, q]

/-! ## JOB_MOVE_PRINTER (R96) -/

namespace Part

section

variable {p : Part} {k : Port}

theorem jobMovePrinter_ofNat_badJob (h1 : (p.job p.moveJob).state ≠ .waiting) (h2 : (p.job p.moveJob).state ≠ .held) :
    jobMovePrinter (BitVec.ofNat 8 k.val) p = p.refusedWith .badState 0x09 := by
  simp only [jobMovePrinter, portArg_ofNat, refuse_eq]

/-- A job that may move, to a printer that is not enabled. -/
theorem jobMovePrinter_off (h : (p.job p.moveJob).state = .waiting ∨ (p.job p.moveJob).state = .held)
    (hoff : (p.printerSetup k).enable = false) :
    jobMovePrinter (BitVec.ofNat 8 k.val) p = p.refusedWith .badState 0x09 := by
  rcases h with h | h <;> simp only [jobMovePrinter, portArg_ofNat, h, hoff, Bool.not_false, if_true, refuse_eq]

theorem jobMovePrinter_full (h : (p.job p.moveJob).state = .waiting ∨ (p.job p.moveJob).state = .held)
    (hon : (p.printerSetup k).enable = true) (hmem : p.moveJob ∉ p.queue k) (hfull : 16 ≤ (p.queue k).length) :
    jobMovePrinter (BitVec.ofNat 8 k.val) p = p.refusedWith .queueFull 0x09 := by
  have hroom : p.hasRoom k = false := decide_eq_false (Nat.not_lt.mpr hfull)
  have hmem' : (p.queue k).contains p.moveJob = false := by simpa using hmem
  rcases h with h | h <;>
    simp only [jobMovePrinter, portArg_ofNat, h, hon, hroom, hmem', Bool.not_true, Bool.not_false, Bool.and_self,
      Bool.false_eq_true, if_false, if_true, refuse_eq]

theorem jobMovePrinter_moves (h : (p.job p.moveJob).state = .waiting ∨ (p.job p.moveJob).state = .held)
    (hon : (p.printerSetup k).enable = true) (hroom : p.moveJob ∈ p.queue k ∨ (p.queue k).length < 16) :
    jobMovePrinter (BitVec.ofNat 8 k.val) p = moveJobTo p.moveJob k p := by
  have hpass : (!(p.queue k).contains p.moveJob && !p.hasRoom k) = false := by
    rcases hroom with hmem | hroom
    · simp [hmem]
    · have hroom' : p.hasRoom k = true := decide_eq_true hroom
      simp [hroom']
  rcases h with h | h <;>
    simp only [jobMovePrinter, portArg_ofNat, h, hon, hpass, Bool.not_true, Bool.false_eq_true, if_false]

/-- The record of a job that a move has passed on (R96). -/
def movedTo (k : Port) (x : Job) : Job := { x with printer := k, moved := true, state := .waiting, hold := none }

/-- A move between ports of which neither grants: the job leaves its queue or its port, and joins the other queue. -/
theorem moveJobTo_notIdle {j : JobNo} (hk : (p.port k).state ≠ .idle) (hold : (p.port (p.job j).printer).state ≠ .idle)
    {q : Part} (hq : q = if (p.job j).state = .held then detach (p.job j).printer p else leaveQueue j (p.job j).printer p) :
    moveJobTo j k p = idleLoad (p.job j).printer (modQueue k (fun l => l ++ [j]) (updJob j (movedTo k) 0 q)) := by
  have hports : ∀ i, (q.port i).state = (p.port i).state := by
    intro i
    rw [hq]
    split
    · by_cases hi : i = (p.job j).printer
      · rw [hi]
        simp
      · rw [detach_port_ne _ hi]
    · simp
  have hjoin : joinQueue k j (updJob j (movedTo k) 0 q) = modQueue k (fun l => l ++ [j]) (updJob j (movedTo k) 0 q) :=
    joinQueue_notIdle j (by simpa [hports] using hk)
  have hserve : servePort (p.job j).printer (modQueue k (fun l => l ++ [j]) (updJob j (movedTo k) 0 q)) = _ :=
    servePort_notIdle (by simpa [hports] using hold)
  rw [← hserve, ← hjoin, hq]
  rfl

end

end Part

/-- Settles O23: the three refusals in their order, and a move from a queue and from a port. -/
theorem jobMoveIsCheckedAndMade : Obligations.JobMoveIsCheckedAndMade := by
  intro s k h j x c
  refine ⟨fun h1 h2 => onPart_command_eq h (Part.jobMovePrinter_ofNat_badJob h1 h2),
    fun hx hoff => onPart_command_eq h (Part.jobMovePrinter_off hx hoff),
    fun hx hon hmem hfull => onPart_command_eq h (Part.jobMovePrinter_full hx hon hmem hfull),
    fun hon hroom hk hold => ⟨fun hx hplace => ?waiting, fun hx hmem => ?held⟩⟩
  case waiting =>
    have hq : Part.leaveQueue j x.printer s.part = if (s.part.job j).state = .held then
        Part.detach (s.part.job j).printer s.part else Part.leaveQueue j (s.part.job j).printer s.part := by
      rw [if_neg (by rw [show (s.part.job j).state = .waiting from hx]; decide)]
    have hmove := (Part.jobMovePrinter_moves (.inl hx) hon hroom).trans (Part.moveJobTo_notIdle hk hold hq)
    refine ⟨_, onPart_command_eq h hmove, ?_, ?_, fun hne => ?_, ?_, rfl⟩
    · simp [State.withPart, Part.movedTo, x]
    · have hleft : (Part.leaveQueue j x.printer s.part).queue k = (s.part.queue k).filter fun i => i != j := by
        by_cases heq : k = x.printer
        · rw [heq, Part.queue_leaveQueue_self]
        · rw [Part.queue_leaveQueue_ne _ _ heq, List.filter_eq_self.mpr fun i hi => bne_iff_ne.mpr
            (ne_of_mem_of_not_mem hi (hplace.resolve_left heq))]
      simp [State.withPart, hleft]
    · simp [State.withPart, Part.queue_modQueue_ne _ _ _ _ hne, x]
    · simp [State.withPart, j]
  case held =>
    have hq : Part.detach x.printer s.part = if (s.part.job j).state = .held then
        Part.detach (s.part.job j).printer s.part else Part.leaveQueue j (s.part.job j).printer s.part := by
      rw [if_pos hx]
    have hmove := (Part.jobMovePrinter_moves (.inr hx) hon hroom).trans (Part.moveJobTo_notIdle hk hold hq)
    obtain ⟨l, hl⟩ := Part.idleLoad_port x.printer
      (Part.modQueue k (fun l => l ++ [j]) (Part.updJob j (Part.movedTo k) 0 (Part.detach x.printer s.part)))
    refine ⟨_, onPart_command_eq h hmove, ?_, ?_, ?_, ?_, ?_, rfl⟩
    · simp [State.withPart, Part.movedTo, x]
    · simp [State.withPart]
    · exact (congrArg PrinterPort.job hl).trans (by simp)
    · exact (congrArg PrinterPort.handshake hl).trans (by simp)
    · simp [State.withPart, j]

end Sys2Proof.Machine
end

section
/-! PROOF. The grant tables: their loads, the scan of a table, and a grant decision (O24). -/

namespace Sys2Proof.Machine

/-! ## The scan of a grant table (R112) -/

/-- The phase that a scan comes to `m` phases after `c`. -/
def phaseAfter (c : Fin 32) (m : Nat) : Fin 32 := Fin.ofNat 32 (c.val + m)

theorem phaseAfter_zero (c : Fin 32) : phaseAfter c 0 = c := by
  apply Fin.ext
  simp only [phaseAfter, Fin.ofNat]
  omega

theorem phaseAfter_succ (c : Fin 32) (m : Nat) : phaseAfter (c + 1) m = phaseAfter c (m + 1) := by
  apply Fin.ext
  simp only [phaseAfter, Fin.ofNat, Fin.val_add]
  have hone : ((1 : Fin 32) : Nat) = 1 := rfl
  omega

theorem phaseAfter_sub (i c : Fin 32) : phaseAfter c (i - c).val = i := by
  apply Fin.ext
  simp only [phaseAfter, Fin.ofNat, Fin.sub_def]
  omega

section

variable {table : Vector (Option (Fin 5)) 32} {waiting : Fin 5 → Bool}

/-- The class of the phase waits. -/
def hits (table : Vector (Option (Fin 5)) 32) (waiting : Fin 5 → Bool) (i : Fin 32) : Prop :=
  ∃ c, table.get i = some c ∧ waiting c = true

theorem any_iff_hits (i : Fin 32) : (table.get i).any waiting = true ↔ hits table waiting i := by
  cases h : table.get i <;> simp [hits, h]

theorem scanTable_hit {pending : Bool} {n : Nat} {c : Fin 32} (h : hits table waiting c) :
    scanTable table waiting pending (n + 1) c = .found c := by
  rw [scanTable, if_pos ((any_iff_hits c).mpr h)]

/-- A phase whose class does not wait is passed, but for the passage to phase 0 with a load pending. -/
theorem scanTable_miss {pending : Bool} {n : Nat} {c : Fin 32} (h : ¬ hits table waiting c)
    (hpass : ¬ (c = 31 ∧ n ≠ 0 ∧ pending = true)) :
    scanTable table waiting pending (n + 1) c = scanTable table waiting pending n (c + 1) := by
  rw [scanTable, if_neg (mt (any_iff_hits c).mp h), if_neg hpass]

/-- The first phase whose class waits is found, if it is among those still to be examined. -/
theorem scanTable_found (d : Nat) : ∀ {n : Nat} {c : Fin 32}, d < n → hits table waiting (phaseAfter c d) →
    (∀ m < d, ¬ hits table waiting (phaseAfter c m)) → scanTable table waiting false n c = .found (phaseAfter c d) := by
  induction d with
  | zero =>
    intro n c hn hhit _
    obtain ⟨n, rfl⟩ := Nat.exists_eq_succ_of_ne_zero (Nat.ne_of_gt hn)
    rw [phaseAfter_zero] at hhit ⊢
    exact scanTable_hit hhit
  | succ d ih =>
    intro n c hn hhit hnot
    obtain ⟨n, rfl⟩ := Nat.exists_eq_succ_of_ne_zero (Nat.ne_of_gt (Nat.lt_of_le_of_lt (Nat.zero_le _) hn))
    have hmiss : ¬ hits table waiting c := by simpa only [phaseAfter_zero] using hnot 0 (Nat.zero_lt_succ d)
    rw [scanTable_miss hmiss (fun ⟨_, _, hpending⟩ => nomatch hpending), ← phaseAfter_succ]
    refine ih (by omega) (by rwa [phaseAfter_succ]) fun m hm => ?_
    rw [phaseAfter_succ]
    exact hnot (m + 1) (by omega)

theorem scanTable_nothing (h : ∀ i, ¬ hits table waiting i) (n : Nat) :
    ∀ c, scanTable table waiting false n c = .nothing := by
  induction n with
  | zero => exact fun c => rfl
  | succ n ih =>
    intro c
    rw [scanTable_miss (h c) (fun ⟨_, _, hpending⟩ => nomatch hpending), ih]

/-- Only a pending load stops a scan short. -/
theorem scanTable_notPending (n : Nat) : ∀ c, scanTable table waiting false n c = .nothing ∨
    ∃ i, scanTable table waiting false n c = .found i := by
  induction n with
  | zero => exact fun c => .inl rfl
  | succ n ih =>
    intro c
    by_cases hhit : hits table waiting c
    · exact .inr ⟨c, scanTable_hit hhit⟩
    · rw [scanTable_miss hhit fun ⟨_, _, hpending⟩ => nomatch hpending]
      exact ih (c + 1)

/-- With a load pending the scan stops at the passage to phase 0, while phases are left. -/
theorem scanTable_wrapped (d : Nat) : ∀ {n : Nat} {c : Fin 32}, c.val + d = 31 → d + 1 < n →
    (∀ i, c ≤ i → ¬ hits table waiting i) → scanTable table waiting true n c = .wrapped := by
  induction d with
  | zero =>
    intro n c hc hn hnot
    obtain ⟨n, rfl⟩ := Nat.exists_eq_succ_of_ne_zero (Nat.ne_of_gt (Nat.lt_of_le_of_lt (Nat.zero_le _) hn))
    have hlast : c = 31 := Fin.ext hc
    rw [scanTable, if_neg (mt (any_iff_hits c).mp (hnot c (Nat.le_refl _))), if_pos ⟨hlast, by omega, rfl⟩]
  | succ d ih =>
    intro n c hc hn hnot
    obtain ⟨n, rfl⟩ := Nat.exists_eq_succ_of_ne_zero (Nat.ne_of_gt (Nat.lt_of_le_of_lt (Nat.zero_le _) hn))
    have hne : c ≠ 31 := by
      rintro rfl
      have hlast : ((31 : Fin 32) : Nat) = 31 := rfl
      omega
    have hnext : (c + 1).val = c.val + 1 := by
      have hone : ((1 : Fin 32) : Nat) = 1 := rfl
      rw [Fin.val_add]
      omega
    rw [scanTable_miss (hnot c (Nat.le_refl _)) fun ⟨h31, _⟩ => hne h31]
    exact ih (by omega) (by omega) fun i hi => hnot i (by
      have hle : (c + 1).val ≤ i.val := hi
      exact Fin.le_def.mpr (by omega))

/-- A scan from phase 0 examines every phase before it comes to the passage. -/
theorem scanTable_whole (h : ∀ i, ¬ hits table waiting i) (n : Nat) :
    ∀ c : Fin 32, c.val + n = 32 → scanTable table waiting true n c = .nothing := by
  induction n with
  | zero => exact fun c _ => rfl
  | succ n ih =>
    intro c hc
    have hone : ((1 : Fin 32) : Nat) = 1 := rfl
    by_cases hn : n = 0
    · subst hn
      rw [scanTable_miss (h c) fun ⟨_, hleft, _⟩ => hleft rfl]
      rfl
    · have hne : c ≠ 31 := by
        rintro rfl
        have h31 : ((31 : Fin 32) : Nat) = 31 := rfl
        omega
      rw [scanTable_miss (h c) fun ⟨h31, _⟩ => hne h31]
      exact ih (c + 1) (by rw [Fin.val_add]; omega)

end

/-! ## Loads (R110, R114, R115) -/

theorem readClass_lt {v : Byte} (h : v.toNat < 5) : readClass v = some ⟨v.toNat, h⟩ := dif_pos h

theorem readClass_ge {v : Byte} (h : 5 ≤ v.toNat) : readClass v = none := dif_neg (Nat.not_lt.mpr h)

theorem get_readTable (l : List Byte) (i : Fin 32) : (readTable l).get i = readClass (byteAt l i.val) := get_ofFn ..

/-- The second of two replacements of an entry stands. -/
theorem put_put {α : Type} {n : Nat} (t : Vector α n) (i : Fin n) (x y : α) : put (put t i x) i y = put t i y :=
  Vector.set_set ..

namespace Part

theorem modPort_modPort (k : Port) (f g : PrinterPort → PrinterPort) (p : Part) :
    modPort k f (modPort k g p) = modPort k (f ∘ g) p := by
  simp only [modPort, put_put, Part.port, get_put_self, Function.comp]

section

variable {p : Part} {k : Port}

theorem loadGrant_ofNat (k : Port) (p : Part) : loadGrant (BitVec.ofNat 8 k.val) p =
    idleLoad k (modPort k (fun t => { t with loadPending := true }) p) := by
  simp only [loadGrant, portArg_ofNat]

/-- A pending load begins at a port with no job and an empty queue (R114). -/
theorem idleLoad_begins (hpending : (p.port k).loadPending = true) (hjob : (p.port k).job = none)
    (hqueue : p.queue k = []) (h : (p.port k).loading = none) :
    idleLoad k p = modPort k (fun t => { t with loading := some [] }) p := by
  have hload : idleLoad k p = startLoad k p := if_pos ⟨hpending, hjob, hqueue⟩
  rw [hload]
  simp only [startLoad, modPort, h, Option.isSome_none, Bool.false_eq_true, if_false]

/-- A load waits at a port with a job or a queue, and goes on once it has begun. -/
theorem idleLoad_waits (h : (p.port k).job.isSome = true ∨ p.queue k ≠ [] ∨ (p.port k).loading.isSome = true) :
    idleLoad k p = p := by
  unfold idleLoad
  extract_lets t
  split
  · next hidle =>
    obtain ⟨_, hjob, hqueue⟩ := hidle
    have hloading : (p.port k).loading.isSome = true := by
      rcases h with h | h | h
      · exact absurd h (by simp [show (p.port k).job = none from hjob])
      · exact absurd hqueue h
      · exact h
    simp only [startLoad, modPort, hloading, if_true]
    exact congrArg (fun v => { p with ports := v }) (put_get_self p.ports k)
  · rfl

theorem idleLoad_notPending (h : (p.port k).loadPending = false) : idleLoad k p = p :=
  if_neg fun ⟨hpending, _⟩ => nomatch h.symm.trans hpending

end

/-! ## The grant of the memory to the requester whose turn it is (R169) -/

/-- The requester that the cyclic order has come to is granted, if it asks. -/
theorem memoryGrant_turn {p : Part} (m : List Host.Cell) (hheld : p.held = false) (hwait : p.hostWait = none)
    (h : p.asks (Requester.ofIndex p.arbiter) = true) : memoryGrant (p, m) =
      cycle (Requester.ofIndex p.arbiter) ({ p with arbiter := p.arbiter + 1 }, m) := by
  have hnext : p.nextAsking = some p.arbiter := by
    have horder : List.finRange 11 = 0 :: (List.finRange 11).tail := rfl
    have hzero : p.arbiter + 0 = p.arbiter := Fin.add_zero _
    rw [nextAsking, horder, List.map_cons, hzero]
    exact List.find?_cons_of_pos h
  simp only [memoryGrant, hheld, Bool.false_eq_true, if_false, hwait, cyclicGrant, hnext]

section

variable {p : Part} {k : Port} {l : List Byte}

theorem port_cases (k : Port) : k = 0 ∨ k = 1 ∨ k = 2 := by
  revert k
  decide

/-- The table of the lowest port that loads one is the loader's work (log 18). -/
theorem tableWork_eq (h : (p.port k).loading = some l) (hlow : ∀ i : Port, i < k → (p.port i).loading = none) :
    p.tableWork = some (.table k l) := by
  have hfind : printerPorts.find? (fun k => (p.port k).loading.isSome) = some k := by
    obtain rfl | rfl | rfl : k = 0 ∨ k = 1 ∨ k = 2 := port_cases k
    · simp [printerPorts, h]
    · simp [printerPorts, h, hlow 0 (by decide)]
    · simp [printerPorts, h, hlow 0 (by decide), hlow 1 (by decide)]
  simp only [tableWork, hfind, h, Option.map_some]

theorem loaderWork_table (hwait : p.hostWait = none) (htask : p.loader.task = .idle)
    (h : p.tableWork = some (.table k l)) : p.loaderWork = some (.table k l) := by
  simp only [loaderWork, htask, waitsOnSetup, hwait, Bool.false_eq_true, if_false, h, Option.orElse_some]

theorem loaderCycle_table (m : List Host.Cell) (h : p.loaderWork = some (.table k l)) : loaderCycle (p, m) =
    (tableByte k l (Mem.read m (0x00900 + 32 * k.val + l.length)) p, m) := by
  simp only [loaderCycle, h]
  rfl

theorem tableByte_more (v : Byte) (h : l.length + 1 < 32) :
    tableByte k l v p = modPort k (fun t => { t with loading := some (l ++ [v]) }) p := if_neg (Nat.not_le.mpr h)

/-- The last byte of a table puts it in force; a port with no queue grants nothing (R115). -/
theorem tableByte_last (v : Byte) (h : l.length + 1 = 32) (hqueue : p.queue k = []) : tableByte k l v p =
    modPort k (fun t => { t with
      table := readTable (l ++ [v]), pointer := 0, loadPending := false, loading := none }) p := by
  have hload : tableByte k l v p = tableLoaded k (l ++ [v]) p := if_pos (Nat.le_of_eq h.symm)
  rw [hload]
  exact (servePort_empty (by simpa using hqueue)).trans (idleLoad_notPending (by simp))

end

/-! ## A grant decision (R112, R113) -/

/-- A job that is DONE has returned its buffers and has its result (R98). -/
@[simp] theorem finishJob_queue_job (j : JobNo) (p : Part) : (∀ k, (finishJob j p).queue k = p.queue k) ∧
    (finishJob j p).job j = { p.job j with
      state := .done, result := some .complete, chain := [], hold := none, abortPending := false } := by
  simp [finishJob]

section

variable {p : Part} {k : Port}

/-- The classes that wait at a port. -/
def waits (p : Part) (k : Port) (c : Fin 5) : Bool := (p.queue k).any fun j => jobClass (p.job j).origin = some c

/-- The decision of an IDLE port with a queue and no load: the job of the first phase that hits. -/
theorem grantOnce_found {j : JobNo} {i : Fin 32} (hstate : (p.port k).state = .idle) (hload : (p.port k).loading = none)
    (hpending : (p.port k).loadPending = false)
    (hscan : scanTable (p.port k).table (p.waits k) false 32 (p.port k).pointer = .found i)
    (hj : (p.queue k).find? (fun j => jobClass (p.job j).origin = (p.port k).table.get i) = some j) :
    grantOnce k p = some (grantJob k j (modPort k (fun t => { t with pointer := i + 1 }) p)) := by
  obtain ⟨h, r, hq⟩ : ∃ h r, p.queue k = h :: r := List.exists_cons_of_ne_nil (by rintro e; simp [e] at hj)
  have hscan' : scanTable (p.port k).table (fun c => (h :: r).any fun j => p.classOf j = some c) false 32
      (p.port k).pointer = .found i := hq ▸ hscan
  have hj' : (h :: r).find? (fun j => p.classOf j = (p.port k).table.get i) = some j := hq ▸ hj
  simp only [grantOnce, hstate, hload, and_self, if_true, hq, hpending, hscan', hj', Option.getD_some,
    Bool.false_eq_true, and_false, if_false]

/-- The decision where no class of the table waits: the head of the queue. -/
theorem grantOnce_nothing {j : JobNo} (hstate : (p.port k).state = .idle) (hload : (p.port k).loading = none)
    (hpending : (p.port k).loadPending = false)
    (hscan : scanTable (p.port k).table (p.waits k) false 32 (p.port k).pointer = .nothing)
    (hj : (p.queue k).head? = some j) : grantOnce k p = some (grantJob k j p) := by
  obtain ⟨r, hq⟩ : ∃ r, p.queue k = j :: r := by
    cases h : p.queue k with
    | nil => simp [h] at hj
    | cons i r =>
      rw [h] at hj
      cases hj
      exact ⟨r, rfl⟩
  have hscan' : scanTable (p.port k).table (fun c => (j :: r).any fun j => p.classOf j = some c) false 32
      (p.port k).pointer = .nothing := hq ▸ hscan
  simp only [grantOnce, hstate, hload, and_self, if_true, hq, hpending, hscan']

/-- The decision where one job is queued: that job, wherever the scan has left the pointer. -/
theorem grantOnce_single {j : JobNo} (hstate : (p.port k).state = .idle) (hload : (p.port k).loading = none)
    (hpending : (p.port k).loadPending = false) (hqueue : p.queue k = [j]) :
    ∃ i, grantOnce k p = some (grantJob k j (modPort k (fun t => { t with pointer := i }) p)) := by
  rcases scanTable_notPending (table := (p.port k).table) (waiting := fun c => [j].any fun j => p.classOf j = some c)
    32 (p.port k).pointer with hscan | ⟨i, hscan⟩
  · have hsame : modPort k (fun t => { t with pointer := (p.port k).pointer }) p = p :=
      congrArg (fun v => { p with ports := v }) (put_get_self p.ports k)
    refine ⟨(p.port k).pointer, ?_⟩
    simp only [grantOnce, hstate, hload, and_self, if_true, hqueue, hpending, hscan, hsame]
  · have hone : ([j].find? fun j => p.classOf j = (p.port k).table.get i).getD j = j := by
      cases h : decide (p.classOf j = (p.port k).table.get i) <;> simp [h]
    refine ⟨i + 1, ?_⟩
    simp only [grantOnce, hstate, hload, and_self, if_true, hqueue, hpending, hscan, hone, Bool.false_eq_true,
      and_false, if_false]

/-- A chain without empty entries is left as it is (R98). -/
theorem reach_filled (h : ∀ j, (p.port k).job = some j → ∀ e ∈ (p.job j).chain, e.fill ≠ 0) : reach k p = p := by
  unfold reach
  extract_lets t
  split
  · next j hj =>
    have hempty : (p.job j).chain.takeWhile (fun e => e.fill == 0) = [] := by
      cases hchain : (p.job j).chain with
      | nil => rfl
      | cons e r =>
        have he : e.fill ≠ 0 := h j hj e (by simp [hchain])
        simp [he]
    split
    · exact if_pos hempty
    · rfl
  · rfl

/-- A job granted with bytes to print: it leaves its queue and is the job of a port that is BUSY (R98, R113). -/
theorem grantJob_prints {j : JobNo} (hstate : (p.port k).state = .idle)
    (hdecide : ({ p.port k with job := some j } : PrinterPort).decide (p.printerSetup k).enable = .busy)
    (hbytes : (p.job j).queuedBytes ≠ 0) (hchain : ∀ e ∈ (p.job j).chain, e.fill ≠ 0) : grantJob k j p =
      updJob j (fun x => { x with state := .printing, hold := none }) 0
        (runningPort k .busy (modPort k (fun t => { t with job := some j }) (leaveQueue j k p))) := by
  let q : Part := modPort k (fun t => { t with job := some j }) (leaveQueue j k p)
  have hbytes' : ((leaveQueue j k p).job j).queuedBytes ≠ 0 := by simpa using hbytes
  have hbusy : (q.port k).decide (q.printerSetup k).enable = .busy := by simpa [q] using hdecide
  have hidle : (q.port k).state = .idle := by simpa [q] using hstate
  calc grantJob k j p
    _ = decidePort k q := if_neg hbytes'
    _ = enterRunning k .busy q := by rw [decidePort_running (by rw [hbusy, hidle]; decide) (by rw [hbusy]; rfl), hbusy]
    _ = _ := enterRunning_job (j := j) _ (by simp [q])
    _ = _ := by
      refine reach_filled fun i hi e he => ?_
      have hij : i = j := by simpa [q] using hi.symm
      subst hij
      exact hchain e (by simpa [q] using he)

/-- A decision that gives the port a job ends the port's grants (R113). -/
theorem servePort_grants {q : Part} {j : JobNo} (hgrant : grantOnce k p = some (grantJob k j q))
    (hstate : (q.port k).state = .idle)
    (hdecide : ({ q.port k with job := some j } : PrinterPort).decide (q.printerSetup k).enable = .busy)
    (hbytes : (q.job j).queuedBytes ≠ 0) (hchain : ∀ e ∈ (q.job j).chain, e.fill ≠ 0)
    (hpending : (q.port k).loadPending = false) : servePort k p =
      updJob j (fun x => { x with state := .printing, hold := none }) 0
        (runningPort k .busy (modPort k (fun t => { t with job := some j }) (leaveQueue j k q))) := by
  rw [grantJob_prints hstate hdecide hbytes hchain] at hgrant
  have hdone : ∀ r : Part, (r.port k).state = .busy → grantOnce k r = none := fun r hr =>
    grantOnce_notIdle (by rw [hr]; decide)
  simp only [servePort, Config.queueCapacity, grantLoop, hgrant]
  rw [hdone]
  · exact idleLoad_notPending (by simpa using hpending)
  · simp

/-- A job granted with no bytes is DONE at once, and an empty queue ends the grants (R98). -/
theorem servePort_finishes {q : Part} {j : JobNo} (hgrant : grantOnce k p = some (grantJob k j q))
    (hbytes : (q.job j).queuedBytes = 0) (hqueue : q.queue k = [j]) (hpending : (q.port k).loadPending = false) :
    servePort k p = finishJob j (leaveQueue j k q) := by
  have hbytes' : ((leaveQueue j k q).job j).queuedBytes = 0 := by simpa using hbytes
  have hdone : grantJob k j q = finishJob j (leaveQueue j k q) := if_pos hbytes'
  have hempty : (finishJob j (leaveQueue j k q)).queue k = [] := by simp [hqueue]
  rw [hdone] at hgrant
  simp only [servePort, Config.queueCapacity, grantLoop, hgrant, grantOnce_empty hempty]
  exact idleLoad_notPending (by simpa using hpending)

/-- The last condition of a port with no job clears: the port is IDLE, and its queue is served (R101, R103). -/
theorem conditionChange_clears (hon : (p.printerSetup k).enable = true) (hstate : (p.port k).state = .paperOut)
    (hjob : (p.port k).job = none) (hfault : (p.port k).fault = false) (hdeselected : (p.port k).deselected = false)
    (hstalled : (p.port k).stalled = false) : conditionChange k .paperOut false p =
      servePort k (runningPort k .idle (modPort k (fun t => { t with paperOut := false }) p)) := by
  let q : Part := modPort k (fun t => { t with paperOut := false }) p
  have hkept : (q.port k).state = .paperOut := by simpa [q] using hstate
  have hdecide : (q.port k).decide (q.printerSetup k).enable = .idle := by
    simp [q, PrinterPort.decide, hon, hjob, hfault, hdeselected, hstalled]
  have hrun : decidePort k q = runningPort k .idle q := by
    rw [decidePort_running (by rw [hdecide, hkept]; decide) (by rw [hdecide]; rfl), hdecide]
    exact enterRunning_noJob _ (by simpa [q] using hjob)
  calc conditionChange k .paperOut false p
    _ = redecide k q := if_neg (by rw [hkept]; decide)
    _ = servePort k (runningPort k .idle q) := by rw [redecide, hrun]

end

end Part

/-- Settles O24: the loads by their equations, the scan by the distance to the first hit, and a decision by the scan. -/
theorem grantTablesAreLoadedAndScanned : Obligations.GrantTablesAreLoadedAndScanned := by
  refine ⟨?load, ?scan, ⟨fun b n => rfl, fun tag => rfl⟩, ?grant, ?table, fun l i => ⟨fun h => ?cls, fun h => ?empty⟩⟩
  case load =>
    intro s k h t c
    refine ⟨fun hjob hqueue hloading => ?_, fun hwaits => ?_⟩
    · refine onPart_command_eq h ((Part.loadGrant_ofNat k s.part).trans ?_)
      rw [Part.idleLoad_begins (by simp) (by simpa using hjob) (by simpa using hqueue) (by simpa using hloading)]
      exact Part.modPort_modPort ..
    · exact onPart_command_eq h ((Part.loadGrant_ofNat k s.part).trans (Part.idleLoad_waits (by simpa using hwaits)))
  case scan =>
    intro table waiting start hit
    refine ⟨fun i hi hfirst => ?_, fun h => scanTable_nothing h 32 start, fun hstart h => ?_,
      fun h => scanTable_whole h 32 0 rfl⟩
    · have hfound := scanTable_found (table := table) (waiting := waiting) (i - start).val (n := 32) (c := start)
        (by omega) (by rw [phaseAfter_sub]; exact hi) fun m hm hhit => hfirst (phaseAfter start m) ?_ hhit
      · rwa [phaseAfter_sub] at hfound
      · have hstep : phaseAfter start m - start = ⟨m, by omega⟩ := by
          apply Fin.ext
          simp only [phaseAfter, Fin.ofNat, Fin.sub_def]
          omega
        rwa [hstep]
    · have hpos : start.val ≠ 0 := fun h0 => hstart (Fin.ext h0)
      exact scanTable_wrapped (31 - start.val) (by omega) (by omega) h
  case grant =>
    intro s k hheld hon t c waits scan hstate hjob hfault hdeselected hstalled hhandshake hloading hpending j habort hchain granted
    let p : Part := Part.runningPort k .idle (Part.modPort k (fun t => { t with paperOut := false }) s.part)
    have hchange : s.part.conditionChange k .paperOut false = Part.servePort k p :=
      Part.conditionChange_clears hon hstate hjob hfault hdeselected hstalled
    have hqueue : p.queue k = s.part.queue k := by simp [p]
    have hwaits : p.waits k = waits := by
      funext c
      simp [p, Part.waits, waits]
    have hscan : scanTable (p.port k).table (p.waits k) false 32 (p.port k).pointer = scan := by
      rw [hwaits]
      simp [p, scan, t]
    have hset : (s.part.port k).fault = false ∧ (s.part.port k).deselected = false := ⟨hfault, hdeselected⟩
    have hnext : ∀ q, Part.servePort k p = q → exec c s = .next (s.withPart q) := fun q h =>
      congrArg (fun q => Host.Outcome.next (s.withPart q)) (hchange.trans h)
    refine ⟨fun hbytes i hi hj => ?_, fun hbytes hi hj => ?_, fun hbytes hj => ?_⟩
    · have hgrant := Part.grantOnce_found (p := p) (k := k) (j := j) (i := i) (by simp [p]) (by simpa [p] using hloading)
        (by simpa [p] using hpending) (hscan.trans hi) (by simpa [p] using hj)
      have hserve := Part.servePort_grants hgrant (by simp [p])
        (by simp [p, PrinterPort.decide, hon, hset]) (by simpa [p] using hbytes)
        (by simpa [p] using hchain) (by simpa [p] using hpending)
      exact ⟨_, ⟨hnext _ hserve, by simp [State.withPart], by simp [State.withPart], by simp [State.withPart, p],
        by simp [State.withPart, p], by simp [State.withPart, p], rfl⟩,
        by simp [State.withPart]⟩
    · have hgrant := Part.grantOnce_nothing (p := p) (k := k) (j := j) (by simp [p]) (by simpa [p] using hloading)
        (by simpa [p] using hpending) (hscan.trans hi) (by simpa [p] using hj)
      have hserve := Part.servePort_grants hgrant (by simp [p])
        (by simp [p, PrinterPort.decide, hon, hset]) (by simpa [p] using hbytes)
        (by simpa [p] using hchain) (by simpa [p] using hpending)
      exact ⟨_, ⟨hnext _ hserve, by simp [State.withPart], by simp [State.withPart], by simp [State.withPart, p],
        by simp [State.withPart, p], by simp [State.withPart, p], rfl⟩,
        by simp [State.withPart, p, t]⟩
    · obtain ⟨i, hgrant⟩ := Part.grantOnce_single (p := p) (k := k) (j := j) (by simp [p]) (by simpa [p] using hloading)
        (by simpa [p] using hpending) (hqueue.trans hj)
      have hserve := Part.servePort_finishes hgrant (by simpa [p] using hbytes) (by simpa [p] using hj)
        (by simpa [p] using hpending)
      exact ⟨_, hnext _ hserve, by simp [State.withPart], by simp [State.withPart], by simp [State.withPart, p, hj],
        by simp [State.withPart, p], by simpa [State.withPart, p] using hjob⟩
  case table =>
    intro s k l hheld hwait harb htask hloading hlow t v
    have hwork := Part.loaderWork_table hwait htask (Part.tableWork_eq hloading hlow)
    have hturn : Part.memoryGrant (s.part, s.mem) =
        (Part.tableByte k l v { s.part with arbiter := 0 }, s.mem) := by
      rw [Part.memoryGrant_turn s.mem hheld hwait (by rw [harb]; exact congrArg Option.isSome hwork), harb]
      exact Part.loaderCycle_table s.mem hwork
    have hnext : ∀ {q}, Part.tableByte k l v { s.part with arbiter := 0 } = q →
        exec .memoryPortGrant s = .next (s.withPart q) := fun {q} h => by
      show onBoth Part.memoryGrant s = _
      rw [onBoth, hturn, h]
      rfl
    exact ⟨fun h => hnext (Part.tableByte_more v h), fun h hqueue => hnext (Part.tableByte_last v h hqueue)⟩
  case cls =>
    rw [get_readTable, readClass_lt h]
    rfl
  case empty => rw [get_readTable, readClass_ge h]

end Sys2Proof.Machine
end

section
/-! PROOF. The state of a branch switch, the stop of its engine and the flush, and the host's ISOLATE, RESTORE and
PROBE (O25, O26). -/

namespace Sys2Proof.Machine

@[simp] theorem State.withPart_mem (s : State) (q : Part) : (s.withPart q).mem = s.mem := rfl

@[simp] theorem State.withPart_part (s : State) (q : Part) : (s.withPart q).part = q := rfl

/-- A switch as it takes a state: the indicator follows, and leaving ISOLATED ends the restore (R142, R149). -/
def Switch.entering (new : SwitchState) (w : Switch) : Switch :=
  { w with state := new
           lamp := if new.lamp = w.state.lamp then w.lamp else decide (new.lamp ≠ .off)
           restore := if w.state = .isolated ∧ new ≠ .isolated then none else w.restore
           check := if w.state = .isolated ∧ new ≠ .isolated then false else w.check }

/-- An engine as it enters STOPPED: the reservation of a frame under verdict stays (R26). -/
def Engine.halted (g : Engine) : Engine :=
  { g with state := .stopped, phase := .none, exch := none, txRead := none, strayRun := none,
           arriving := none, order := [], visiting := none, listen := none,
           reservation := if g.phase = .verdict then g.reservation else none }

theorem EngineState.running_of_ne {x : EngineState} (h : x ≠ .stopped) (h' : x ≠ .stopping) : x.running = true := by
  cases x
  · exact absurd rfl h
  · rfl
  · rfl
  · exact absurd rfl h'

namespace Part

section

variable {p : Part} {b : Branch}

/-! ## What a change of state does to the switch and leaves unchanged (R142, R149) -/

@[simp] theorem setSwitch_switch (b : Branch) (new : SwitchState) (p : Part) :
    (setSwitch b new p).switch b = (p.switch b).entering new := by
  unfold setSwitch
  extract_lets old p1 p2
  have hp1 : p1.switch b = (p.switch b).entering new := by simp [p1, old, Switch.entering]
  have hp2 : p2.switch b = p1.switch b := by
    unfold p2
    split <;> rfl
  split <;> simp [hp1, hp2]

theorem setSwitch_switch_ne {c : Branch} (new : SwitchState) (p : Part) (h : c ≠ b) :
    (setSwitch b new p).switch c = p.switch c := by
  unfold setSwitch
  extract_lets old p1 p2
  have hp1 : p1.switch c = p.switch c := switch_modSwitch_ne _ _ _ _ h
  have hp2 : p2.switch c = p1.switch c := by
    unfold p2
    split <;> rfl
  split <;> simp [hp1, hp2]

theorem setSwitch_eq (b : Branch) (new : SwitchState) (p : Part) : setSwitch b new p = { p with
    switches := (setSwitch b new p).switches, sense := (setSwitch b new p).sense
    toTrunk := (setSwitch b new p).toTrunk } := by
  simp only [setSwitch, toTrunkEvent, modToTrunk]
  split <;> split <;> rfl

theorem setSwitch_sense (new : SwitchState) (h : (p.switch b).state ≠ .isolated) :
    (setSwitch b new p).sense = p.sense := by
  unfold setSwitch
  extract_lets old p1 p2
  have hp2 : p2 = p1 := if_neg fun ⟨hold, _⟩ => h hold
  rw [hp2]
  split <;> simp [p1]

/-- A switch that is not ISOLATED changes its state: the sense sequencer is left as it is. -/
theorem setSwitch_eq_of_ne (new : SwitchState) (h : (p.switch b).state ≠ .isolated) : setSwitch b new p = { p with
    switches := (setSwitch b new p).switches, toTrunk := (setSwitch b new p).toTrunk } := by
  conv => lhs; rw [setSwitch_eq, setSwitch_sense new h]

theorem setSwitch_checks (new : SwitchState) (h : (p.switch b).state = .isolated) (hnew : new ≠ .isolated) :
    (setSwitch b new p).sense = { p.sense with checks := put p.sense.checks b false } := by
  unfold setSwitch
  extract_lets old p1 p2
  have hp2 : p2 = modSense (fun q => { q with checks := put q.checks b false }) p1 := if_pos ⟨h, hnew⟩
  rw [hp2]
  split <;> rfl

/-- The switch as the movement to OPEN begins. -/
@[simp] theorem moveOpen_switch (b : Branch) (p : Part) : (moveOpen b p).switch b =
    { p.switch b with rline := false, rprobe := false, relay := .moving .open (p.branchSetup b).settleMs } := by
  simp [moveOpen, releaseDrives]

/-! ## The flush of a transmit queue (R24) -/

/-- A completed entry leaves the queue of its engine (R23). -/
theorem completeEntry_engine (b : Branch) (e : TxEntry) (c : TxCode) (p : Part) :
    ∃ n, (completeEntry b e c p).engine b = { p.engine b with
      queue := (p.engine b).queue.filter fun x => x.buf != e.buf
      exch := (p.engine b).exch.map fun x => if x.entry = some e.buf then { x with entry := none } else x
      relayDropped := n } := by
  unfold completeEntry
  extract_lets p1 p2 p3
  have hp2 : p2.engine b = p1.engine b := by
    unfold p2
    split <;> simp
  have hp3 : ∃ n, p3.engine b = { p2.engine b with relayDropped := n } := by
    unfold p3
    split
    · exact ⟨_, by simp [doneSlot]; rfl⟩
    · split
      · exact ⟨_, by simp; rfl⟩
      · exact ⟨_, rfl⟩
  obtain ⟨n, hn⟩ := hp3
  have hp1 : p1.engine b = _ := engine_modEngine_self ..
  have hlast : (toTrunkEvent (freeBuffer e.buf p3)).engine b = p3.engine b := by simp
  exact ⟨n, by rw [hlast, hn, hp2, hp1]⟩

/-- With no exchange in progress the flush empties the queue. -/
theorem completeEntries_engine (c : TxCode) (l : List TxEntry) : ∀ p : Part, (p.engine b).exch = none →
    ∃ n, (each l (fun e q => if (q.engine b).inFlight = some e.buf then
        modEngine b (fun g => { g with exch := g.exch.map fun x =>
          if x.endCode.isNone then { x with endCode := some c } else x }) q
      else completeEntry b e c q) p).engine b = { p.engine b with
        queue := (p.engine b).queue.filter fun x => l.all fun e => x.buf != e.buf, relayDropped := n } := by
  induction l with
  | nil =>
    intro p _
    have hall : (p.engine b).queue.filter (fun x => ([] : List TxEntry).all fun e => x.buf != e.buf) = (p.engine b).queue :=
      List.filter_eq_self.mpr fun _ _ => rfl
    refine ⟨(p.engine b).relayDropped, ?_⟩
    rw [hall]
    rfl
  | cons e l ih =>
    intro p hexch
    obtain ⟨n, hn⟩ := completeEntry_engine b e c p
    have hfree : (p.engine b).inFlight ≠ some e.buf := by simp [Engine.inFlight, hexch]
    obtain ⟨m, hm⟩ := ih (completeEntry b e c p) (by simp [hn, hexch])
    refine ⟨m, ?_⟩
    simp only [each, List.foldl_cons, if_neg hfree] at hm ⊢
    rw [hm, hn]
    simp [hexch, List.filter_filter, Bool.and_comm]

theorem flushQueue_engine (h : (p.engine b).exch = none) :
    ∃ n, (flushQueue b p).engine b = { p.engine b with queue := [], relayDropped := n } := by
  obtain ⟨n, hn⟩ := completeEntries_engine (b := b) .isolated ((p.engine b).queue.filter fun _ => true) p h
  refine ⟨n, hn.trans ?_⟩
  have hnone : ((p.engine b).queue.filter fun x =>
      ((p.engine b).queue.filter fun _ => true).all fun e => x.buf != e.buf) = [] := by
    rw [List.filter_eq_nil_iff]
    intro x hx hall
    have := List.all_eq_true.mp hall x (List.mem_filter.mpr ⟨hx, rfl⟩)
    simp at this
  rw [hnone]

theorem switchFlush_engine (h : (p.engine b).exch = none) :
    ∃ n, (switchFlush b p).engine b = { p.engine b with queue := [], relayDropped := n } := by
  simpa [switchFlush] using flushQueue_engine h

/-! ## The stop of an engine (R25, R26) -/

@[simp] theorem haltEngine_engine (b : Branch) (p : Part) : (haltEngine b p).engine b = (p.engine b).halted := by
  unfold haltEngine
  extract_lets g p1
  have hp1 : p1.engine b = g.halted := engine_modEngine_self ..
  split
  · exact hp1
  · split <;> simp [hp1, g]

theorem haltEngine_engine_ne {c : Branch} (p : Part) (h : c ≠ b) : (haltEngine b p).engine c = p.engine c := by
  unfold haltEngine
  extract_lets g p1
  have hp1 : p1.engine c = p.engine c := engine_modEngine_ne _ _ _ _ h
  split
  · exact hp1
  · split <;> simp [hp1]

@[simp] theorem enterStopped_engine (b : Branch) (p : Part) : (enterStopped b p).engine b = (p.engine b).halted := by
  simp [enterStopped]

/-- The engine's stop takes a switch that drains to OPENING, its queue flushed (R145). -/
theorem stopReported_draining (h : (p.switch b).state = .draining) :
    stopReported b p = moveOpen b (setSwitch b .opening (switchFlush b p)) := if_pos h

theorem stopReported_other (h : (p.switch b).state ≠ .draining) : stopReported b p = p := if_neg h

theorem stopRequest_stopped (h : (p.engine b).state = .stopped) : stopRequest b p = stopReported b p := by
  simp only [stopRequest, h]

theorem stopRequest_stopping (h : (p.engine b).state = .stopping) : stopRequest b p = p := by
  simp only [stopRequest, h]

/-- A running engine completes the exchange in progress before it stops. -/
theorem stopRequest_exchange (h : (p.engine b).state.running = true) (hphase : (p.engine b).phase.inExchange = true) :
    stopRequest b p = modEngine b (fun g => { g with state := .stopping }) p := by
  cases hstate : (p.engine b).state <;> simp [hstate, EngineState.running] at h <;>
    simp only [stopRequest, hstate, hphase, if_true]

theorem stopRequest_between (h : (p.engine b).state.running = true) (hphase : (p.engine b).phase.inExchange = false)
    (hlisten : (p.engine b).phase ≠ .listen) : stopRequest b p = stopReported b (enterStopped b p) := by
  cases hstate : (p.engine b).state <;> simp [hstate, EngineState.running] at h <;>
    simp only [stopRequest, hstate, hphase, hlisten, Bool.false_eq_true, if_false]

/-! ## Isolation requests (R144) -/

/-- A switch as an isolation request is taken. -/
def isolating (r : IsoReason) (d : Destination) (w : Switch) : Switch :=
  { w with reason := some r, dest := some d, verdict := .none, trial := 0 }

theorem requestIsolation_running {r : IsoReason} {d : Destination} (h : (p.switch b).state.running = true) :
    requestIsolation b r d p = stopRequest b (setSwitch b .draining (modSwitch b (isolating r d) p)) := if_pos h

theorem requestIsolation_other {r : IsoReason} {d : Destination} (h : (p.switch b).state.running = false) :
    requestIsolation b r d p = p := if_neg (by simp [h])


/-! ## ISOLATE (R151) -/

theorem isolate_running (h : (p.switch p.branchSel).state.running = true) :
    isolate p = requestIsolation p.branchSel .host .lockedOut p := by
  unfold isolate
  extract_lets b
  split <;> rename_i hstate
  · rfl
  · rfl
  all_goals exact absurd h (by simp [show (p.switch p.branchSel).state = _ from hstate, SwitchState.running])

/-! ## RESTORE and PROBE (R150, R151, R154) -/

/-- A switch as a restore by the host begins. -/
def restoring (w : Switch) : Switch := { w with isolations := 0, verdict := .none, closingFor := .restore }

theorem modSwitch_modSwitch (b : Branch) (f g : Switch → Switch) (p : Part) :
    modSwitch b f (modSwitch b g p) = modSwitch b (f ∘ g) p := by
  simp only [modSwitch, put_put, switch, get_put_self, Function.comp]

/-- With the fault input high the relay moves to LINE (R141). -/
theorem assertLine_high (h : (p.switch b).rflt = false) : assertLine b p = modSwitch b (fun w =>
    { w with rline := true, rprobe := false, relay := .moving .line (p.branchSetup b).settleMs }) p :=
  if_neg (by simp [h])

theorem takeRestore_high (h : (p.switch b).rflt = false) : takeRestore b p = modSwitch b (fun w =>
    { w with rline := true, rprobe := false, relay := .moving .line (p.branchSetup b).settleMs })
      (setSwitch b .closing (modSwitch b restoring p)) := by
  have htwo : takeRestore b p = assertLine b (setSwitch b .closing (modSwitch b restoring p)) :=
    congrArg (fun q => assertLine b (setSwitch b .closing q)) (modSwitch_modSwitch ..)
  rw [htwo, assertLine_high]
  · simp
  · simpa [Switch.entering, restoring] using h

theorem restore_takes (h : (p.switch p.branchSel).state = .isolated ∨ (p.switch p.branchSel).state = .lockedOut) :
    restore p = takeRestore p.branchSel p := by
  unfold restore
  rcases h with h | h <;> simp only [h]

theorem probeByHost_asks (h : (p.switch p.branchSel).state = .isolated ∨ (p.switch p.branchSel).state = .lockedOut) :
    probeByHost p = askProbe p.branchSel
      (if (p.switch p.branchSel).state = .isolated then .isolated else .lockedOut) true p := by
  unfold probeByHost
  rcases h with h | h <;> simp only [h, if_true, reduceCtorEq, if_false]

end

end Part

/-- Settles O25: the request by the state of the switch, its stop by what the engine is doing. -/
theorem isolateOfTheBranchHeld : Obligations.IsolateOfTheBranchHeld := by
  intro s hs b w
  have hexec : ∀ {q}, Part.isolate s.part = q → exec .isolate s = .next (s.withPart q) := onPart_command_eq hs
  refine ⟨fun hstate => ?_, fun hstate => hexec ?_, fun hstate => hexec ?_⟩
  · have hrun : (s.part.switch b).state.running = true := by
      rcases hstate with h | h <;> rw [show (s.part.switch b).state = _ from h] <;> rfl
    let taken : Part := Part.modSwitch b (Part.isolating .host .lockedOut) s.part
    let draining : Part := Part.setSwitch b .draining taken
    have htaken : (taken.switch b).state ≠ .isolated := by
      rcases hstate with h | h <;> simp [taken, Part.isolating, show (s.part.switch b).state = _ from h]
    have hdraining : draining = { taken with switches := draining.switches, toTrunk := draining.toTrunk } :=
      Part.setSwitch_eq_of_ne .draining htaken
    have hengine : draining.engine b = s.part.engine b := by simp [draining, taken]
    have hswitch : draining.switch b = (Part.isolating .host .lockedOut (s.part.switch b)).entering .draining := by
      simp [draining, taken]
    have hiso : Part.isolate s.part = Part.stopRequest b draining :=
      (Part.isolate_running hrun).trans (Part.requestIsolation_running hrun)
    refine ⟨fun hengines hphase => ?_, fun hengines hexch hnot => ?_⟩
    · have hstop := Part.stopRequest_exchange (p := draining) (b := b)
        (by rw [hengine]; rcases hengines with h | h <;> rw [h] <;> rfl) (by rw [hengine]; exact hphase)
      refine ⟨_, hexec (hiso.trans hstop), ?_⟩
      have hw := (Part.modEngine_views b (fun g => { g with state := .stopping }) draining).1 b |>.trans hswitch
      refine ⟨congrArg Switch.state hw, congrArg Switch.dest hw, congrArg Switch.reason hw, congrArg Switch.verdict hw,
        congrArg Switch.trial hw, congrArg Engine.state (Part.engine_modEngine_self ..), congrArg s.withPart ?_⟩
      let engines : Vector Engine 4 := (Part.modEngine b (fun g => { g with state := .stopping }) draining).engines
      exact congrArg (fun q : Part => { q with engines := engines }) hdraining
    · obtain ⟨q, hq, hqswitch, hqstate, hqres, hqexch, hqsetup⟩ : ∃ q : Part,
          Part.stopRequest b draining = Part.stopReported b q ∧ q.switch b = draining.switch b
          ∧ (q.engine b).state = .stopped ∧ (q.engine b).reservation =
              (if (s.part.engine b).state = .stopped then (s.part.engine b).reservation else none)
          ∧ (q.engine b).exch = none ∧ q.branchSetup b = s.part.branchSetup b := by
        by_cases hstopped : (s.part.engine b).state = .stopped
        · exact ⟨draining, Part.stopRequest_stopped (by rw [hengine]; exact hstopped), rfl, hengine ▸ hstopped,
            by rw [hengine, if_pos hstopped], hengine ▸ hexch, by simp [draining, taken]⟩
        · have hphase : (s.part.engine b).phase = .none ∨ (s.part.engine b).phase = .padding :=
            hengines.resolve_left hstopped
          have hrunning : (s.part.engine b).state.running = true :=
            EngineState.running_of_ne hstopped hnot
          refine ⟨Part.enterStopped b draining, Part.stopRequest_between ?_ ?_ ?_, by simp, ?_, ?_, ?_, ?_⟩
          · rw [hengine]; exact hrunning
          · rw [hengine]; rcases hphase with h | h <;> rw [h] <;> rfl
          · rw [hengine]; rcases hphase with h | h <;> rw [h] <;> decide
          · simp [Engine.halted]
          · rcases hphase with h | h <;> simp [Engine.halted, hengine, hstopped, h]
          · simp [Engine.halted]
          · simp [draining, taken]
      obtain ⟨n, hn⟩ := Part.switchFlush_engine hqexch
      have hopen : Part.stopReported b q = Part.moveOpen b (Part.setSwitch b .opening (Part.switchFlush b q)) :=
        Part.stopReported_draining (by rw [hqswitch, hswitch]; rfl)
      have hw := Part.moveOpen_switch b (Part.setSwitch b .opening (Part.switchFlush b q))
      rw [Part.setSwitch_switch, (Part.switchFlush_views b q).1, hqswitch, hswitch] at hw
      have hsettle : RelayPos.moving .open ((Part.setSwitch b .opening (Part.switchFlush b q)).branchSetup b).settleMs =
          .moving .open (s.part.branchSetup b).settleMs := by simp [hqsetup]
      have he : (Part.moveOpen b (Part.setSwitch b .opening (Part.switchFlush b q))).engine b = _ :=
        (by simp : _ = (Part.switchFlush b q).engine b).trans hn
      refine ⟨_, hexec (hiso.trans (hq.trans hopen)), congrArg Switch.state hw, congrArg Switch.dest hw,
        congrArg Switch.reason hw, congrArg Switch.verdict hw, congrArg Switch.trial hw, congrArg Switch.rline hw,
        congrArg Switch.rprobe hw, (congrArg Switch.relay hw).trans hsettle, (congrArg Engine.state he).trans hqstate,
        congrArg Engine.queue he, (congrArg Engine.reservation he).trans hqres, s.withPart_mem _⟩
  · unfold Part.isolate
    rcases hstate with h | h | h | h <;> simp only [show (s.part.switch s.part.branchSel).state = _ from h] <;> rfl
  · unfold Part.isolate
    rcases hstate with h | h | h <;> simp only [show (s.part.switch s.part.branchSel).state = _ from h] <;> rfl

/-- Settles O26: the drive to LINE and the place in the probe queue, by the state of the switch. -/
theorem restoreAndProbeOfTheBranchHeld : Obligations.RestoreAndProbeOfTheBranchHeld := by
  refine ⟨fun s hs => ?_, fun s hs => ?_⟩ <;> intro b w
  · have hexec : ∀ {q}, Part.restore s.part = q → exec .restore s = .next (s.withPart q) := onPart_command_eq hs
    refine ⟨fun hstate hfault => ?_, fun hstate => hexec ?_, fun hstate => hexec ?_⟩
    · let q : Part := Part.modSwitch b Part.restoring s.part
      let line : Switch → Switch := fun w =>
        { w with rline := true, rprobe := false, relay := .moving .line (s.part.branchSetup b).settleMs }
      have hw : (Part.modSwitch b line (Part.setSwitch b .closing q)).switch b =
          line ((Part.restoring (s.part.switch b)).entering .closing) := by simp [q]
      refine ⟨_, hexec ((Part.restore_takes hstate).trans (Part.takeRestore_high hfault)), congrArg Switch.state hw,
        congrArg Switch.rline hw, congrArg Switch.rprobe hw, congrArg Switch.relay hw, congrArg Switch.isolations hw,
        congrArg Switch.verdict hw, fun hisolated => ⟨(congrArg Switch.restore hw).trans ?_,
          (congrArg Switch.check hw).trans ?_, ?_⟩, congrArg s.withPart ?_⟩
      · exact if_pos ⟨hisolated, by decide⟩
      · exact if_pos ⟨hisolated, by decide⟩
      · have hsense := Part.setSwitch_checks (p := q) (b := b) .closing (by simpa [q, Part.restoring] using hisolated)
          (by decide)
        exact (congrArg (fun x : Sense => x.checks.get b) hsense).trans (get_put_self ..)
      · let switches : Vector Switch 4 := (Part.modSwitch b line (Part.setSwitch b .closing q)).switches
        exact congrArg (fun q : Part => { q with switches := switches }) (Part.setSwitch_eq b .closing q)
    · unfold Part.restore
      rcases hstate with h | h | h | h <;> simp only [show (s.part.switch s.part.branchSel).state = _ from h] <;> rfl
    · unfold Part.restore
      rcases hstate with h | h | h <;> simp only [show (s.part.switch s.part.branchSel).state = _ from h] <;> rfl
  · have hexec : ∀ {q}, Part.probeByHost s.part = q → exec .probe s = .next (s.withPart q) := onPart_command_eq hs
    refine ⟨fun hstate => ?_, fun hstate => hexec ?_, fun hstate => hexec ?_⟩
    · let back : ReturnState := if (s.part.switch b).state = .isolated then .isolated else .lockedOut
      have hback : some back = if (s.part.switch b).state = .isolated then some .isolated else some .lockedOut := by
        unfold back
        split <;> rfl
      have hw : (Part.askProbe b back true s.part).switch b =
          { (s.part.switch b).entering .probing with back := some back, byHost := true, restore := none } := by
        simp [Part.askProbe]
      refine ⟨_, hexec (Part.probeByHost_asks hstate), congrArg Switch.state hw, congrArg Switch.restore hw,
        (congrArg Switch.back hw).trans hback, congrArg Switch.byHost hw, by simp [Part.askProbe, b],
        by simp [Part.askProbe], congrArg s.withPart ?_⟩
      let switches : Vector Switch 4 := (Part.askProbe b back true s.part).switches
      let probe : ProbeUnit := (Part.askProbe b back true s.part).probe
      exact congrArg (fun q : Part => { q with switches := switches, probe := probe })
        (Part.setSwitch_eq b .probing s.part)
    · unfold Part.probeByHost
      rcases hstate with h | h | h | h <;> simp only [show (s.part.switch s.part.branchSel).state = _ from h] <;> rfl
    · unfold Part.probeByHost
      rcases hstate with h | h | h <;> simp only [show (s.part.switch s.part.branchSel).state = _ from h] <;> rfl

end Sys2Proof.Machine
end

section
/-! PROOF. The class of a host write, what it does, and the bus's accesses against the commands (O27, O28). -/

namespace Sys2Proof.Machine

namespace Part

/-! ## The class of a host write (R160, R165) -/

section

variable {p : Part} {a : Nat}

theorem writeClass_page (h : a < 0x100) :
    writeClass p a = if 0x01 ≤ a ∧ a ≤ 0x11 then .command else .ignored := if_pos h

/-- The images that only the part writes block every write. -/
theorem writeClass_partOwned (hpage : 0x100 ≤ a) (h : partImage a = true ∨ stationFields a = true) :
    writeClass p a = .blocked := by
  have hown : (partImage a || stationFields a) = true := by simpa using h
  rw [writeClass, if_neg (Nat.not_lt.mpr hpage), if_pos hown]

/-- Outside them the class turns on INIT and, in the pool, on the host-held set. -/
theorem writeClass_shared (hpage : 0x100 ≤ a) (himage : partImage a = false) (hfields : stationFields a = false) :
    writeClass p a = if initRegion a && decide (p.loader.startState = .init) then .blocked
      else if Config.poolBase ≤ a ∧ !poolHeld p a then .blocked else .passes := by
  rw [writeClass, if_neg (Nat.not_lt.mpr hpage), if_neg (by simp [himage, hfields])]

/-- A table that INIT writes takes the host's writes once INIT is over. -/
theorem writeClass_table (h : (0x00100 ≤ a ∧ a < 0x00960) ∨ (0x01000 ≤ a ∧ a < 0x02000 ∧ a % 16 < 7)
      ∨ (0x02000 ≤ a ∧ a < 0x02D00)) :
    writeClass p a = if p.loader.startState = .init then .blocked else .passes := by
  have hregion : initRegion a = true := by simp [initRegion, within]; omega
  have hpool : ¬ (Config.poolBase ≤ a ∧ (!poolHeld p a) = true) := fun ⟨hlo, _⟩ => by
    simp only [Config.poolBase] at hlo
    omega
  rw [writeClass_shared (by omega) (by simp [partImage, within]; omega) (by simp [stationFields, within]; omega),
    if_neg hpool]
  simp only [hregion, Bool.true_and, decide_eq_true_eq]

/-- The rest of the host's memory below the pool takes every write. -/
theorem writeClass_open (h : (0x00960 ≤ a ∧ a < 0x00980) ∨ (0x00E80 ≤ a ∧ a < 0x01000) ∨ (0x02D00 ≤ a ∧ a < 0x10000)) :
    writeClass p a = .passes := by
  have hregion : initRegion a = false := by simp [initRegion, within]; omega
  have hpool : ¬ (Config.poolBase ≤ a ∧ (!poolHeld p a) = true) := fun ⟨hlo, _⟩ => by
    simp only [Config.poolBase] at hlo
    omega
  rw [writeClass_shared (by omega) (by simp [partImage, within]; omega) (by simp [stationFields, within]; omega),
    if_neg (by simp [hregion]), if_neg hpool]

/-- A byte of a pool buffer is the host's to write while the buffer is in the host-held set (R57, R166). -/
theorem writeClass_buffer (n : BufNo) {i : Nat} (hi : i < 256) : writeClass p (0x10000 + 256 * n.val + i) =
    if n ∈ p.pool.hostHeld then .passes else .blocked := by
  have hbuf : Fin.ofNat 256 ((0x10000 + 256 * n.val + i - Config.poolBase) / Config.bufferBytes) = n := by
    apply Fin.ext
    simp only [Fin.ofNat, Config.poolBase, Config.bufferBytes]
    omega
  have hheld : poolHeld p (0x10000 + 256 * n.val + i) = p.pool.hostHeld.contains n := by rw [poolHeld, hbuf]
  have hregion : initRegion (0x10000 + 256 * n.val + i) = false := by simp [initRegion, within]; omega
  rw [writeClass_shared (by omega) (by simp [partImage, within]; omega) (by simp [stationFields, within]; omega),
    if_neg (by simp [hregion]), hheld]
  by_cases h : n ∈ p.pool.hostHeld
  · simp [h]
  · have hlo : Config.poolBase ≤ 0x10000 + 256 * n.val + i := by simp only [Config.poolBase]; omega
    simp [h, hlo]

/-! ## Entries that the directory has still to read (R167) -/

theorem covered_of_watches {r : RingRead} (hr : r ∈ p.ring) (h : r.watches a = true) : p.covered a = true := by
  have hread : p.entryRead a = true := List.any_eq_true.mpr ⟨r, hr, h⟩
  simp [covered, hread]

theorem watches_unit {r : RingRead} {u : Fin 256} {i : Nat} (h : r.user = .entry (.unit u)) (hi : i < 4) :
    r.watches (0x00300 + 4 * u.val + i) = true := by
  simp [RingRead.watches, h, ImgWrite.coversWatched, ImgWrite.covers, ImgRecord.base, ImgRecord.size, Config.unitBase]
  omega

theorem watches_node {r : RingRead} {n : Fin 64} {i : Nat} (h : r.user = .entry (.node n)) (hi : i < 8) :
    r.watches (0x00700 + 8 * n.val + i) = true := by
  simp [RingRead.watches, h, ImgWrite.coversWatched, ImgWrite.covers, ImgRecord.base, ImgRecord.size, Config.nodeBase]
  omega

theorem watches_station {r : RingRead} {b : Branch} {n : StationNo} {i : Nat} (h : r.user = .entry (.station b n))
    (hi : i < 7) : r.watches (0x01000 + (64 * b.val + n.val) * 16 + i) = true := by
  simp [RingRead.watches, h, ImgWrite.coversWatched, stationAddr, Config.stationBase]
  omega

/-! ## What a host write does (R160, R171) -/

theorem trigger_plain (m : List Host.Cell) (hstation : isStationTrigger a = false) (hunit : isUnitTrigger a = false)
    (hnode : isNodeTrigger a = false) : trigger m a p = p := by
  simp [trigger, hstation, hunit, hnode]

theorem busFree_false (h : p.held = true ∨ p.hostWait.isSome = true) : p.busFree = false := by
  rcases h with h | h
  · simp [busFree, h]
  · cases hwait : p.hostWait <;> simp_all [busFree]

theorem memoryWrite_ready {a : Addr} {v : Byte} {x : Part × List Host.Cell} (hheld : x.1.held = false)
    (hwait : x.1.hostWait = none) : memoryWrite a v x =
      if x.1.covered a.toNat then ({ x.1 with hostWait := some (.write a v) }, x.2) else makeWrite a v x := by
  simp [memoryWrite, busFree, hheld, hwait]

/-- No write is made while the bus is not free. -/
theorem memoryWrite_busy {a : Addr} {v : Byte} {x : Part × List Host.Cell}
    (h : x.1.held = true ∨ x.1.hostWait.isSome = true) : memoryWrite a v x = x := by
  simp [memoryWrite, busFree_false h]

theorem command_busy {code : Byte} {act : Part → Part} (h : p.held = true ∨ p.hostWait.isSome = true) :
    command code act p = p := by
  simp [command, busFree_false h]

theorem hostWrite_memory {a : Addr} {v : Byte} (x : Part × List Host.Cell) (h : 0x100 ≤ a.toNat) :
    hostWrite a v x = memoryWrite a v x := if_neg (Nat.not_lt.mpr h)

theorem hostWrite_control {a : Addr} {v : Byte} (x : Part × List Host.Cell) (h : a.toNat < 0x100) :
    hostWrite a v x = (commandWrite a.toNat v x.1, x.2) := if_pos h

/-! ## Writes of the control page that name no command (R160, R162) -/

theorem commandWrite_ignored {c : Nat} (v : Byte) (h : c = 0 ∨ 0x11 < c) : commandWrite c v p = p := by
  unfold commandWrite
  split
  case h_18 => rfl
  all_goals omega

/-- A BRANCH_ACTION with no action's code. -/
theorem commandWrite_noAction {v : Byte} (h : isActionCode v = false) :
    commandWrite 0x0C v p = command 0x0C (refuse .badArgument 0x0C) p := by
  obtain ⟨h1, h2, h3⟩ : v ≠ 1 ∧ v ≠ 2 ∧ v ≠ 3 := by simpa [isActionCode, and_assoc] using h
  simp only [commandWrite, if_neg h1, if_neg h2, if_neg h3]

/-- A write to the control page is the command word's, and one that the bus cannot carry does nothing. -/
theorem commandWrite_busy {c : Nat} (v : Byte) (h : p.held = true ∨ p.hostWait.isSome = true) :
    commandWrite c v p = p := by
  unfold commandWrite
  split
  case h_2 => simp [softReset, busFree_false h]
  case h_18 => rfl
  all_goals exact command_busy h

end

end Part

/-- A HOST_WRITE to the memory names no trigger. -/
theorem wellFormed_hostWrite {a : Addr} {v : Byte} : (Instr.hostWrite a v).wellFormed = true ↔
    isCommandRow a.toNat v = false ∧ isStationTrigger a.toNat = false ∧ isUnitTrigger a.toNat = false
      ∧ isNodeTrigger a.toNat = false := by
  simp [Instr.wellFormed, and_assoc]

theorem exec_hostWrite (a : Addr) (v : Byte) (s : State) : exec (.hostWrite a v) s = onBoth (Part.hostWrite a v) s := rfl

/-- Settles O27: the regions of the memory map one by one, then the write by its class. -/
theorem hostWriteFollowsItsClass : Obligations.HostWriteFollowsItsClass := by
  refine ⟨fun p a ha => ⟨?command, ?ignored, ?image, ?fields, fun h => ?table, ?area, fun n i hi => ?pool⟩,
    fun p r i hr => ⟨fun u hu hi => ?_, fun n hn hi => ?_, fun b n hn hi => ?_⟩,
    fun s a v hwf => ⟨fun hready => ?ready, fun hbusy => ?busy⟩⟩
  case command =>
    intro hlo hhi
    rw [Part.writeClass_page (by omega), if_pos ⟨hlo, hhi⟩]
  case ignored =>
    intro h
    rw [Part.writeClass_page (by omega), if_neg (by omega)]
  case image =>
    intro hlo hhi
    exact Part.writeClass_partOwned (by omega) (.inl (by simp [partImage, within, hlo, hhi]))
  case fields =>
    intro b n i hlo hhi
    exact Part.writeClass_partOwned (by omega) (.inr (by simp [stationFields, within]; omega))
  case table =>
    rw [Part.writeClass_table h]
    exact ⟨fun hinit => if_pos hinit, fun hinit => if_neg hinit⟩
  case area => exact Part.writeClass_open
  case pool =>
    rw [Part.writeClass_buffer n hi]
    exact ⟨fun hn => if_pos hn, fun hn => if_neg hn⟩
  · exact Part.covered_of_watches hr (Part.watches_unit hu hi)
  · exact Part.covered_of_watches hr (Part.watches_node hn hi)
  · exact Part.covered_of_watches hr (Part.watches_station hn hi)
  case ready =>
    obtain ⟨hheld, hwait⟩ := hready
    obtain ⟨hrow, hstation, hunit, hnode⟩ := wellFormed_hostWrite.mp hwf
    refine ⟨fun ha hcovered hclass => ?_, fun ha hcovered hclass => ?_, fun ha hcovered => ?_, fun ha => ?_,
      fun ha hinit => ?_, fun ha hinit => ?_⟩
    · rw [exec_hostWrite, onBoth, Part.hostWrite_memory _ ha, Part.memoryWrite_ready hheld hwait,
        if_neg (by simp [hcovered]), Part.makeWrite_passes hclass, Part.trigger_plain _ hstation hunit hnode]
    · rw [exec_hostWrite, onBoth, Part.hostWrite_memory _ ha, Part.memoryWrite_ready hheld hwait,
        if_neg (by simp [hcovered]), Part.makeWrite_blocked hclass]
      rfl
    · rw [exec_hostWrite, onBoth, Part.hostWrite_memory _ ha, Part.memoryWrite_ready hheld hwait, if_pos hcovered]
      rfl
    · rw [exec_hostWrite, onBoth, Part.hostWrite_control _ (by omega), Part.commandWrite_ignored v (by omega)]
    · have hcode : isActionCode v = false := by simpa [isCommandRow, ha] using hrow
      rw [exec_hostWrite, onBoth, Part.hostWrite_control _ (by omega), ha, Part.commandWrite_noAction hcode,
        Part.command_taken _ _ _ hheld hwait hinit]
      rfl
    · have hcode : isActionCode v = false := by simpa [isCommandRow, ha] using hrow
      rw [exec_hostWrite, onBoth, Part.hostWrite_control _ (by omega), ha, Part.commandWrite_noAction hcode]
      simp [Part.command, Part.busFree, hheld, hwait, hinit]
      rfl
  case busy =>
    rw [exec_hostWrite, onBoth]
    by_cases ha : a.toNat < 0x100
    · rw [Part.hostWrite_control _ ha, Part.commandWrite_busy v hbusy]
    · rw [Part.hostWrite_memory _ (Nat.not_lt.mp ha), Part.memoryWrite_busy hbusy]

/-! ## The addresses that name a command (R162, R167) -/

theorem toNat_stationTriggerAddr (b : Branch) (n : StationNo) :
    (stationTriggerAddr b n).toNat = 0x01000 + (64 * b.val + n.val) * 16 + 6 := by
  simp only [stationTriggerAddr, BitVec.toNat_ofNat]
  omega

theorem toNat_unitTriggerAddr (u : Fin 256) : (unitTriggerAddr u).toNat = 0x00300 + 4 * u.val + 3 := by
  simp only [unitTriggerAddr, BitVec.toNat_ofNat]
  omega

theorem toNat_nodeTriggerAddr (n : Fin 64) : (nodeTriggerAddr n).toNat = 0x00700 + 8 * n.val + 7 := by
  simp only [nodeTriggerAddr, BitVec.toNat_ofNat]
  omega

/-- The address of a station's trigger, read as the decoder and the directory read it. -/
theorem stationTrigger_facts {a : Nat} {b : Branch} {n : StationNo} (h : a = 0x01000 + (64 * b.val + n.val) * 16 + 6) :
    isStationTrigger a = true ∧ Fin.ofNat 4 ((a - 0x01000) / 1024) = b ∧ Fin.ofNat 64 ((a - 0x01000) / 16) = n := by
  refine ⟨by simp [isStationTrigger, h]; omega, Fin.ext ?_, Fin.ext ?_⟩ <;> simp only [Fin.ofNat] <;> omega

theorem unitTrigger_facts {a : Nat} {u : Fin 256} (h : a = 0x00300 + 4 * u.val + 3) :
    isStationTrigger a = false ∧ isUnitTrigger a = true ∧ Fin.ofNat 256 ((a - 0x00300) / 4) = u := by
  refine ⟨by simp [isStationTrigger, h]; omega, by simp [isUnitTrigger, h]; omega, Fin.ext ?_⟩
  simp only [Fin.ofNat]
  omega

theorem nodeTrigger_facts {a : Nat} {n : Fin 64} (h : a = 0x00700 + 8 * n.val + 7) : isStationTrigger a = false
    ∧ isUnitTrigger a = false ∧ isNodeTrigger a = true ∧ Fin.ofNat 64 ((a - 0x00700) / 8) = n := by
  refine ⟨by simp [isStationTrigger, h]; omega, by simp [isUnitTrigger, h]; omega, by simp [isNodeTrigger, h]; omega,
    Fin.ext ?_⟩
  simp only [Fin.ofNat]
  omega

theorem ofHostWrite_station (b : Branch) (n : StationNo) (v : Byte) :
    ofHostWrite (stationTriggerAddr b n) v = .stationEdit b n v := by
  obtain ⟨htrigger, hb, hn⟩ := stationTrigger_facts (toNat_stationTriggerAddr b n)
  rw [ofHostWrite, if_pos htrigger, hb, hn]

theorem ofHostWrite_unit (u : Fin 256) (v : Byte) : ofHostWrite (unitTriggerAddr u) v = .unitMapEdit u v := by
  obtain ⟨hstation, htrigger, hu⟩ := unitTrigger_facts (toNat_unitTriggerAddr u)
  rw [ofHostWrite, if_neg (by simp [hstation]), if_pos htrigger, hu]

theorem ofHostWrite_node (n : Fin 64) (v : Byte) : ofHostWrite (nodeTriggerAddr n) v = .nodeListEdit n v := by
  obtain ⟨hstation, hunit, htrigger, hn⟩ := nodeTrigger_facts (toNat_nodeTriggerAddr n)
  rw [ofHostWrite, if_neg (by simp [hstation]), if_neg (by simp [hunit]), if_pos htrigger, hn]

/-- A write that is no command's and no trigger is a HOST_WRITE. -/
theorem ofHostWrite_plain {a : Addr} {v : Byte} (h : (Instr.hostWrite a v).wellFormed = true) :
    ofHostWrite a v = .hostWrite a v := by
  obtain ⟨hrow, hstation, hunit, hnode⟩ := wellFormed_hostWrite.mp h
  rw [ofHostWrite, if_neg (by simp [hstation]), if_neg (by simp [hunit]), if_neg (by simp [hnode])]
  unfold ofCommandWord
  split
  case h_18 => rfl
  case h_12 hcode =>
    obtain ⟨h1, h2, h3⟩ : v ≠ 1 ∧ v ≠ 2 ∧ v ≠ 3 := by simpa [isCommandRow, isActionCode, hcode, and_assoc] using hrow
    rw [if_neg h1, if_neg h2, if_neg h3]
  all_goals
    rename_i hcode
    simp [isCommandRow, hcode] at hrow

/-- A write of a trigger does what the host write of its byte does. -/
theorem exec_hostWrite_memory {a : Addr} (v : Byte) (s : State) (h : 0x100 ≤ a.toNat) :
    exec (.hostWrite a v) s = onBoth (Part.memoryWrite a v) s := by
  rw [exec_hostWrite]
  exact congrArg (fun x : Part × List Host.Cell => Host.Outcome.next { s with part := x.1, mem := x.2 })
    (Part.hostWrite_memory (s.part, s.mem) h)

/-- The write of a command is decoded to it, but for the three commands that name a write of STATION_EDIT. -/
theorem ofHostWrite_busWrite {i : Instr} {a : Addr} {v : Byte} (hwf : i.wellFormed = true)
    (hbus : busWrite i = some (a, v))
    (h : ∀ b n p, i ≠ .bar b n p ∧ i ≠ .unbar b n p ∧ i ≠ .clearConflict b n p) : ofHostWrite a v = i := by
  cases i <;> cases hbus
  case hostWrite => exact ofHostWrite_plain hwf
  case stationEdit => exact ofHostWrite_station ..
  case unitMapEdit => exact ofHostWrite_unit ..
  case nodeListEdit => exact ofHostWrite_node ..
  case bar b n p => exact absurd rfl (h b n p).1
  case unbar b n p => exact absurd rfl (h b n p).2.1
  case clearConflict b n p => exact absurd rfl (h b n p).2.2
  all_goals rfl

/-- A command does what the host write of its byte does. -/
theorem exec_busWrite {i : Instr} {a : Addr} {v : Byte} (hbus : busWrite i = some (a, v)) (s : State) :
    exec i s = exec (.hostWrite a v) s := by
  have hstation : ∀ (b : Branch) (n : StationNo) (v : Byte), onBoth (Part.memoryWrite (stationTriggerAddr b n) v) s =
      exec (.hostWrite (stationTriggerAddr b n) v) s := fun b n v =>
    (exec_hostWrite_memory v s (by rw [toNat_stationTriggerAddr]; omega)).symm
  cases i <;> cases hbus
  case stationEdit | bar | unbar | clearConflict => exact hstation ..
  case unitMapEdit u => exact (exec_hostWrite_memory _ s (by rw [toNat_unitTriggerAddr]; omega)).symm
  case nodeListEdit n => exact (exec_hostWrite_memory _ s (by rw [toNat_nodeTriggerAddr]; omega)).symm
  all_goals rfl

/-! ## Host reads (R160, R163, R164, R171, R186) -/

theorem truncate_eq_byteOf {n : Nat} (w : BitVec n) : w.truncate 8 = byteOf w.toNat 0 := by
  apply BitVec.eq_of_toNat_eq
  simp [byteOf]

namespace Part

section

variable {p : Part} {a : Nat}

/-- The read that captures a word drives the byte that the control page shows at its first address. -/
theorem captureWord_hostData {w : LiveWord} (h : liveWordAt a = some w) :
    (captureWord w p).hostData = p.controlRead a := by
  unfold liveWordAt at h
  split at h
  next ha => cases h; subst ha; exact truncate_eq_byteOf p.refusalWord
  split at h
  next ha => cases h; subst ha; exact truncate_eq_byteOf p.lastBlocked
  split at h
  next ha => cases h; subst ha; rfl
  split at h
  next ha =>
    cases h
    obtain ⟨b, rfl⟩ : ∃ b : Branch, a = 0x4C + 2 * b.val := ⟨⟨(a - 0x4C) / 2, by omega⟩, by simp only; omega⟩
    match b with
    | 0 | 1 | 2 | 3 => exact truncate_eq_byteOf (p.scoreWord _)
  split at h
  next ha =>
    cases h
    obtain ⟨b, rfl⟩ : ∃ b : Branch, a = 0x54 + 2 * b.val := ⟨⟨(a - 0x54) / 2, by omega⟩, by simp only; omega⟩
    match b with
    | 0 | 1 | 2 | 3 => exact truncate_eq_byteOf (p.branchWord _)
  exact nomatch h

/-- A read of the control page drives the byte that it shows. -/
theorem controlPageRead_hostData (a : Nat) (p : Part) : (controlPageRead a p).hostData = p.controlRead a := by
  unfold controlPageRead
  split
  next ha => subst ha; exact truncate_eq_byteOf p.notices.latches
  split
  next ha => subst ha; rfl
  split
  next ha => subst ha; rfl
  split
  · next w hw => exact captureWord_hostData hw
  · rfl

/-- The reads that change a live word are the commands of the table; every other read changes nothing. -/
theorem controlPageRead_plain (h : a ∉ [0x40, 0x44, 0x46, 0x4A, 0x4C, 0x4E, 0x50, 0x52, 0x54, 0x56, 0x58, 0x5A, 0x65, 0xFF]) :
    controlPageRead a p = drive (p.controlRead a) p := by
  simp only [List.mem_cons, List.not_mem_nil, or_false, not_or] at h
  have hword : liveWordAt a = none := by
    unfold liveWordAt
    repeat' split
    all_goals first | rfl | omega
  rw [controlPageRead, if_neg (by omega), if_neg (by omega), if_neg (by omega), hword]

theorem memoryRead_free {m : List Host.Cell} {a : Addr} (h : p.covered a.toNat = false) :
    memoryRead m a p = drive (Mem.read m a.toNat) p := if_neg (by simp [h])

theorem memoryRead_waits {m : List Host.Cell} {a : Addr} (h : p.covered a.toNat = true) :
    memoryRead m a p = { p with hostWait := some (.read a) } := if_pos h

end

end Part

section

variable {s : State} {a : Addr}

theorem hostReads_held (h : s.part.held = true) : s.hostReads a = s.withPart { s.part with hostData := 0 } := by
  have hzero : Part.hostRead s.mem a s.part = Part.drive 0 s.part := if_pos h
  exact congrArg s.withPart hzero

theorem hostReads_waiting (h : s.part.held = false) (hwait : s.part.hostWait.isSome = true) : s.hostReads a = s := by
  simp only [State.hostReads, Part.hostRead, Part.readCommand, h, hwait, Bool.false_eq_true, if_false, if_true]

theorem hostReads_control (h : s.busReady) (ha : a.toNat < 0x100) :
    s.hostReads a = s.withPart (Part.controlPageRead a.toNat s.part) := by
  obtain ⟨hheld, hwait⟩ := h
  simp only [State.hostReads, Part.hostRead, Part.readCommand_ready _ hheld hwait, ha, if_true, State.withPart]

theorem hostReads_memory (h : s.busReady) (ha : 0x100 ≤ a.toNat) :
    s.hostReads a = s.withPart (Part.memoryRead s.mem a s.part) := by
  obtain ⟨hheld, hwait⟩ := h
  simp only [State.hostReads, Part.hostRead, Part.readCommand_ready _ hheld hwait, Nat.not_lt.mpr ha, if_false,
    State.withPart]

theorem hostRead_memory (h : s.busReady) (ha : 0x100 ≤ a.toNat) :
    s.hostRead a = if s.part.covered a.toNat then none else some (Mem.read s.mem a.toNat) := by
  obtain ⟨hheld, hwait⟩ := h
  simp [State.hostRead, hheld, hwait, Nat.not_lt.mpr ha]

end

/-! ## A waiting access as /RESET falls (R175) -/

namespace Part

/-- What an edit of a station leaves unchanged. -/
theorem applyControl_keeps (b : Branch) (n : StationNo) (v : Byte) (p : Part) :
    (applyControl b n v p).held = p.held ∧ (applyControl b n v p).hostWait = p.hostWait ∧
    (applyControl b n v p).ring = p.ring := by
  unfold applyControl
  extract_lets st p1
  have hp1 : p1.held = p.held ∧ p1.hostWait = p.hostWait ∧ p1.ring = p.ring := by
    unfold p1
    split
    · split <;> simp
    · split <;> simp
  split
  · simpa using hp1
  · exact hp1

theorem editStation_keeps (b : Branch) (n : StationNo) (l : List Byte) (p : Part) :
    (editStation b n l p).held = p.held ∧ (editStation b n l p).hostWait = p.hostWait ∧
    (editStation b n l p).ring = p.ring := by
  unfold editStation
  split
  · simp
  · exact applyControl_keeps ..

/-- A stored byte is the trigger of an edit of a station, a unit or a node, or of none. -/
theorem trigger_cases (m : List Host.Cell) (a : Nat) (p : Part) :
    (∃ b n, trigger m a p = editStation b n (Mem.readList m (a - 6) 7) (askReads (.entry (.station b n)) (a - 6) 7 p))
    ∨ (∃ u, trigger m a p = editUnit u (Mem.readList m (a - 3) 4) (askReads (.entry (.unit u)) (a - 3) 4 p))
    ∨ (∃ n, trigger m a p = editNode n (Mem.readList m (a - 7) 8) (askReads (.entry (.node n)) (a - 7) 8 p))
    ∨ trigger m a p = p := by
  unfold trigger
  split
  · exact .inl ⟨_, _, rfl⟩
  split
  · exact .inr (.inl ⟨_, rfl⟩)
  split
  · exact .inr (.inr (.inl ⟨_, rfl⟩))
  · exact .inr (.inr (.inr rfl))

theorem trigger_keeps (m : List Host.Cell) (a : Nat) (p : Part) :
    (trigger m a p).held = p.held ∧ (trigger m a p).hostWait = p.hostWait := by
  obtain ⟨b, n, h⟩ | ⟨u, h⟩ | ⟨n, h⟩ | h := trigger_cases m a p <;> rw [h]
  · obtain ⟨hheld, hwait, -⟩ := editStation_keeps b n (Mem.readList m (a - 6) 7)
      (askReads (.entry (.station b n)) (a - 6) 7 p)
    exact ⟨hheld, hwait⟩
  · unfold editUnit
    split <;> simp
  · simp [editNode]
  · exact ⟨rfl, rfl⟩

theorem makeWrite_keeps (a : Addr) (v : Byte) (x : Part × List Host.Cell) :
    (makeWrite a v x).1.held = x.1.held ∧ (makeWrite a v x).1.hostWait = x.1.hostWait := by
  unfold makeWrite
  split
  · exact trigger_keeps ..
  · simp [blockWrite]
  · exact ⟨rfl, rfl⟩
  · exact ⟨rfl, rfl⟩

theorem endWait_keeps (before : Part) (x : Part × List Host.Cell) :
    (endWait before x).1.held = x.1.held ∧ (endWait before x).1.hostWait = x.1.hostWait := by
  unfold endWait
  split
  · exact ⟨rfl, rfl⟩
  · exact ⟨rfl, rfl⟩
  · exact makeWrite_keeps ..

end Part

/-- Settles O28: the bus writes by their addresses, the reads by what the control page shows, and the access that a
fall of /RESET ends. -/
theorem everyHostWriteDecodesToItsCommand : Obligations.EveryHostWriteDecodesToItsCommand := by
  refine ⟨fun i a v hwf hbus => ⟨ofHostWrite_busWrite hwf hbus, fun b n p hi => ?decode, exec_busWrite hbus⟩,
    fun s => ⟨rfl, rfl, rfl, rfl, rfl, rfl, fun b => ?words⟩,
    fun s a => ⟨hostReads_held, hostReads_waiting, fun h => ⟨fun v hv => ?shown, fun ha hfree => ?free,
      fun ha hcovered => ?waits⟩⟩,
    fun s a v => ?reset⟩
  case decode => rcases hi with rfl | rfl | rfl <;> cases hbus <;> exact ofHostWrite_station ..
  case words =>
    match b with
    | 0 | 1 | 2 | 3 => exact ⟨rfl, rfl⟩
  case shown =>
    by_cases ha : a.toNat < 0x100
    · rw [hostRead_control h.1 ha, Option.some.injEq] at hv
      subst hv
      rw [hostReads_control h ha]
      exact ⟨Part.controlPageRead_hostData .., rfl, fun hplain => congrArg s.withPart (Part.controlPageRead_plain hplain)⟩
    · have ha := Nat.not_lt.mp ha
      rw [hostRead_memory h ha] at hv
      split at hv
      · exact nomatch hv
      · next hfree =>
        cases hv
        rw [hostReads_memory h ha, Part.memoryRead_free (by simpa using hfree)]
        exact ⟨rfl, rfl, fun _ => rfl⟩
  case free => rw [hostRead_memory h ha, hfree]; rfl
  case waits =>
    rw [hostRead_memory h ha, hostReads_memory h ha, Part.memoryRead_waits hcovered, hcovered]
    exact ⟨rfl, rfl⟩
  case reset =>
    obtain ⟨hheld, hwait⟩ := Part.endWait_keeps s.part (Part.afterReset true .idle s.part, s.mem)
    refine ⟨_, exec_pinResetAssert s, hwait, hheld, fun hread => ?_, fun hwrite => ⟨fun hlo hhi => ?_, fun hregion => ?_⟩⟩
    · have hend := Part.endWait_read (Part.afterReset true .idle s.part, s.mem) hread
      exact ⟨congrArg Prod.snd hend, congrArg (fun x => x.1.hostData) hend⟩
    · have hend := (Part.endWait_write (Part.afterReset true .idle s.part, s.mem) hwrite).trans
        (Part.makeWrite_passes (Part.writeClass_hostArea _ hlo hhi))
      exact congrArg Prod.snd hend
    · have hend := (Part.endWait_write (Part.afterReset true .idle s.part, s.mem) hwrite).trans
        (Part.makeWrite_blocked (Part.writeClass_blocked rfl rfl hregion))
      exact ⟨congrArg Prod.snd hend, congrArg (fun x => x.1.lastBlocked) hend,
        congrArg (fun x => x.1.notices.reason) hend, congrArg (fun x => x.1.notices.code) hend,
        (congrArg (fun x => x.1.notices.latches) hend).trans (by decide : (0 : BitVec 16) ||| Notice.refused.bit = 0x2000)⟩

end Sys2Proof.Machine
end

section
/-! PROOF. The edits of the tables: a unit, a node and a station (O29, O30). -/

namespace Sys2Proof.Machine

/-! ## The checks of a unit map entry (R48) -/

section

variable {k a b m : Byte}

theorem readUnit_node (hk : k = 1) {i : Fin 64} (hi : a.toNat = i.val) :
    readUnit [k, a, b, m] = some { kind := .node i, mask := m.truncate 4 } := by
  have hlt : a.toNat < 64 := by omega
  have hnode : (⟨a.toNat, hlt⟩ : Fin 64) = i := Fin.ext hi
  subst hk
  exact (dif_pos hlt).trans (by rw [← hnode]; rfl)

theorem readUnit_node_out (hk : k = 1) (h : 64 ≤ a.toNat) : readUnit [k, a, b, m] = none := by
  subst hk
  exact dif_neg (Nat.not_lt.mpr h)

theorem readUnit_printer (hk : k = 2) {i : Port} (hi : a.toNat = i.val) :
    readUnit [k, a, b, m] = some { kind := .printer i, mask := m.truncate 4 } := by
  have hlt : a.toNat < 3 := by omega
  have hport : (⟨a.toNat, hlt⟩ : Port) = i := Fin.ext hi
  subst hk
  exact (dif_pos hlt).trans (by rw [← hport]; rfl)

theorem readUnit_printer_out (hk : k = 2) (h : 3 ≤ a.toNat) : readUnit [k, a, b, m] = none := by
  subst hk
  exact dif_neg (Nat.not_lt.mpr h)

theorem readUnit_station (hk : k = 3) {c : Branch} {n : StationNo} (hb : b.toNat = c.val) (ha : a.toNat = n.val)
    (hn : n ≠ 0) : readUnit [k, a, b, m] = some { kind := .station c n, mask := m.truncate 4 } := by
  have hlt : b.toNat < 4 ∧ a.toNat < 64 := ⟨by omega, by omega⟩
  have hbranch : (⟨b.toNat, hlt.1⟩ : Branch) = c := Fin.ext hb
  have hstation : (⟨a.toNat, hlt.2⟩ : StationNo) = n := Fin.ext ha
  have hne : ¬ a.toNat = 0 := fun h0 => hn (Fin.ext (ha.symm.trans h0))
  subst hk
  exact (dif_pos hlt).trans ((if_neg hne).trans (by rw [← hbranch, ← hstation]; rfl))

theorem readUnit_station_out (hk : k = 3) (h : 4 ≤ b.toNat ∨ 64 ≤ a.toNat ∨ a = 0) : readUnit [k, a, b, m] = none := by
  subst hk
  by_cases hlt : b.toNat < 4 ∧ a.toNat < 64
  · have hzero : a.toNat = 0 := by
      rcases h with h | h | h
      · omega
      · omega
      · rw [h]; rfl
    exact (dif_pos hlt).trans (if_pos hzero)
  · exact dif_neg hlt

theorem readUnit_unknown (h : 4 < k.toNat) : readUnit [k, a, b, m] = none := by
  unfold readUnit
  extract_lets mask x y
  have hbyte : byteAt [k, a, b, m] 0 = k := rfl
  split
  case h_6 => rfl
  all_goals
    rename_i hcode
    rw [hbyte] at hcode
    omega

end

/-- What the directory's changes of state speak of in a record; the counts of entries, jobs and frames are apart. -/
def Station.standing (x : Station) : StationState × Option NodeAddr × Nat × Nat := (x.state, x.assigned, x.miss, x.garble)

namespace Part

section

variable {p : Part}

/-! ## What a departure does to the record and to the poll list (R24, R36) -/

theorem updStation_standing {b : Branch} {n : StationNo} {f : Station → Station}
    (hf : ∀ x, (f x).standing = x.standing) (c : Branch) (m : StationNo) (p : Part) :
    ((updStation b n f p).station c m).standing = (p.station c m).standing := by
  by_cases h : (c, m) = (b, n)
  · obtain ⟨rfl, rfl⟩ := Prod.mk.inj h
    rw [station_updStation_self, hf]
  · rw [station_updStation_ne _ _ _ _ _ _ h]

theorem reportLeft_standing (o : JobOrigin) (c : Branch) (m : StationNo) (p : Part) :
    ((reportLeft o p).station c m).standing = (p.station c m).standing := by
  cases o with
  | trunk b n =>
    refine updStation_standing ?_ c m p
    exact fun _ => rfl
  | submitted => rfl
  | none => rfl

theorem abortJob_standing (j : JobNo) (r : JobResult) (c : Branch) (m : StationNo) (p : Part) :
    ((abortJob j r p).station c m).standing = (p.station c m).standing := by
  unfold abortJob
  extract_lets x p1 p2 p3
  split
  · have hp1 : p1.station c m = p.station c m := by
      unfold p1
      split <;> simp [station_def]
    exact (reportLeft_standing ..).trans (by simp [p3, p2, hp1])
  · rfl

theorem abortAssemblingOf_standing (b : Branch) (n : StationNo) (r : JobResult) (c : Branch) (m : StationNo) (p : Part) :
    ((abortAssemblingOf b n r p).station c m).standing = (p.station c m).standing := by
  unfold abortAssemblingOf
  split
  · exact abortJob_standing ..
  · rfl

theorem completeEntry_standing (b : Branch) (e : TxEntry) (code : TxCode) (c : Branch) (m : StationNo) (p : Part) :
    ((completeEntry b e code p).station c m).standing = (p.station c m).standing := by
  unfold completeEntry
  extract_lets p1 p2 p3
  have hp2 : (p2.station c m).standing = (p.station c m).standing := by
    unfold p2
    split
    · rfl
    · refine updStation_standing ?_ c m p1
      exact fun _ => rfl
  have hp3 : p3.station c m = p2.station c m := by
    unfold p3
    split
    · simp [station_def]
    · split <;> rfl
  simpa [hp3] using hp2

theorem completeWhere_standing (b : Branch) (code : TxCode) (w : TxEntry → Bool) (c : Branch) (m : StationNo) (p : Part) :
    ((completeWhere b code w p).station c m).standing = (p.station c m).standing :=
  each_keeps_view (fun q => (q.station c m).standing) _ _ (fun e q => by
    split
    · rfl
    · exact completeEntry_standing ..) p

theorem completeWhere_pollList (b : Branch) (code : TxCode) (w : TxEntry → Bool) (p : Part) :
    ((completeWhere b code w p).engine b).pollList = (p.engine b).pollList :=
  each_keeps_view (fun q => (q.engine b).pollList) _ _ (fun e q => by
    split
    · simp
    · obtain ⟨_, h⟩ := completeEntry_engine b e code q
      rw [h]) p

/-- A record that leaves takes its new state; its counts of entries and jobs follow the completions (R36). -/
theorem leaveFor_standing (b : Branch) (n : StationNo) (new : StationState) (f : Station → Station) (p : Part) :
    ((leaveFor b n new f p).station b n).standing = { f (p.station b n) with state := new }.standing := by
  unfold leaveFor
  extract_lets was p1 p2
  have hp1 : p1.station b n = { f (p.station b n) with state := new } := by simp [p1, changeStation]
  have hp2 : (p2.station b n).standing = (p1.station b n).standing := by
    unfold p2
    split
    · exact completeWhere_standing ..
    · rfl
  rw [abortAssemblingOf_standing, hp2, hp1]

/-- A PRESENT record that leaves is taken out of the poll list. -/
theorem leaveFor_pollList {b : Branch} {n : StationNo} (new : StationState) (f : Station → Station)
    (h : (p.station b n).state = .present) :
    ((leaveFor b n new f p).engine b).pollList = (p.engine b).pollList.filter fun x => x != n := by
  have hremoved : ∀ g : Engine, (g.removeStation n).pollList = g.pollList.filter fun x => x != n := by
    intro g
    unfold Engine.removeStation
    split
    · rfl
    · next hout =>
      refine (List.filter_eq_self.mpr fun x hx => ?_).symm
      simp only [bne_iff_ne, ne_eq]
      rintro rfl
      exact hout (by simpa using hx)
  simp only [leaveFor, h, if_true, abortAssemblingOf_views, completeStation, completeWhere_pollList,
    engine_modEngine_self, changeStation_views, hremoved]

theorem leaveFor_latch (b : Branch) (n : StationNo) (new : StationState) (f : Station → Station) (p : Part) :
    (leaveFor b n new f p).notices.latches = p.notices.latches ||| Notice.station.bit := by
  unfold leaveFor
  extract_lets was p1 p2
  have hp2 : p2.notices = p1.notices := by
    unfold p2
    split <;> simp [completeStation]
  simp [hp2, p1, changeStation]

/-! ## The write of a trigger (R44, R48, R49, R167) -/

theorem trigger_unit (m : List Host.Cell) {a : Nat} {u : Fin 256} (h : a = 0x00300 + 4 * u.val + 3) (p : Part) :
    trigger m a p = editUnit u (Mem.readList m (a - 3) 4) (askReads (.entry (.unit u)) (a - 3) 4 p) := by
  obtain ⟨hstation, htrigger, hu⟩ := unitTrigger_facts h
  simp only [trigger, hstation, Bool.false_eq_true, if_false, htrigger, if_true, hu]

theorem trigger_node (m : List Host.Cell) {a : Nat} {n : Fin 64} (h : a = 0x00700 + 8 * n.val + 7) (p : Part) :
    trigger m a p = editNode n (Mem.readList m (a - 7) 8) (askReads (.entry (.node n)) (a - 7) 8 p) := by
  obtain ⟨hstation, hunit, htrigger, hn⟩ := nodeTrigger_facts h
  simp only [trigger, hstation, hunit, Bool.false_eq_true, if_false, htrigger, if_true, hn]

theorem trigger_station (m : List Host.Cell) {a : Nat} {b : Branch} {n : StationNo}
    (h : a = 0x01000 + (64 * b.val + n.val) * 16 + 6) (p : Part) : trigger m a p =
      editStation b n (Mem.readList m (a - 6) 7) (askReads (.entry (.station b n)) (a - 6) 7 p) := by
  obtain ⟨htrigger, hb, hn⟩ := stationTrigger_facts h
  simp only [trigger, htrigger, if_true, hb, hn]

/-- A write of a table once INIT is over: it waits on a record being written, or is stored with its trigger. -/
theorem exec_tableWrite {a : Addr} {s : State} (v : Byte) (h : s.busReady) (hinit : s.part.loader.startState ≠ .init)
    (hcovered : s.part.covered a.toNat = false)
    (harea : (0x00100 ≤ a.toNat ∧ a.toNat < 0x00960) ∨ (0x01000 ≤ a.toNat ∧ a.toNat < 0x02000 ∧ a.toNat % 16 < 7)) :
    onBoth (memoryWrite a v) s = .next { s with
      mem := Mem.write s.mem a.toNat v
      part := trigger (Mem.write s.mem a.toNat v) a.toNat s.part } := by
  obtain ⟨hheld, hwait⟩ := h
  have hclass : writeClass s.part a.toNat = .passes := by
    rw [writeClass_table (harea.imp_right .inl), if_neg hinit]
  rw [onBoth, memoryWrite_ready hheld hwait, if_neg (by simp [hcovered]), makeWrite_passes hclass]

theorem exec_tableWrite_waits {a : Addr} {s : State} (v : Byte) (h : s.busReady)
    (hcovered : s.part.covered a.toNat = true) : onBoth (memoryWrite a v) s =
      .next (s.withPart { s.part with hostWait := some (.write a v) }) := by
  obtain ⟨hheld, hwait⟩ := h
  rw [onBoth, memoryWrite_ready hheld hwait, if_pos hcovered]
  rfl

end

end Part

/-- Settles O30: the checks by the kind of the entry, and the two edits by the triggers that make them. -/
theorem tableEditsStoreAndApply : Obligations.TableEditsStoreAndApply := by
  refine ⟨fun k a b m => ?_, fun s v hready hinit => ⟨fun u => ?unit, fun n => ?node⟩⟩
  · refine ⟨fun hk => by subst hk; rfl, fun hk => ⟨fun i hi => readUnit_node hk hi, readUnit_node_out hk⟩,
      fun hk => ⟨fun i hi => readUnit_printer hk hi, readUnit_printer_out hk⟩,
      fun hk => ⟨fun c n hb ha hn => readUnit_station hk hb ha hn, readUnit_station_out hk⟩,
      fun hk => by subst hk; rfl, readUnit_unknown⟩
  case unit =>
    intro a m l ring hcovered
    have haddr : (unitTriggerAddr u).toNat = a := by rw [toNat_unitTriggerAddr]; omega
    have hwrite := Part.exec_tableWrite (a := unitTriggerAddr u) v hready hinit (by rw [haddr]; exact hcovered)
      (.inl (by rw [toNat_unitTriggerAddr]; omega))
    rw [haddr, Part.trigger_unit _ (by omega : a = 0x00300 + 4 * u.val + 3)] at hwrite
    refine ⟨fun e he => hwrite.trans ?_, fun he => hwrite.trans ?_⟩
    · simp only [Part.editUnit, show readUnit (Mem.readList (Mem.write s.mem a v) (a - 3) 4) = _ from he]
      rfl
    · simp only [Part.editUnit, show readUnit (Mem.readList (Mem.write s.mem a v) (a - 3) 4) = _ from he]
      rfl
  case node =>
    intro a m l e ring hcovered
    have haddr : (nodeTriggerAddr n).toNat = a := by rw [toNat_nodeTriggerAddr]; omega
    have hwrite := Part.exec_tableWrite (a := nodeTriggerAddr n) v hready hinit (by rw [haddr]; exact hcovered)
      (.inl (by rw [toNat_nodeTriggerAddr]; omega))
    rw [haddr, Part.trigger_node _ (by omega : a = 0x00700 + 8 * n.val + 7)] at hwrite
    exact hwrite

/-! ## Edits of a station (R37, R39, R44, R45) -/

namespace Part

section

variable {p : Part} {b : Branch} {n : StationNo} {l : List Byte}

theorem editRefusal_number (h : n = 0 ∨ n = 63) : p.editRefusal b n l = some .badArgument := if_pos h

theorem editRefusal_both (h0 : n ≠ 0) (h63 : n ≠ 63) (hclear : bitAt (byteAt l 6) 2 = true)
    (hbar : bitAt (byteAt l 6) 1 = true) : p.editRefusal b n l = some .badState := by
  simp only [editRefusal, h0, h63, or_self, if_false, hclear, hbar, Bool.and_self, if_true]

theorem editRefusal_state (h0 : n ≠ 0) (h63 : n ≠ 63) (hclear : bitAt (byteAt l 6) 2 = true)
    (hbar : bitAt (byteAt l 6) 1 = false) (hstate : (p.station b n).state ≠ .conflict) :
    p.editRefusal b n l = some .badState := by
  simp [editRefusal, h0, h63, hclear, hbar, hstate]

/-- An edit of a number of its own whose actions agree is checked by its address. -/
theorem editRefusal_address (h0 : n ≠ 0) (h63 : n ≠ 63)
    (hactions : bitAt (byteAt l 6) 2 = false ∨ (bitAt (byteAt l 6) 1 = false ∧ (p.station b n).state = .conflict)) :
    p.editRefusal b n l =
      if bitAt (byteAt l 6) 0 && allStations.any
          (fun s => s != (b, n) && decide ((p.station s.1 s.2).assigned = some (addrAt l 0))) then some .dupAddress
      else if bitAt (byteAt l 6) 0
          && (hasPrefix p.setup.derivedPrefix (addrAt l 0) || p.acceptedPrefix.any fun q => hasPrefix q (addrAt l 0)) then
        some .badArgument
      else none := by
  rcases hactions with hclear | ⟨hbar, hstate⟩
  · simp only [editRefusal, h0, h63, or_self, if_false, hclear, Bool.false_and, Bool.false_eq_true]
  · simp only [editRefusal, h0, h63, or_self, if_false, hbar, hstate, Bool.and_false, Bool.false_eq_true, decide_true,
      Bool.not_true]

theorem editRefusal_askReads (u : RingUser) (a k : Nat) : (askReads u a k p).editRefusal b n l = p.editRefusal b n l := rfl

/-- A clear-conflict action that passes the checks comes without a bar, to a record in CONFLICT. -/
theorem clear_of_editRefusal (h : p.editRefusal b n l = none) (hclear : bitAt (byteAt l 6) 2 = true) :
    bitAt (byteAt l 6) 1 = false ∧ (p.station b n).state = .conflict := by
  have hnumber : ¬ (n = 0 ∨ n = 63) := fun hn => by
    rw [editRefusal_number hn] at h
    exact nomatch h
  obtain ⟨h0, h63⟩ := not_or.mp hnumber
  cases hbar : bitAt (byteAt l 6) 1 with
  | true =>
    rw [editRefusal_both h0 h63 hclear hbar] at h
    exact nomatch h
  | false =>
    by_cases hstate : (p.station b n).state = .conflict
    · exact ⟨rfl, hstate⟩
    · rw [editRefusal_state h0 h63 hclear hbar hstate] at h
      exact nomatch h

theorem editStation_refused {r : Reason} (h : p.editRefusal b n l = some r) : editStation b n l p = refuse r 0xF0 p := by
  simp only [editStation, h]

theorem editStation_applies (h : p.editRefusal b n l = none) : editStation b n l p =
    applyControl b n (byteAt l 6) (modStation b n (fun st =>
      { st with assigned := if bitAt (byteAt l 6) 0 then some (addrAt l 0) else none }) p) := by
  simp only [editStation, h]

section

variable {v : Byte}

theorem applyControl_bars (hbar : bitAt v 1 = true) (hclear : bitAt v 2 = false) (h : (p.station b n).state ≠ .barred) :
    applyControl b n v p = barStation b n p := by
  simp only [applyControl, hbar, hclear, h, if_true, if_false, Bool.false_eq_true]

theorem applyControl_barred (hbar : bitAt v 1 = true) (hclear : bitAt v 2 = false) (h : (p.station b n).state = .barred) :
    applyControl b n v p = p := by
  simp only [applyControl, hbar, hclear, h, if_true, if_false, Bool.false_eq_true]

theorem applyControl_unbars (hbar : bitAt v 1 = false) (hclear : bitAt v 2 = false)
    (h : (p.station b n).state = .barred) : applyControl b n v p = unbarStation b n p := by
  simp only [applyControl, hbar, hclear, h, if_true, if_false, Bool.false_eq_true]

theorem applyControl_plain (hbar : bitAt v 1 = false) (hclear : bitAt v 2 = false)
    (h : (p.station b n).state ≠ .barred) : applyControl b n v p = p := by
  simp only [applyControl, hbar, hclear, h, if_false, Bool.false_eq_true]

theorem applyControl_clears (hbar : bitAt v 1 = false) (hclear : bitAt v 2 = true)
    (h : (p.station b n).state = .conflict) : applyControl b n v p = clearConflict b n p := by
  simp only [applyControl, hbar, hclear, h, if_true, if_false, Bool.false_eq_true, reduceCtorEq]

end

/-- A bar: the record leaves for BARRED, its counts and its address kept (R37). -/
theorem barStation_standing (b : Branch) (n : StationNo) (p : Part) : ((barStation b n p).station b n).standing =
    { p.station b n with state := .barred }.standing := by
  have hleave := leaveFor_standing b n .barred (fun st => st) p
  unfold barStation
  extract_lets void q
  split
  · exact hleave
  · exact hleave

theorem barStation_pollList (h : (p.station b n).state = .present) :
    n ∉ ((barStation b n p).engine b).pollList := by
  have hleave := leaveFor_pollList .barred (fun st => st) h
  unfold barStation
  extract_lets void q
  have hq : n ∉ (q.engine b).pollList := by simp [q, hleave]
  split
  · simpa using hq
  · exact hq

theorem barStation_latch (b : Branch) (n : StationNo) (p : Part) :
    (barStation b n p).notices.latches = p.notices.latches ||| Notice.station.bit := by
  have hleave := leaveFor_latch b n .barred (fun st => st) p
  unfold barStation
  extract_lets void q
  split
  · exact hleave
  · exact hleave

theorem changeStation_shown (b : Branch) (n : StationNo) (f : Station → Station) (p : Part) :
    (changeStation b n f p).station b n = f (p.station b n)
    ∧ (changeStation b n f p).notices.latches = p.notices.latches ||| Notice.station.bit := by
  simp [changeStation]

/-- The latch that STATION sets is on. -/
theorem station_latched (x : BitVec 16) : (x ||| Notice.station.bit).getLsbD 6 = true := by
  rw [BitVec.getLsbD_or, (by decide : Notice.station.bit.getLsbD 6 = true), Bool.or_true]

end

end Part

/-- Settles O29: the checks in the rule's order, then the edit by the bar flag and the state of the record. -/
theorem stationEditStoresAndApplies : Obligations.StationEditStoresAndApplies := by
  refine ⟨fun p b n l => ?checks, fun s i b n v hi hready hinit => ?edit⟩
  case checks =>
    intro present bar clear a taken reserved
    refine ⟨Part.editRefusal_number, fun h0 h63 => ⟨Part.editRefusal_both h0 h63, fun hclear hbar hstate =>
      Part.editRefusal_state h0 h63 hclear hbar hstate, fun hactions => ?_⟩⟩
    have haddress := Part.editRefusal_address h0 h63 hactions
    have hreserved : (hasPrefix p.setup.derivedPrefix a || p.acceptedPrefix.any fun q => hasPrefix q a) = true ↔
        reserved := by
      simp [reserved, Option.any_eq_true]
    have htaken : (Part.allStations.any
        fun s => s != (b, n) && decide ((p.station s.1 s.2).assigned = some a)) = true ↔ taken := by
      simp [taken, List.any_eq_true]
    refine ⟨fun hpresent ht => haddress.trans ?_, fun hpresent ht hr => haddress.trans ?_,
      fun hpresent ht hr => haddress.trans ?_, fun hpresent => haddress.trans ?_⟩
    · exact if_pos (by rw [Bool.and_eq_true]; exact ⟨hpresent, htaken.mpr ht⟩)
    · rw [if_neg (by rw [Bool.and_eq_true]; exact fun ⟨_, h⟩ => ht (htaken.mp h)),
        if_pos (by rw [Bool.and_eq_true]; exact ⟨hpresent, hreserved.mpr hr⟩)]
    · rw [if_neg (by rw [Bool.and_eq_true]; exact fun ⟨_, h⟩ => ht (htaken.mp h)),
        if_neg (by rw [Bool.and_eq_true]; exact fun ⟨_, h⟩ => hr (hreserved.mp h))]
    · have habsent : bitAt (byteAt l 6) 0 = false := hpresent
      simp only [habsent, Bool.false_and, Bool.false_eq_true, if_false]
  case edit =>
    intro a m l x address ring shown hwf
    have haddr : (stationTriggerAddr b n).toNat = a := by rw [toNat_stationTriggerAddr]; omega
    have hexec : exec i s = onBoth (Part.memoryWrite (stationTriggerAddr b n) v) s := by
      rcases hi with rfl | ⟨q, ⟨rfl, rfl⟩ | ⟨rfl, rfl⟩ | ⟨rfl, rfl⟩⟩ <;> rfl
    let q : Part := { s.part with ring := ring }
    have hwrite : s.part.covered a = false →
        exec i s = .next { s with mem := m, part := Part.editStation b n l q } := fun hcovered => by
      have h := Part.exec_tableWrite (a := stationTriggerAddr b n) v hready hinit (by rw [haddr]; exact hcovered)
        (.inr (by rw [toNat_stationTriggerAddr]; omega))
      rw [haddr, Part.trigger_station _ (by omega : a = 0x01000 + (64 * b.val + n.val) * 16 + 6)] at h
      exact hexec.trans h
    have hctl : byteAt l 6 = v := by
      have hlast : byteAt l 6 = Mem.read m (a - 6 + 1 + 1 + 1 + 1 + 1 + 1) := rfl
      rw [hlast, (by omega : a - 6 + 1 + 1 + 1 + 1 + 1 + 1 = a)]
      exact Mem.read_write_self _ _ _ hwf
    refine ⟨fun hcovered => ?waits, fun r hcovered hr => (hwrite hcovered).trans ?refused, fun hcovered hnone => ?applied⟩
    case waits =>
      have hword : BitVec.ofNat 17 a = stationTriggerAddr b n := congrArg (BitVec.ofNat 17) (by omega)
      rw [hword, hexec]
      exact Part.exec_tableWrite_waits v hready (by rw [haddr]; exact hcovered)
    case refused =>
      have hedit : Part.editStation b n l q = Part.refuse r 0xF0 q := Part.editStation_refused hr
      rw [hedit]
      rfl
    case applied =>
      let assign (y : Station) : Station := { y with assigned := address }
      let r : Part := Part.modStation b n assign q
      have hedit : Part.editStation b n l q = Part.applyControl b n v r := by
        have h : Part.editStation b n l q = _ := Part.editStation_applies hnone
        rw [hctl] at h
        exact h
      have hnext := (hwrite hcovered).trans (congrArg (fun p => Host.Outcome.next { s with mem := m, part := p }) hedit)
      have hstation : r.station b n = assign x := Part.station_modStation_self ..
      have hring : (Part.applyControl b n v r).ring = ring := (Part.applyControl_keeps b n v r).2.2
      have hexclusive : v.getLsbD 2 = true → bitAt v 1 = false ∧ x.state = .conflict := fun hclear => by
        have h := Part.clear_of_editRefusal hnone (hctl.symm ▸ hclear)
        rwa [hctl] at h
      have hkept : v.getLsbD 1 = true → bitAt v 2 = false := fun hbar => by
        cases hclear : bitAt v 2 with
        | false => rfl
        | true => exact nomatch hbar.symm.trans (hexclusive hclear).1
      refine ⟨fun hbar hstate => ?_, fun hbar hstate => ?_, fun hbar hclear hstate => ?_, fun hbar hclear hstate => ?_,
        fun hclear => ?_⟩
      · have happly := Part.applyControl_bars (p := r) (b := b) (n := n) (v := v) hbar (hkept hbar)
          (by rw [hstation]; exact hstate)
        have hshown := Part.barStation_standing b n r
        rw [hstation] at hshown
        simp only [Station.standing, Prod.mk.injEq] at hshown
        obtain ⟨hbarred, hassigned, hmiss, hgarble⟩ := hshown
        rw [happly] at hnext hring
        refine ⟨_, hnext, hbarred, hassigned, hmiss, hgarble, rfl, hring, ?_, fun hpresent => ?_⟩
        · rw [Part.barStation_latch]
          exact Part.station_latched _
        · exact Part.barStation_pollList (by rw [hstation]; exact hpresent)
      · have happly := Part.applyControl_barred (p := r) (b := b) (n := n) (v := v) hbar (hkept hbar)
          (by rw [hstation]; exact hstate)
        rw [happly] at hnext
        exact ⟨_, hnext, ⟨hstation, rfl, rfl⟩, rfl⟩
      · have happly := Part.applyControl_unbars (p := r) (b := b) (n := n) (v := v) hbar hclear
          (by rw [hstation]; exact hstate)
        obtain ⟨hnew, hlatch⟩ := Part.changeStation_shown b n (fun st => { st with state := .absent, miss := 0 }) r
        rw [happly] at hnext hring
        refine ⟨_, hnext, ⟨hnew.trans ?_, rfl, hring⟩, ?_⟩
        · rw [hstation]
        · rw [Part.unbarStation, hlatch]
          exact Part.station_latched _
      · have happly := Part.applyControl_plain (p := r) (b := b) (n := n) (v := v) hbar hclear
          (by rw [hstation]; exact hstate)
        rw [happly] at hnext
        exact ⟨_, hnext, ⟨hstation, rfl, rfl⟩, rfl⟩
      · obtain ⟨hbar, hstate⟩ := hexclusive hclear
        have happly := Part.applyControl_clears (p := r) (b := b) (n := n) (v := v) hbar hclear
          (by rw [hstation]; exact hstate)
        obtain ⟨hnew, hlatch⟩ :=
          Part.changeStation_shown b n (fun st => { st with state := .absent, miss := 0, garble := 0 }) r
        rw [happly] at hnext hring
        refine ⟨_, hnext, ⟨hnew.trans ?_, rfl, hring⟩, ?_⟩
        · rw [hstation]
        · rw [Part.clearConflict, hlatch]
          exact Part.station_latched _

end Sys2Proof.Machine
end

section
/-! PROOF. The image writer (O32). -/

namespace Sys2Proof.Machine

theorem ImgWrite.bytes_of_record {w : ImgWrite} {r : ImgRecord} (p : Part) (h : w.record = r) :
    w.bytes p = ImgWrite.bytes p { w with record := r } := by rw [← h]

namespace Part

section

variable {p : Part}

theorem imageBegin_takes {w : ImgWrite} {r : List ImgWrite} (hidle : p.writer.active = none)
    (hqueue : p.writer.queue = w :: r) : imageBegin p = { p with
      writer := { queue := r, active := some { write := w, addr := (w.bytes p).1, left := (w.bytes p).2 } } } := by
  simp only [imageBegin, hidle, hqueue]
  rfl

/-- A host access is made once no part of its record is to be written or read (R171). -/
theorem covered_eq_false {a : Nat} (hsetup : p.setupWritten a = false) (hring : ∀ x ∈ p.ring, x.watches a = false)
    (hactive : p.writer.active = none) (hqueue : ∀ x ∈ p.writer.queue, x.coversWatched a = false) :
    p.covered a = false := by
  have hread : p.entryRead a = false := List.any_eq_false.mpr fun x hx => by simp [hring x hx]
  have hwrites : (p.writer.queue.any fun w => w.coversWatched a) = false :=
    List.any_eq_false.mpr fun x hx => by simp [hqueue x hx]
  simp [covered, hsetup, hread, imageWritten, hactive, hwrites]

theorem releaseHost_none {x : Part × List Host.Cell} (h : x.1.hostWait = none) : releaseHost x = x := by
  simp only [releaseHost, h]

theorem releaseHost_read {x : Part × List Host.Cell} {a : Addr} (h : x.1.hostWait = some (.read a))
    (hfree : x.1.covered a.toNat = false) : releaseHost x =
      ({ x.1 with hostWait := none, hostData := Mem.read x.2 a.toNat }, x.2) := by
  simp only [releaseHost, h, accessAddr, hfree, Bool.false_eq_true, if_false]
  rfl

theorem imageComplete_done {x : Part × List Host.Cell} {w : ImgActive} (hheld : x.1.held = false)
    (hactive : x.1.writer.active = some w) (h : w.left = []) : imageComplete x =
      releaseHost (setNotices w.write.notices (modWriter (fun q => { q with active := none }) x.1), x.2) := by
  simp only [imageComplete, hheld, hactive, h, List.isEmpty_nil, if_true, Bool.false_eq_true, if_false]

theorem imageComplete_going {x : Part × List Host.Cell} {w : ImgActive} (hheld : x.1.held = false)
    (hactive : x.1.writer.active = some w) (h : w.left ≠ []) : imageComplete x = x := by
  simp only [imageComplete, hheld, hactive, List.isEmpty_eq_false_iff.mpr h, Bool.false_eq_true, if_false]

end

end Part

/-- Settles O32: the bytes fixed by the record, and the end of a write with the host access that waited. -/
theorem imageWritesBeginAndEnd : Obligations.ImageWritesBeginAndEnd := by
  refine ⟨fun s w r hheld hidle hqueue => ?_, fun s w hheld hactive => ?_⟩
  · refine ⟨(w.bytes s.part).1, (w.bytes s.part).2, onPart_awake_eq hheld (Part.imageBegin_takes hidle hqueue),
      fun j hj => ?_, fun b hb => ?_, fun b hb => ?_, fun i hi => ?_, fun i hi => ?_, fun i hi => ?_, fun u hu => ?_,
      fun n hn => ?_, fun b n hn => ?_⟩
    case refine_9 =>
      intro x base
      refine ⟨fun hlow hhigh => ?_, fun hlow hhigh => ?_, fun hlow => ?_⟩
      · simp only [ImgWrite.bytes, hn, hlow, hhigh, if_true]
        exact ⟨rfl, rfl⟩
      · simp only [ImgWrite.bytes, hn, hlow, hhigh, if_true, Bool.false_eq_true, if_false, List.append_nil]
        exact ⟨rfl, rfl⟩
      · simp only [ImgWrite.bytes, hn, hlow, Bool.false_eq_true, if_false]
        exact ⟨rfl, rfl⟩
    all_goals
      rw [ImgWrite.bytes_of_record s.part (by assumption)]
      exact ⟨rfl, rfl⟩
  · intro done
    have hexec : ∀ {x}, Part.imageComplete (s.part, s.mem) = x →
        exec .imageWriteComplete s = .next { s with part := x.1, mem := x.2 } := fun {x} h => by
      show onBoth Part.imageComplete s = _
      rw [onBoth, h]
    refine ⟨fun hleft hwait => ?_, fun a hleft hwait hsetup hqueue hring => ?_, fun hleft => ?_⟩
    · exact hexec ((Part.imageComplete_done hheld hactive hleft).trans (Part.releaseHost_none hwait))
    · have hfree : done.covered a.toNat = false := Part.covered_eq_false hsetup hring rfl hqueue
      exact hexec ((Part.imageComplete_done hheld hactive hleft).trans (Part.releaseHost_read hwait hfree))
    · exact hexec (Part.imageComplete_going hheld hactive hleft)

end Sys2Proof.Machine
end

section
/-! PROOF. The grant of the memory port, and what one cycle of each requester does (O31). -/

namespace Sys2Proof.Machine

namespace Part

/-! ## The grant (R169) -/

section

variable {p : Part}

/-- With no access waiting and nobody asking the port is idle. -/
theorem cyclicGrant_idle (m : List Host.Cell) (h : ∀ i : Fin 11, p.asks (Requester.ofIndex i) = false) :
    cyclicGrant (p, m) = (p, m) := by
  have hnone : p.nextAsking = none := List.find?_eq_none.mpr fun i _ => by simp [h i]
  simp only [cyclicGrant, hnone]

/-- The requester found is the first that asks, counting from the arbiter's place. -/
theorem nextAsking_first {i : Fin 11} (hi : p.asks (Requester.ofIndex i) = true)
    (hfirst : ∀ k : Fin 11, (k - p.arbiter).val < (i - p.arbiter).val → p.asks (Requester.ofIndex k) = false) :
    p.nextAsking = some i := by
  have hback : p.arbiter + (i - p.arbiter) = i := Fin.ext (by simp only [Fin.val_add, Fin.sub_def]; omega)
  refine List.find?_eq_some_iff_getElem.mpr ⟨hi, (i - p.arbiter).val, by simp, by simp [hback], fun k hk => ?_⟩
  have hk11 : k < 11 := by omega
  have hstep : (p.arbiter + ⟨k, hk11⟩ - p.arbiter).val = k := by
    simp only [Fin.val_add, Fin.sub_def]
    omega
  simpa using hfirst (p.arbiter + ⟨k, hk11⟩) (by omega)

theorem cyclicGrant_next {i : Fin 11} (m : List Host.Cell) (h : p.nextAsking = some i) :
    cyclicGrant (p, m) = cycle (Requester.ofIndex i) ({ p with arbiter := i + 1 }, m) := by
  simp only [cyclicGrant, h]

theorem memoryGrant_free (m : List Host.Cell) (hheld : p.held = false) (hwait : p.hostWait = none) :
    memoryGrant (p, m) = cyclicGrant (p, m) := by
  simp only [memoryGrant, hheld, hwait, Bool.false_eq_true, if_false]

/-- A waiting access is made once its record is complete. -/
theorem memoryGrant_access {acc : HostAccess} (m : List Host.Cell) (hheld : p.held = false)
    (hwait : p.hostWait = some acc) (hfree : p.covered (accessAddr acc) = false) :
    memoryGrant (p, m) = makeAccess acc (p, m) := by
  simp only [memoryGrant, hheld, hwait, hfree, Bool.false_eq_true, if_false]

/-- A waiting access has the requester that writes its record go first. -/
theorem memoryGrant_favoured {acc : HostAccess} {r : Requester} (m : List Host.Cell) (hheld : p.held = false)
    (hwait : p.hostWait = some acc) (hcovered : p.covered (accessAddr acc) = true)
    (hr : p.favoured (accessAddr acc) = some r) : memoryGrant (p, m) = cycle r (p, m) := by
  simp only [memoryGrant, hheld, hwait, hcovered, hr, Bool.false_eq_true, if_false, if_true]

theorem entryRead_of_find {a : Nat} {r : RingRead} (h : (p.ring.find? fun r => r.watches a) = some r) :
    p.entryRead a = true :=
  List.any_eq_true.mpr ⟨r, List.mem_of_find?_eq_some h, List.find?_some (p := fun r : RingRead => r.watches a) h⟩

theorem entryRead_eq_false {a : Nat} (h : ∀ r ∈ p.ring, r.watches a = false) : p.entryRead a = false :=
  List.any_eq_false.mpr fun r hr => by simp [h r hr]

/-- A read that watches is one of the directory's. -/
theorem user_of_watches {r : RingRead} {a : Nat} (h : r.watches a = true) : ∃ e, r.user = .entry e := by
  unfold RingRead.watches at h
  split at h
  · next e he => exact ⟨e, he⟩
  all_goals exact nomatch h

/-! ## The ring and descriptor requester (R168) -/

theorem ringServe_found {f : RingRead → Bool} {r : RingRead} (m : List Host.Cell) (h : p.ring.find? f = some r) :
    ringServe f (p, m) = (if r.left ≤ 1 then readDone r.user (r.got ++ [Mem.read m (readAddr r p)])
        (modRing (readsAfter r (Mem.read m (readAddr r p))) p)
      else modRing (readsAfter r (Mem.read m (readAddr r p))) p, m) := by
  simp only [ringServe, h]

theorem ringCycle_free (m : List Host.Cell) (hwait : p.hostWait = none) :
    ringCycle (p, m) = ringServe (fun _ => true) (p, m) := by
  simp only [ringCycle, hwait]

theorem ringCycle_watched {acc : HostAccess} (m : List Host.Cell) (hwait : p.hostWait = some acc)
    (h : p.entryRead (accessAddr acc) = true) :
    ringCycle (p, m) = ringServe (fun r => r.watches (accessAddr acc)) (p, m) := by
  simp only [ringCycle, hwait, h, if_true]

theorem readsAfter_cons (r : RingRead) (v : Byte) (l : List RingRead) : readsAfter r v (r :: l) =
    l.filter (fun x => !r.user.same x.user)
      ++ (if r.left ≤ 1 then [] else [{ r with addr := r.addr + 1, left := r.left - 1, got := r.got ++ [v] }])
      ++ l.filter (fun x => r.user.same x.user) := by
  simp only [readsAfter, List.erase_cons_head]

/-- A write-back is asked for whether or not a host access waits. -/
theorem writeBack_hostWait (e : ImgRecord) (w : Option HostAccess) (p : Part) :
    writeBack e { p with hostWait := w } = { writeBack e p with hostWait := w } := by
  cases e <;> rfl

/-- A watched entry's read is made as it would be at the head of the ring, with no access waiting (R169). -/
theorem ringCycle_watched_eq {a : Addr} {r : RingRead} (m : List Host.Cell) (hwait : p.hostWait = some (.read a))
    (h : (p.ring.find? fun r => r.watches a.toNat) = some r) : ringCycle (p, m) =
      ({ (ringCycle ({ p with hostWait := none, ring := r :: p.ring.erase r }, m)).1 with hostWait := some (.read a) }, m) := by
  obtain ⟨e, he⟩ := user_of_watches (List.find?_some (p := fun r : RingRead => r.watches a.toNat) h)
  rw [ringCycle_watched m hwait (entryRead_of_find h), show ringServe (fun r => r.watches (accessAddr (.read a))) (p, m) = _ from ringServe_found m h, ringCycle_free m rfl,
    ringServe_found m (r := r) rfl]
  have haddr : ∀ q : Part, readAddr r q = r.addr := fun q => by simp only [readAddr, he]
  have hrest : ∀ v, readsAfter r v (r :: p.ring.erase r) = readsAfter r v p.ring := fun v => by
    rw [readsAfter_cons, readsAfter]
  have hsame : ∀ l, ({ p with ring := l } : Part) = { p with ring := l, hostWait := some (.read a) } := fun l => by
    rw [← hwait]
  simp only [haddr, modRing, hrest, he, readDone]
  split
  · rw [hsame]
    exact congrArg (·, m) (writeBack_hostWait e (some (.read a))
      { p with ring := readsAfter r (Mem.read m r.addr) p.ring, hostWait := none })
  · rw [hsame]

end

end Part

theorem readList_succ (m : List Host.Cell) (n : Nat) : ∀ a, Mem.readList m a (n + 1) = Mem.readList m a n ++ [Mem.read m (a + n)] := by
  induction n with
  | zero => exact fun a => rfl
  | succ n ih =>
    intro a
    rw [Mem.readList, ih (a + 1), Mem.readList, List.cons_append, Nat.add_right_comm, Nat.add_assoc]

namespace Part

/-! ## The cycles of the image writer, the receive paths, the copy engine and the printer readers (R16, R17, R81, R168) -/

section

variable {p : Part} {b : Branch}

theorem cycle_imageWriter {w : ImgActive} {v : Byte} {r : List Byte} (m : List Host.Cell)
    (hactive : p.writer.active = some w) (hleft : w.left = v :: r) : cycle .imageWriter (p, m) =
      ({ p with writer := { p.writer with active := some { w with addr := w.addr + 1, left := r } } },
        Mem.write m w.addr v) := by
  simp only [cycle, writerCycle, hactive, hleft]
  rfl

theorem cycle_receive_write {buf : BufNo} {off : Nat} {v : Byte} {r : List PathOp} (m : List Host.Cell)
    (h : p.path b = .write buf off v :: r) : cycle (.receive b) (p, m) =
      ({ p with paths := put p.paths b r }, Mem.write m (bufferAddr buf off) v) := by
  simp only [cycle, receiveCycle, h]
  rfl

theorem cycle_receive_last {y : LastByte} {r : List PathOp} (m : List Host.Cell) (h : p.path b = .last y :: r) :
    cycle (.receive b) (p, m) = ({ p with paths := put p.paths b r }, y.write m) := by
  simp only [cycle, receiveCycle, h]
  rfl

theorem cycle_receive_shiftRead {buf : BufNo} {len i : Nat} {r : List PathOp} (m : List Host.Cell)
    (h : p.path b = .shift buf len i none :: r) (hi : i < len) : cycle (.receive b) (p, m) =
      ({ p with paths := put p.paths b (.shift buf len i (some (Mem.read m (bufferAddr buf (3 + i)))) :: r) }, m) := by
  simp only [cycle, receiveCycle, h, hi, if_true]
  rfl

theorem cycle_receive_shiftWrite {buf : BufNo} {len i : Nat} {v : Byte} {r : List PathOp} (m : List Host.Cell)
    (h : p.path b = .shift buf len i (some v) :: r) : cycle (.receive b) (p, m) =
      ({ p with paths := put p.paths b (.shift buf len (i + 1) none :: r) }, Mem.write m (bufferAddr buf i) v) := by
  simp only [cycle, receiveCycle, h]
  rfl

/-- A receive path with no work of its own reads for the SEND. -/
theorem cycle_receive_send {t : TxRead} (m : List Host.Cell) (h : p.path b = []) (ht : (p.engine b).txRead = some t) :
    cycle (.receive b) (p, m) = (txCycle b t (Mem.read m (bufferAddr t.buf t.offset)) p, m) := by
  simp only [cycle, receiveCycle, h, ht]

/-- The frame's unit, length and payload are read in order, the sequence byte passed over. -/
theorem bufferAddr_offset (t : TxRead) : bufferAddr t.buf t.offset = 0x10000 + 256 * t.buf.val +
    if t.got.length = 0 then 0 else if t.got.length = 1 then 2 else t.got.length + 1 := by
  unfold TxRead.offset
  split
  · next h => simp only [h]; rfl
  · next h => simp only [h]; rfl
  · next h0 h1 => rw [if_neg h0, if_neg h1]; rfl

theorem txCycle_more {t : TxRead} {v : Byte}
    (h : (t.got ++ [v]).length < 2 ∨ (t.got ++ [v]).length < (byteAt (t.got ++ [v]) 1).toNat + 2) :
    txCycle b t v p = { p with
      engines := put p.engines b { p.engine b with txRead := some { t with got := t.got ++ [v] } } } := by
  have hmore : TxRead.complete (t.got ++ [v]) = false := by
    simp only [TxRead.complete, Bool.and_eq_false_iff, decide_eq_false_iff_not]
    omega
  simp only [txCycle, modEngine, hmore, Bool.false_eq_true, if_false]

theorem txCycle_last {t : TxRead} {v : Byte} (hlen : 2 ≤ (t.got ++ [v]).length)
    (h : (byteAt (t.got ++ [v]) 1).toNat + 2 ≤ (t.got ++ [v]).length) :
    txCycle b t v p = { p with engines := put p.engines b { p.engine b with
      txRead := none
      sent := (p.engine b).sent ++ frameChars (byteAt (t.got ++ [v]) 0) t.ctl (byteAt (t.got ++ [v]) 1)
        ((t.got ++ [v]).drop 2) } } := by
  have hlast : TxRead.complete (t.got ++ [v]) = true := by
    simp only [TxRead.complete, Bool.and_eq_true, decide_eq_true_eq]
    exact ⟨hlen, h⟩
  simp only [txCycle, modEngine, hlast, if_true]

theorem cycle_copy_stopped {y : LastByte} (m : List Host.Cell) (h : p.copy.stopped = some y) :
    cycle .copy (p, m) = ({ p with copy := { p.copy with stopped := none } }, y.write m) := by
  simp only [cycle, copyCycle, h]
  rfl

theorem cycle_copy_head {c : Copy} {v : Byte} {r : List Byte} (m : List Host.Cell) (hstopped : p.copy.stopped = none)
    (hcopy : p.copy.current = some c) (hhead : c.head = v :: r) : cycle .copy (p, m) =
      (copyWritten { c with head := r, off := c.off + 1 } p, Mem.write m (bufferAddr c.buf c.off) v) := by
  simp only [cycle, copyCycle, hstopped, hcopy, hhead]

theorem cycle_copy_byte {c : Copy} {v : Byte} (m : List Host.Cell) (hstopped : p.copy.stopped = none)
    (hcopy : p.copy.current = some c) (hhead : c.head = []) (hbyte : c.byte = some v) : cycle .copy (p, m) =
      (copyWritten { c with byte := none, off := c.off + 1 } p, Mem.write m (bufferAddr c.buf c.off) v) := by
  simp only [cycle, copyCycle, hstopped, hcopy, hhead, hbyte]

theorem cycle_copy_read {c : Copy} (m : List Host.Cell) (hstopped : p.copy.stopped = none)
    (hcopy : p.copy.current = some c) (hhead : c.head = []) (hbyte : c.byte = none) (hleft : 0 < c.left) :
    cycle .copy (p, m) = ({ p with
      copy := { p.copy with
        current := some { c with byte := some (Mem.read m c.src), src := c.src + 1, left := c.left - 1 } } }, m) := by
  have hread : copyCycle (p, m) = (modCopy (fun e => { e with
      current := some { c with byte := some (Mem.read m c.src), src := c.src + 1, left := c.left - 1 } }) p, m) := by
    simp only [copyCycle, hstopped, hcopy, hhead, hbyte, hleft, if_true]
  exact hread

/-- A byte is written; with the last one of a to-trunk copy the walk asks for its target fields. -/
theorem copyWritten_eq (d : Copy) (p : Part) : copyWritten d p = { p with
    copy := { p.copy with current := some d }
    ring := p.ring ++ if d.head = [] ∧ d.byte = none then
        (if d.walk = .toTrunk ∧ d.left = 0 then
          [{ user := .toTrunk, addr := 0x02801 + 32 * p.toTrunk.index.val, left := 9, got := [] }] else [])
      else [] } := by
  have haddr : (ImgRecord.toTrunk p.toTrunk.index).base + 1 = 0x02801 + 32 * p.toTrunk.index.val := by
    simp only [ImgRecord.base, Config.toTrunkBase]
    omega
  by_cases hfirst : d.head = [] ∧ d.byte = none
  · by_cases hlast : d.walk = .toTrunk ∧ d.left = 0
    · rw [if_pos hfirst, if_pos hlast, copyWritten_last p ⟨hlast.1, hfirst.1, hlast.2, hfirst.2⟩, ttAskTarget, ← haddr]
      rfl
    · rw [if_pos hfirst, if_neg hlast, List.append_nil, copyWritten, if_neg fun ⟨h1, _, h3, _⟩ => hlast ⟨h1, h3⟩]
      rfl
  · rw [if_neg hfirst, List.append_nil, copyWritten, if_neg fun ⟨_, h2, _, h4⟩ => hfirst ⟨h2, h4⟩]
    rfl

theorem cycle_printer {k : Port} {a : Nat} (m : List Host.Cell) (h : p.readerWants k = some a) :
    cycle (.printer k) (p, m) = (byteFetched k (Mem.read m a) p, m) := by
  simp only [cycle, printerCycle, h]

theorem byteFetched_eq (k : Port) (v : Byte) (p : Part) : byteFetched k v p = { p with
    ports := put p.ports k (if (p.port k).overdue then
        { p.port k with fetched := some v, abandoned := false, overdue := false }
      else { p.port k with fetched := some v }) } := by
  unfold byteFetched
  extract_lets q
  split
  · exact modPort_modPort ..
  · rfl

/-! ## The cycles of the ring and descriptor requester -/

theorem cycle_ring_eq {r : RingRead} {l : List RingRead} (m : List Host.Cell) (hring : p.ring = r :: l)
    (hwait : p.hostWait = none) : cycle .ring (p, m) =
      (if r.left ≤ 1 then readDone r.user (r.got ++ [Mem.read m (readAddr r p)])
          { p with ring := readsAfter r (Mem.read m (readAddr r p)) (r :: l) }
        else { p with ring := readsAfter r (Mem.read m (readAddr r p)) (r :: l) }, m) := by
  have hfind : p.ring.find? (fun _ => true) = some r := by rw [hring]; rfl
  rw [cycle, ringCycle_free m hwait, ringServe_found m hfind, modRing, hring]

theorem readAddr_eq (r : RingRead) (p : Part) :
    readAddr r p = if r.user = .router then 0x02000 + 32 * p.router.producer.val else r.addr := by
  by_cases h : r.user = .router
  · simp only [readAddr, h, if_true]
    rfl
  · rw [readAddr_of_ne r p h, if_neg h]

/-- A read that stands alone is made byte by byte. -/
theorem cycles_ring {u : RingUser} {a n : Nat} {got : List Byte} (m : List Host.Cell) (hu : u ≠ .router)
    (hwait : p.hostWait = none) (hring : p.ring = [{ user := u, addr := a, left := n + 1, got := got }]) :
    cycles .ring (n + 1) (p, m) = cycle .ring ({ p with
      ring := [{ user := u, addr := a + n, left := 1, got := got ++ Mem.readList m a n }] }, m) := by
  rw [cycles_reads u hu m n a got p hwait hring, readList_succ, ← List.append_assoc]
  exact (cycle_lastRead u hu (a + n) (got ++ Mem.readList m a n) []
    { p with ring := [{ user := u, addr := a + n, left := 1, got := got ++ Mem.readList m a n }] } m
    ⟨hwait, rfl, fun r hr => nomatch hr⟩).symm

theorem same_iff (u v : RingUser) : u.same v = true ↔ u = v ∨ ∃ e e', u = .entry e ∧ v = .entry e' := by
  unfold RingUser.same
  split
  · simp
  · next h =>
    rw [decide_eq_true_eq]
    exact ⟨.inl, fun h' => h'.resolve_right fun ⟨e, e', hu, hv⟩ => h e e' hu hv⟩

/-! ## The setup loader's cycles (R168, R177, R179) -/

theorem tableWork_none (h : ∀ k : Port, (p.port k).loading = none) : p.tableWork = none := by
  have hfind : printerPorts.find? (fun k => (p.port k).loading.isSome) = none :=
    List.find?_eq_none.mpr fun k _ => by simp [h k]
  simp only [tableWork, hfind]

/-- With no table to read and no access waiting the loader does the commit's work. -/
theorem loaderWork_commit (hwait : p.hostWait = none) (htable : p.tableWork = none)
    (h : ∀ soft pos entry, p.loader.task ≠ .initialise soft pos entry) : p.loaderWork = p.commitWork := by
  unfold loaderWork
  split
  · next soft pos entry htask => exact absurd htask (h soft pos entry)
  · simp only [waitsOnSetup, hwait, htable, Bool.false_eq_true, if_false, Option.orElse_none]

theorem cycle_loader_read {l : List Byte} (m : List Host.Cell) (h : p.loaderWork = some (.read l)) :
    cycle .loader (p, m) = ({ p with loader := { p.loader with
      task := .reading (l ++ [Mem.read m (Config.setupBase + l.length)]) } }, m) := by
  simp only [cycle, loaderCycle, h]
  rfl

theorem cycle_loader_write {next : Setup} {pos : Nat} (m : List Host.Cell)
    (h : p.loaderWork = some (.write next pos)) : cycle .loader (p, m) =
      ({ p with loader := { p.loader with task := .writing next (pos + 1) } },
        Mem.write m (Config.setupBase + pos) (byteAt (setupImage next) pos)) := by
  simp only [cycle, loaderCycle, h]
  rfl

/-- Initialisation makes the cycle at its position (R187). -/
theorem cycle_loader_initWrite {soft : Bool} {pos a : Nat} {entry : List Byte} {v : Byte} (m : List Host.Cell)
    (htask : p.loader.task = .initialise soft pos entry) (hpos : pos < Config.initCycles soft)
    (h : p.initCycle soft pos = some (.write a v)) : cycle .loader (p, m) =
      ({ p with loader := { p.loader with task := .initialise soft (pos + 1) [] } }, Mem.write m a v) := by
  have hwork : p.loaderWork = some (.initialise soft pos entry) := by simp only [loaderWork, htask, hpos, if_true]
  simp only [cycle, loaderCycle, hwork, h]
  rfl

theorem cycle_loader_initRead {soft : Bool} {pos a : Nat} {entry : List Byte} (m : List Host.Cell)
    (htask : p.loader.task = .initialise soft pos entry) (hpos : pos < Config.initCycles soft)
    (h : p.initCycle soft pos = some (.read a)) : cycle .loader (p, m) =
      (takeInitByte pos entry (Mem.read m a) p, m) := by
  have hwork : p.loaderWork = some (.initialise soft pos entry) := by simp only [loaderWork, htask, hpos, if_true]
  simp only [cycle, loaderCycle, hwork, h]

/-! ## A cycle leaves the arbiter's place -/

theorem readDone_arbiter (u : RingUser) (l : List Byte) (p : Part) : (readDone u l p).arbiter = p.arbiter := by
  unfold readDone
  split
  · rcases decideOffer_confined (byteAt l 0) p with ⟨-, he⟩ | ⟨o, r, -, hc⟩
    · rw [he]
    · exact hc.arbiter
  · exact congrArg (fun x => x.2.2.2.2.2.2.2) (supervision_ttRead l p)
  · exact congrArg (fun x => x.2.2.2.2.2.2.2) (supervision_subRead l p)
  · simp

theorem ringServe_arbiter (f : RingRead → Bool) (x : Part × List Host.Cell) :
    (ringServe f x).1.arbiter = x.1.arbiter := by
  unfold ringServe
  split
  · extract_lets v q
    split
    · exact readDone_arbiter ..
    · rfl
  · rfl

theorem takeInitByte_arbiter (pos : Nat) (entry : List Byte) (v : Byte) (p : Part) :
    (takeInitByte pos entry v p).arbiter = p.arbiter := by
  unfold takeInitByte
  extract_lets l
  split <;> split <;> rfl

theorem loaderCycle_arbiter (x : Part × List Host.Cell) : (loaderCycle x).1.arbiter = x.1.arbiter := by
  unfold loaderCycle
  extract_lets setTask
  split
  · split
    · rfl
    · exact takeInitByte_arbiter ..
    · rfl
  · unfold tableByte tableLoaded
    split <;> simp
  · rfl
  · rfl
  · rfl

theorem cycle_arbiter (r : Requester) (x : Part × List Host.Cell) : (cycle r x).1.arbiter = x.1.arbiter := by
  unfold cycle
  split
  · unfold writerCycle
    repeat' split
    all_goals rfl
  · unfold receiveCycle
    extract_lets tx
    have htx : tx.1.arbiter = x.1.arbiter := by
      unfold tx
      split <;> rfl
    repeat' split
    all_goals first | exact htx | rfl
  · unfold copyCycle
    repeat' split
    all_goals simp
  · unfold printerCycle
    split <;> simp
  · unfold ringCycle
    split
    · split <;> exact ringServe_arbiter ..
    · exact ringServe_arbiter ..
  · exact loaderCycle_arbiter x

/-! ## The end of a shift (R81) -/

theorem shiftDone_going {buf : BufNo} {len i : Nat} {r : List PathOp} (h : p.path b = .shift buf len i none :: r)
    (hi : i < len) : shiftDone b p = p := by
  simp only [shiftDone, h, Nat.not_le.mpr hi, if_false]

theorem shiftDone_moved {buf : BufNo} {len i : Nat} {r : List PathOp} (h : p.path b = .shift buf len i none :: r)
    (hi : len ≤ i) : shiftDone b p = { p with
      paths := put p.paths b r
      jobs := p.jobs.map fun x => { x with chain := x.chain.map fun e =>
        if e.buf = buf then { e with shifted := true } else e } } := by
  simp only [shiftDone, h, hi, if_true]
  rfl

end

end Part

end Sys2Proof.Machine
end

section
/-! PROOF. Start-up initialisation cycle by cycle, and the memory port as a whole (O31). -/

namespace Sys2Proof.Machine

/-! ## The images of a start-up initialisation (R187, R188) -/

theorem imageCycle_skip {base n : Nat} {f : Nat → Byte} {l : List (Nat × Nat × (Nat → Byte))} (i : Nat) :
    imageCycle ((base, n, f) :: l) (n + i) = imageCycle l i := by
  rw [imageCycle, if_neg (by omega), Nat.add_sub_cancel_left]

/-- The cycle that writes byte `i` of the image after those of `pre`. -/
theorem imageCycle_at {base n i : Nat} {f : Nat → Byte} {post : List (Nat × Nat × (Nat → Byte))} (hi : i < n)
    (pre : List (Nat × Nat × (Nat → Byte))) :
    imageCycle (pre ++ (base, n, f) :: post) ((pre.map fun x => x.2.1).sum + i) = some (.write (base + i) (f i)) := by
  induction pre with
  | nil => rw [List.map_nil, List.sum_nil, Nat.zero_add]; exact if_pos hi
  | cons x pre ih => rw [List.map_cons, List.sum_cons, Nat.add_assoc, List.cons_append, imageCycle_skip, ih]

/-- Within the images every cycle is a write. -/
theorem imageCycle_write (l : List (Nat × Nat × (Nat → Byte))) : ∀ {pos : Nat}, pos < (l.map fun x => x.2.1).sum →
    ∃ a v, imageCycle l pos = some (.write a v) := by
  induction l with
  | nil => exact fun h => absurd h (Nat.not_lt_zero _)
  | cons x l ih =>
    obtain ⟨base, n, f⟩ := x
    intro pos h
    rw [imageCycle]
    split
    · exact ⟨_, _, rfl⟩
    · simp only [List.map_cons, List.sum_cons] at h
      exact ih (by omega)

theorem unitImage_blank (i : Nat) : byteAt (unitImage UnitEntry.blank) (i % 4) = if i % 4 = 3 then 0x0F else 0 := by
  have hlt : i % 4 < 4 := Nat.mod_lt _ (by decide)
  generalize i % 4 = k at hlt
  obtain rfl | rfl | rfl | rfl : k = 0 ∨ k = 1 ∨ k = 2 ∨ k = 3 := by omega
  all_goals rfl

theorem nodeImage_blank (i : Nat) : byteAt (nodeImage NodeEntry.blank) (i % 8) = 0 := by
  have hlt : i % 8 < 8 := Nat.mod_lt _ (by decide)
  generalize i % 8 = k at hlt
  obtain rfl | rfl | rfl | rfl | rfl | rfl | rfl | rfl :
      k = 0 ∨ k = 1 ∨ k = 2 ∨ k = 3 ∨ k = 4 ∨ k = 5 ∨ k = 6 ∨ k = 7 := by omega
  all_goals rfl

namespace Part

section

variable {p : Part}

theorem initCycle_full (pos : Nat) : p.initCycle false pos = imageCycle allImages pos := by
  simp only [initCycle, Bool.not_false, if_true]

/-- A byte of an image of start-up initialisation. -/
theorem cycle_loader_image {base n i pos : Nat} {f : Nat → Byte} {v : Byte} {entry : List Byte} (m : List Host.Cell)
    (pre post : List (Nat × Nat × (Nat → Byte))) (htask : p.loader.task = .initialise false pos entry)
    (himages : allImages = pre ++ (base, n, f) :: post) (hpos : pos = (pre.map fun x => x.2.1).sum + i) (hi : i < n)
    (hlt : pos < 10848) (hv : f i = v) : cycle .loader (p, m) =
      ({ p with loader := { p.loader with task := .initialise false (pos + 1) [] } }, Mem.write m (base + i) v) := by
  have hcycle : p.initCycle false pos = some (.write (base + i) v) := by
    rw [initCycle_full, himages, hpos, imageCycle_at hi pre, hv]
  exact cycle_loader_initWrite m htask hlt hcycle

/-! ## The reload of SOFT_RESET (R50, R188) -/

theorem initCycle_unitRead {u : Fin 256} {k : Nat} (hk : k < 4) :
    p.initCycle true (8 * u.val + k) = some (.read (0x00300 + 4 * u.val + k)) := by
  have hdiv : (8 * u.val + k) / 8 = u.val := by omega
  have hmod : (8 * u.val + k) % 8 = k := by omega
  have hpos : 8 * u.val + k < 2048 := by omega
  simp only [initCycle, Bool.not_true, Bool.false_eq_true, if_false, hpos, if_true, hdiv, hmod, hk]
  rfl

theorem initCycle_unitWrite {u : Fin 256} {k : Nat} (hk : k < 4) : p.initCycle true (8 * u.val + 4 + k) =
    some (.write (0x00300 + 4 * u.val + k) (byteAt (unitImage (p.units.get u)) k)) := by
  have hdiv : (8 * u.val + 4 + k) / 8 = u.val := by omega
  have hmod : (8 * u.val + 4 + k) % 8 = 4 + k := by omega
  have hpos : 8 * u.val + 4 + k < 2048 := by omega
  have hunit : Fin.ofNat 256 u.val = u := Fin.ext (Nat.mod_eq_of_lt u.isLt)
  have hbyte : ¬ 4 + k < 4 := by omega
  simp only [initCycle, Bool.not_true, Bool.false_eq_true, if_false, hpos, if_true, hdiv, hmod, hbyte, hunit,
    Nat.add_sub_cancel_left]
  rfl

theorem initCycle_nodeRead {n : Fin 64} {k : Nat} (hk : k < 8) :
    p.initCycle true (2048 + 16 * n.val + k) = some (.read (0x00700 + 8 * n.val + k)) := by
  have hdiv : (2048 + 16 * n.val + k - 2048) / 16 = n.val := by omega
  have hmod : (2048 + 16 * n.val + k - 2048) % 16 = k := by omega
  have hunits : ¬ 2048 + 16 * n.val + k < 2048 := by omega
  have hpos : 2048 + 16 * n.val + k < 3072 := by omega
  simp only [initCycle, Bool.not_true, Bool.false_eq_true, if_false, hunits, hpos, if_true, hdiv, hmod, hk]
  rfl

theorem initCycle_nodeWrite {n : Fin 64} {k : Nat} (hk : k < 8) : p.initCycle true (2048 + 16 * n.val + 8 + k) =
    some (.write (0x00700 + 8 * n.val + k) (byteAt (nodeImage (p.nodes.get n)) k)) := by
  have hdiv : (2048 + 16 * n.val + 8 + k - 2048) / 16 = n.val := by omega
  have hmod : (2048 + 16 * n.val + 8 + k - 2048) % 16 = 8 + k := by omega
  have hunits : ¬ 2048 + 16 * n.val + 8 + k < 2048 := by omega
  have hpos : 2048 + 16 * n.val + 8 + k < 3072 := by omega
  have hnode : Fin.ofNat 64 n.val = n := Fin.ext (Nat.mod_eq_of_lt n.isLt)
  have hbyte : ¬ 8 + k < 8 := by omega
  simp only [initCycle, Bool.not_true, Bool.false_eq_true, if_false, hunits, hpos, if_true, hdiv, hmod, hbyte, hnode,
    Nat.add_sub_cancel_left]
  rfl

theorem initCycle_later (k : Nat) : p.initCycle true (3072 + k) = imageCycle laterImages k := by
  have hunits : ¬ 3072 + k < 2048 := by omega
  have hnodes : ¬ 3072 + k < 3072 := by omega
  simp only [initCycle, Bool.not_true, Bool.false_eq_true, if_false, hunits, hnodes, Nat.add_sub_cancel_left]

/-- After the tables a reload goes on as a start from power-on does. -/
theorem initCycle_full_later (k : Nat) : p.initCycle false (2144 + k) = imageCycle laterImages k := by
  have himages : allImages = [(Config.setupBase, 512, fun i => byteAt (setupImage Setup.default) i),
    (Config.unitBase, 1024, fun i => byteAt (unitImage UnitEntry.blank) (i % 4)),
    (Config.nodeBase, 512, fun i => byteAt (nodeImage NodeEntry.blank) (i % 8)),
    (Config.grantBase, 96, fun i => BitVec.ofNat 8 (i % 32 % 5))] ++ laterImages := rfl
  rw [initCycle_full, himages, (by omega : 2144 + k = 512 + (1024 + (512 + (96 + k))))]
  simp only [List.cons_append, List.nil_append, imageCycle_skip]

theorem takeInitByte_unit {u : Fin 256} {k : Nat} (entry : List Byte) (v : Byte) (hk : k < 3) :
    takeInitByte (8 * u.val + k) entry v p = { p with
      loader := { p.loader with task := .initialise true (8 * u.val + k + 1) (entry ++ [v]) } } := by
  have hpos : 8 * u.val + k < 2048 := by omega
  have hmod : ¬ (8 * u.val + k) % 8 = 3 := by omega
  simp only [takeInitByte, hpos, if_true, hmod, if_false]

theorem takeInitByte_unitLast {u : Fin 256} (entry : List Byte) (v : Byte) :
    takeInitByte (8 * u.val + 3) entry v p = { p with
      units := put p.units u (reloadUnit (entry ++ [v]))
      loader := { p.loader with task := .initialise true (8 * u.val + 3 + 1) [] } } := by
  have hpos : 8 * u.val + 3 < 2048 := by omega
  have hmod : (8 * u.val + 3) % 8 = 3 := by omega
  have hunit : Fin.ofNat 256 ((8 * u.val + 3) / 8) = u := by
    apply Fin.ext
    simp only [Fin.ofNat]
    omega
  simp only [takeInitByte, hpos, if_true, hmod, hunit]

theorem takeInitByte_node {n : Fin 64} {k : Nat} (entry : List Byte) (v : Byte) (hk : k < 7) :
    takeInitByte (2048 + 16 * n.val + k) entry v p = { p with
      loader := { p.loader with task := .initialise true (2048 + 16 * n.val + k + 1) (entry ++ [v]) } } := by
  have hpos : ¬ 2048 + 16 * n.val + k < 2048 := by omega
  have hmod : ¬ (2048 + 16 * n.val + k) % 16 = 7 := by omega
  simp only [takeInitByte, hpos, hmod, if_false]

theorem takeInitByte_nodeLast {n : Fin 64} (entry : List Byte) (v : Byte) :
    takeInitByte (2048 + 16 * n.val + 7) entry v p = { p with
      nodes := put p.nodes n (readNode (entry ++ [v]))
      loader := { p.loader with task := .initialise true (2048 + 16 * n.val + 7 + 1) [] } } := by
  have hpos : ¬ 2048 + 16 * n.val + 7 < 2048 := by omega
  have hmod : (2048 + 16 * n.val + 7) % 16 = 7 := by omega
  have hnode : Fin.ofNat 64 ((2048 + 16 * n.val + 7 - 2048) / 16) = n := by
    apply Fin.ext
    simp only [Fin.ofNat]
    omega
  simp only [takeInitByte, hpos, if_false, hmod, if_true, hnode]

end

end Part

/-- Settles O31: the grant by who asks, then one cycle of each requester. -/
theorem memoryCyclesAreGrantedAndMade : Obligations.MemoryCyclesAreGrantedAndMade := by
  refine ⟨fun s hheld => ?grants, fun p m => ?cycles, fun p m pos i htask => ?images,
    fun p m pos k entry htask => ?reload, fun l => ⟨fun e he => ?entry, fun hnone => ?unassigned⟩,
    fun s b buf len i r hheld hpath => ?shift⟩
  case entry => simp only [reloadUnit, he, Option.getD_some]
  case unassigned => simp only [reloadUnit, hnone, Option.getD_none]
  case shift =>
    exact ⟨fun hi => onPart_awake_eq hheld (Part.shiftDone_going hpath hi),
      fun hi => onPart_awake_eq hheld (Part.shiftDone_moved hpath hi)⟩
  case images =>
    intro writes
    refine ⟨fun hpos hi => ?_, fun hpos hi => ?_, fun hpos hi => ?_, fun hpos hi => ?_, fun hpos hi => ?_,
      fun hpos hi => ?_, fun hpos hi => ?_, fun hpos hi => ?_, fun hpos hi => ?_, fun hpos hi => ?_, fun hpos hi => ?_⟩
    · exact Part.cycle_loader_image m [] (allImages.drop 1) htask rfl (hpos.trans (Nat.zero_add i).symm) hi (by omega) rfl
    · exact Part.cycle_loader_image m (allImages.take 1) (allImages.drop 2) htask rfl hpos hi (by omega) (unitImage_blank i)
    · exact Part.cycle_loader_image m (allImages.take 2) (allImages.drop 3) htask rfl hpos hi (by omega) (nodeImage_blank i)
    · exact Part.cycle_loader_image m (allImages.take 3) (allImages.drop 4) htask rfl hpos hi (by omega) rfl
    · exact Part.cycle_loader_image m (allImages.take 4) (allImages.drop 5) htask rfl hpos hi (by omega) rfl
    · exact Part.cycle_loader_image m (allImages.take 5) (allImages.drop 6) htask rfl hpos hi (by omega) rfl
    · exact Part.cycle_loader_image m (allImages.take 6) (allImages.drop 7) htask rfl hpos hi (by omega) rfl
    · exact Part.cycle_loader_image m (allImages.take 7) (allImages.drop 8) htask rfl hpos hi (by omega) rfl
    · exact Part.cycle_loader_image m (allImages.take 8) (allImages.drop 9) htask rfl hpos hi (by omega) rfl
    · exact Part.cycle_loader_image m (allImages.take 9) (allImages.drop 10) htask rfl hpos hi (by omega) rfl
    · exact Part.cycle_loader_image m (allImages.take 10) (allImages.drop 11) htask rfl hpos hi (by omega) rfl
  case reload =>
    intro next
    refine ⟨fun u hk => ?_, fun n hk => ?_, fun q hpos hk hq => ?_⟩
    · intro a l
      refine ⟨fun hpos hk3 => ?_, fun hpos hk3 => ?_, fun hpos => ?_⟩
      · subst hpos
        rw [Part.cycle_loader_initRead m htask (by simp only [Config.initCycles, if_true]; omega)
          (Part.initCycle_unitRead hk), Part.takeInitByte_unit entry _ hk3]
      · subst hk3 hpos
        rw [Part.cycle_loader_initRead m htask (by simp only [Config.initCycles, if_true]; omega)
          (Part.initCycle_unitRead hk), Part.takeInitByte_unitLast]
      · subst hpos
        exact Part.cycle_loader_initWrite m htask (by simp only [Config.initCycles, if_true]; omega)
          (Part.initCycle_unitWrite hk)
    · intro a l
      refine ⟨fun hpos hk7 => ?_, fun hpos hk7 => ?_, fun hpos => ?_⟩
      · subst hpos
        rw [Part.cycle_loader_initRead m htask (by simp only [Config.initCycles, if_true]; omega)
          (Part.initCycle_nodeRead hk), Part.takeInitByte_node entry _ hk7]
      · subst hk7 hpos
        rw [Part.cycle_loader_initRead m htask (by simp only [Config.initCycles, if_true]; omega)
          (Part.initCycle_nodeRead hk), Part.takeInitByte_nodeLast]
      · subst hpos
        exact Part.cycle_loader_initWrite m htask (by simp only [Config.initCycles, if_true]; omega)
          (Part.initCycle_nodeWrite hk)
    · subst hpos
      obtain ⟨a, v, hwrite⟩ : ∃ a v, imageCycle laterImages k = some (.write a v) := imageCycle_write laterImages hk
      rw [Part.cycle_loader_initWrite m htask (by simp only [Config.initCycles, if_true]; omega)
          ((Part.initCycle_later k).trans hwrite),
        Part.cycle_loader_initWrite (p := q) m hq (by simp only [Config.initCycles, Bool.false_eq_true, if_false]; omega)
          ((Part.initCycle_full_later k).trans hwrite)]
  case grants =>
    have hexec : ∀ {x}, Part.memoryGrant (s.part, s.mem) = x →
        exec .memoryPortGrant s = .next { s with part := x.1, mem := x.2 } := fun {x} h => by
      show onBoth Part.memoryGrant s = _
      rw [onBoth, h]
    refine ⟨fun hwait hnone => ?_, fun i hwait hi hfirst => ?_, fun a hwait hsetup hask => ?_,
      fun a hwait hsetup himage hask hring => ?_, fun a r hwait hsetup hfind => ?_, fun a hwait hfree => ?_,
      fun a v hwait hfree hwf hclass => ?_⟩
    · exact hexec ((Part.memoryGrant_free s.mem hheld hwait).trans (Part.cyclicGrant_idle s.mem hnone))
    · refine ⟨_, hexec ((Part.memoryGrant_free s.mem hheld hwait).trans
        (Part.cyclicGrant_next s.mem (Part.nextAsking_first hi hfirst))), Part.cycle_arbiter .., rfl⟩
    · have hcovered : s.part.covered a.toNat = true := by simp [Part.covered, hsetup]
      exact ⟨_, hexec (Part.memoryGrant_favoured s.mem hheld hwait hcovered
        (show s.part.favoured a.toNat = some .loader by simp [Part.favoured, hsetup, hask])), rfl⟩
    · have hread : s.part.entryRead a.toNat = false := Part.entryRead_eq_false hring
      have hcovered : s.part.covered a.toNat = true := by simp [Part.covered, himage]
      exact ⟨_, hexec (Part.memoryGrant_favoured s.mem hheld hwait hcovered
        (show s.part.favoured a.toNat = some .imageWriter by simp [Part.favoured, hsetup, hread, himage, hask])), rfl⟩
    · have hread : s.part.entryRead a.toNat = true := Part.entryRead_of_find hfind
      have hcovered : s.part.covered a.toNat = true := by simp [Part.covered, hread]
      exact hexec ((Part.memoryGrant_favoured s.mem hheld hwait hcovered
        (show s.part.favoured a.toNat = some .ring by simp [Part.favoured, hsetup, hread])).trans
        (Part.ringCycle_watched_eq s.mem hwait hfind))
    · exact hexec (Part.memoryGrant_access s.mem hheld hwait hfree)
    · obtain ⟨-, hstation, hunit, hnode⟩ := wellFormed_hostWrite.mp hwf
      have hmade : Part.makeAccess (.write a v) (s.part, s.mem) =
          ({ s.part with hostWait := none }, Mem.write s.mem a.toNat v) :=
        (Part.makeWrite_passes (x := ({ s.part with hostWait := none }, s.mem)) hclass).trans
          (by rw [Part.trigger_plain _ hstation hunit hnode])
      exact hexec ((Part.memoryGrant_access s.mem hheld hwait hfree).trans hmade)
  case cycles =>
    intro target
    refine ⟨fun w v r hactive hleft => Part.cycle_imageWriter m hactive hleft,
      fun b buf off v r h => Part.cycle_receive_write m h, fun b y r h => Part.cycle_receive_last m h,
      fun y h => Part.cycle_copy_stopped m h, fun b buf len i r h hi => ?shiftRead,
      fun b buf len i v r h => Part.cycle_receive_shiftWrite m h, fun b t h ht => ?send, fun r l hring hwait => ?ring,
      fun u a n got hu hwait hring => Part.cycles_ring m hu hwait hring, Part.same_iff,
      fun c v r hstopped hcopy hhead => ?copyHead,
      fun c hstopped hcopy hhead hbyte hleft => Part.cycle_copy_read m hstopped hcopy hhead hbyte hleft,
      fun c v hstopped hcopy hhead hbyte => ?copyByte, fun k a ha => ?printer, fun htable hwait => ?loader⟩
    case shiftRead =>
      rw [Part.cycle_receive_shiftRead m h hi]
      simp only [bufferAddr, Config.poolBase, Config.bufferBytes, Nat.add_assoc]
    case send =>
      intro n l
      have hcycle := Part.cycle_receive_send m h ht
      rw [Part.bufferAddr_offset] at hcycle
      refine ⟨fun hmore => ?_, fun hlen hlast => ?_⟩
      · rw [hcycle, Part.txCycle_more hmore]
      · rw [hcycle, Part.txCycle_last hlen hlast]
    case ring =>
      intro v others own
      have hcycle := Part.cycle_ring_eq m hring hwait
      rw [Part.readAddr_eq, Part.readsAfter_cons] at hcycle
      refine ⟨fun hleft => ?_, fun hleft => ?_⟩
      · rw [hcycle, if_neg (Nat.not_le.mpr hleft), if_neg (Nat.not_le.mpr hleft)]
      · rw [if_pos hleft, if_pos hleft, List.append_nil] at hcycle
        intro back
        have hdone : ∀ e bytes, r.user = .entry e → Part.readDone r.user bytes { p with ring := others ++ own } =
            Part.writeBack e { p with ring := others ++ own } := fun e bytes h => by
          rw [h]
          rfl
        refine ⟨fun u hu => ?_, fun n hn => ?_, fun b n hn => ?_⟩
        · exact hcycle.trans (congrArg (·, m) (hdone _ _ hu))
        · exact hcycle.trans (congrArg (·, m) (hdone _ _ hn))
        · exact hcycle.trans (congrArg (·, m) (hdone _ _ hn))
    case copyHead =>
      rw [Part.cycle_copy_head m hstopped hcopy hhead, Part.copyWritten_eq]
      rfl
    case copyByte =>
      rw [Part.cycle_copy_byte m hstopped hcopy hhead hbyte, Part.copyWritten_eq,
        if_pos (⟨hhead, rfl⟩ : c.head = [] ∧ (none : Option Byte) = none)]
      rfl
    case printer =>
      intro t t'
      rw [Part.cycle_printer m ha, Part.byteFetched_eq]
    case loader =>
      have hwork : ∀ {w}, (∀ soft pos entry, p.loader.task ≠ .initialise soft pos entry) → p.commitWork = some w →
          p.loaderWork = some w := fun htask hcommit =>
        (Part.loaderWork_commit hwait (Part.tableWork_none htable) htask).trans hcommit
      refine ⟨fun l htask hlen => ?_, fun next pos htask hpos => ?_⟩
      · refine Part.cycle_loader_read m (hwork (fun _ _ _ h => nomatch htask.symm.trans h) ?_)
        simp only [Part.commitWork, htask, Config.setupBytes, hlen, if_true]
      · refine Part.cycle_loader_write m (hwork (fun _ _ _ h => nomatch htask.symm.trans h) ?_)
        simp only [Part.commitWork, htask, Config.setupBytes, hpos, if_true]

end Sys2Proof.Machine
end

section
/-! PROOF. The completion of a queue entry and the end of a transmission (O33). -/

namespace Sys2Proof.Machine

/-- The relay-dropped count of an engine after an entry has completed with a code (R23). -/
def TxEntry.dropCount (e : TxEntry) (code : TxCode) (n : Nat) : Nat :=
  match e.origin with
  | .slot _ _ => n
  | .relay _ _ => if code.dropped then satInc 65535 n else n

namespace Part

/-! ## The completion of an entry (R22, R23) -/

section

variable {p : Part} {b : Branch} {e : TxEntry} {code : TxCode}

theorem completeEntry_relayDropped (b : Branch) (e : TxEntry) (code : TxCode) (p : Part) :
    ((completeEntry b e code p).engine b).relayDropped = e.dropCount code (p.engine b).relayDropped := by
  unfold completeEntry
  extract_lets p1 p2 p3
  have hp2 : (p2.engine b).relayDropped = (p.engine b).relayDropped := by
    unfold p2
    split <;> simp [p1]
  have hp3 : (p3.engine b).relayDropped = e.dropCount code (p2.engine b).relayDropped := by
    unfold p3 TxEntry.dropCount
    cases e.origin with
    | slot i copy => simp [doneSlot]
    | relay c n => cases code.dropped <;> simp
  have hlast : (toTrunkEvent (freeBuffer e.buf p3)).engine b = p3.engine b := by simp
  rw [hlast, hp3, hp2]

/-- The engine after a completion: the entry has left its queue, and an exchange that carried it no longer does. -/
theorem completeEntry_engine_eq (b : Branch) (e : TxEntry) (code : TxCode) (p : Part) :
    (completeEntry b e code p).engine b = { p.engine b with
      queue := (p.engine b).queue.filter fun x => x.buf != e.buf
      exch := (p.engine b).exch.map fun x => if x.entry = some e.buf then { x with entry := none } else x
      relayDropped := e.dropCount code (p.engine b).relayDropped } := by
  obtain ⟨n, hn⟩ := completeEntry_engine b e code p
  have hcount : n = e.dropCount code (p.engine b).relayDropped := by
    rw [← completeEntry_relayDropped, hn]
  rw [hn, hcount]

/-- The report to the directory that an entry has left its station's queue (R41). -/
def uncounted (b : Branch) (e : TxEntry) (p : Part) : Part :=
  if e.target = 63 then p else updStation b e.target (fun st => { st with queued := st.queued - 1 }) p

theorem completeEntry_free (b : Branch) (e : TxEntry) (code : TxCode) (p : Part) :
    (completeEntry b e code p).pool.free = p.pool.free ++ [e.buf] := by
  unfold completeEntry
  extract_lets p1 p2 p3
  have hp2 : p2.pool = p.pool := by
    unfold p2
    split <;> simp [p1]
  have hp3 : p3.pool = p2.pool := by
    unfold p3
    split
    · simp
    · split <;> rfl
  simp [hp3, hp2]

theorem completeEntry_stations (b : Branch) (e : TxEntry) (code : TxCode) (p : Part) :
    (completeEntry b e code p).stations = (uncounted b e p).stations := by
  unfold completeEntry
  extract_lets p1 p2 p3
  have hp2 : p2.stations = (uncounted b e p).stations := by
    unfold p2 uncounted
    split
    · rfl
    · simp [p1]
  have hp3 : p3.stations = p2.stations := by
    unfold p3
    split
    · simp
    · split <;> rfl
  simp [hp3, hp2]

/-- The image of a record is asked for where the record changes (R31). -/
theorem updStation_writer (b : Branch) (n : StationNo) (f : Station → Station) (p : Part) : (updStation b n f p).writer =
    if f (p.station b n) = p.station b n then p.writer
    else { p.writer with
      queue := enqueueWrite { recordWrite (.station b n) 0 with high := true } p.writer.queue } := by
  unfold updStation
  split <;> rfl

/-- What a completion asks of the image writer is asked once the entry is out of the queue. -/
theorem uncounted_writer (f : Engine → Engine) (p : Part) :
    (uncounted b e (modEngine b f p)).writer = (uncounted b e p).writer := by
  unfold uncounted
  split
  · rfl
  · simp only [updStation_writer, modEngine_views, modEngine_keeps]

/-- The entry of a to-trunk slot has its slot written DONE with the code's result (R73, R193). -/
theorem completeEntry_writer_slot {i : Fin 32} {copy : List Byte} (p : Part) (h : e.origin = .slot i copy) :
    (completeEntry b e code p).writer.active = (uncounted b e p).writer.active
    ∧ (completeEntry b e code p).writer.queue = enqueueWrite (slotWrite (.toTrunk i)
        (toTrunkSlotBytes copy 3 (byteAt copy 2) (byteAt copy 3) code.slotResult) 0x0400)
        (uncounted b e p).writer.queue := by
  rw [← uncounted_writer (fun g => { g with
    queue := g.queue.filter fun x => x.buf != e.buf
    exch := g.exch.map fun x => if x.entry = some e.buf then { x with entry := none } else x }) p]
  simp only [completeEntry, h, toTrunkEvent_keeps, freeBuffer_keeps, doneSlot_writer]
  exact ⟨rfl, rfl⟩

theorem completeEntry_writer_relay {c : Branch} {n : StationNo} (p : Part) (h : e.origin = .relay c n) :
    (completeEntry b e code p).writer = (uncounted b e p).writer := by
  rw [← uncounted_writer (fun g => { g with
    queue := g.queue.filter fun x => x.buf != e.buf
    exch := g.exch.map fun x => if x.entry = some e.buf then { x with entry := none } else x }) p]
  simp only [completeEntry, h, toTrunkEvent_keeps, freeBuffer_keeps]
  split <;> rfl

/-- A broadcast's entry is counted with no station. -/
theorem uncounted_broadcast (p : Part) (h : e.target = 63) : uncounted b e p = p := if_pos h

/-! ## The end of a transmission (R5, R18) -/

theorem transmissionEnd_window {x : Exchange} (hphase : (p.engine b).phase = .transmit) (hx : (p.engine b).exch = some x)
    (hread : (p.engine b).txRead = none) (hkind : x.kind ≠ .broadcast) :
    transmissionEnd b p = setPhase b .window p := by
  simp only [transmissionEnd, hphase, hx, hread, hkind, Option.isSome_none, Bool.false_eq_true, if_false]
  rfl

theorem transmissionEnd_owed (hphase : (p.engine b).phase = .owed) : transmissionEnd b p = setPhase b .turnaround p := by
  unfold transmissionEnd
  extract_lets g
  split <;> simp_all [g]
  rfl

theorem transmissionEnd_reading {x : Exchange} (hphase : (p.engine b).phase = .transmit)
    (hx : (p.engine b).exch = some x) (hread : (p.engine b).txRead.isSome = true) : transmissionEnd b p = p := by
  simp only [transmissionEnd, hphase, hx, hread, if_true]

theorem transmissionEnd_broadcast {x : Exchange} {r : List TxEntry} (hphase : (p.engine b).phase = .transmit)
    (hx : (p.engine b).exch = some x) (hread : (p.engine b).txRead = none) (hkind : x.kind = .broadcast)
    (hentry : x.entry = some e.buf) (hcode : x.endCode = none) (hqueue : (p.engine b).queue = e :: r) :
    transmissionEnd b p = completeEntry b e .broadcastSent (setPhase b .turnaround p) := by
  have hfind : (e :: r).find? (fun y => x.entry = some y.buf) = some e := List.find?_cons_of_pos (by simp [hentry])
  simp only [transmissionEnd, hphase, hx, hread, hkind, hcode, hqueue, hfind, Option.isSome_none, Bool.false_eq_true,
    if_false, if_true]
  rfl

end

end Part

/-- Settles O33: the phase by the kind of the exchange, and the completion of a broadcast's entry. -/
theorem transmissionEndOpensTheWindow : Obligations.TransmissionEndOpensTheWindow := by
  intro s b hheld g phase
  refine ⟨fun x hphase hx hread hkind => onPart_awake_eq hheld (Part.transmissionEnd_window hphase hx hread hkind),
    fun hphase => onPart_awake_eq hheld (Part.transmissionEnd_owed hphase),
    fun x hphase hx hread => onPart_awake_eq hheld (Part.transmissionEnd_reading hphase hx hread),
    fun x e r hphase hx hread hkind hentry hcode hqueue htarget => ?_⟩
  let q : Part := Part.setPhase b .turnaround s.part
  have hengine := Part.completeEntry_engine_eq b e .broadcastSent q
  have hq : q.engine b = { g with phase := .turnaround } := Part.engine_modEngine_self ..
  rw [hq] at hengine
  refine ⟨_, onPart_awake_eq hheld (Part.transmissionEnd_broadcast hphase hx hread hkind hentry hcode hqueue),
    fun c n ho => ?_, fun i copy ho => ?_, congrArg Engine.phase hengine, (congrArg Engine.queue hengine).trans ?_,
    Part.completeEntry_free .., (congrArg Engine.relayDropped hengine).trans ?_,
    (Part.completeEntry_stations ..).trans ?_, ?_, rfl⟩
  · rw [State.withPart_part, Part.completeEntry_writer_relay q ho, Part.uncounted_broadcast q htarget]
    rfl
  · have hwriter := Part.completeEntry_writer_slot (b := b) (code := .broadcastSent) q ho
    rw [Part.uncounted_broadcast q htarget] at hwriter
    exact hwriter
  · simp [show g.queue = e :: r from hqueue]
  · cases ho : e.origin <;> simp [TxEntry.dropCount, ho, TxCode.dropped]
  · rw [Part.uncounted_broadcast q htarget]
    rfl
  · simp [Part.setPhase]

end Sys2Proof.Machine
end

section
/-! PROOF. The line supervisor: what handling one error does, the isolation test and the decay (O43). -/

namespace Sys2Proof.Machine

/-- A capture record after an error has been noted (R122, R123). -/
def Capture.noting (r : ErrorReport) (captured : Bool) (c : Capture) : Capture :=
  if captured then
    if c.valid then { c with further := if c.further < 255 then c.further + 1 else c.further }
    else { valid := true, kind := r.kind, station := r.station, stamp := r.stamp, chars := r.chars.take 8
           detail := r.detail, further := 0 }
  else c

/-- A supervisor after steps 1 to 4 of an error's handling (R119), before the warn test. -/
def Supervisor.scoring (x : BranchSetup) (r : ErrorReport) (u : Supervisor) : Supervisor :=
  { u with kinds := put u.kinds r.kind.number (satInc 65535 (u.kinds.get r.kind.number))
           capture := u.capture.noting r (inMask x.captureMask r.kind)
           score := min 1023 (u.score + x.weights.get r.kind.number)
           clean := false }

namespace Part

section

variable {p : Part} {b : Branch}

/-! ## The steps of an error's handling (R119 to R131) -/

theorem modSup_modSup (b : Branch) (f g : Supervisor → Supervisor) (p : Part) :
    modSup b f (modSup b g p) = modSup b (f ∘ g) p := by
  simp only [modSup, put_put, sup, get_put_self, Function.comp]

theorem captureError_sup (b : Branch) (r : ErrorReport) (p : Part) : (captureError b r p).sup b =
    { p.sup b with capture := (p.sup b).capture.noting r (inMask (p.branchSetup b).captureMask r.kind) } := by
  unfold captureError Capture.noting
  cases inMask (p.branchSetup b).captureMask r.kind
  · rfl
  cases hvalid : (p.sup b).capture.valid
  · simp [hvalid]
  by_cases hfurther : (p.sup b).capture.further < 255
  · simp [hvalid, hfurther]
  · simp only [hvalid, hfurther, if_true, if_false]
    rw [← hvalid]

theorem warnTest_raised (hwarn : (p.sup b).warn = false) (h : (p.branchSetup b).tw ≤ (p.sup b).score) :
    warnTest b p = notify .warn (modSup b (fun u => { u with warn := true }) p) := if_pos (by simp [hwarn, h])

theorem warnTest_cleared (hwarn : (p.sup b).warn = true) (h : (p.sup b).score ≤ (p.branchSetup b).tc) :
    warnTest b p = modSup b (fun u => { u with warn := false }) p := by
  simp [warnTest, hwarn, h]

theorem warnTest_standing (hup : ¬ ((p.sup b).warn = false ∧ (p.branchSetup b).tw ≤ (p.sup b).score))
    (hdown : ¬ ((p.sup b).warn = true ∧ (p.sup b).score ≤ (p.branchSetup b).tc)) : warnTest b p = p := by
  have h1 : (!(p.sup b).warn && decide ((p.branchSetup b).tw ≤ (p.sup b).score)) = false := by simpa using hup
  have h2 : ((p.sup b).warn && decide ((p.sup b).score ≤ (p.branchSetup b).tc)) = false := by simpa using hdown
  simp [warnTest, h1, h2]

theorem warnTest_sup (b : Branch) (p : Part) : ∃ w, (warnTest b p).sup b = { p.sup b with warn := w } := by
  by_cases hup : (p.sup b).warn = false ∧ (p.branchSetup b).tw ≤ (p.sup b).score
  · obtain ⟨hwarn, hscore⟩ := hup
    exact ⟨true, by simp [warnTest_raised hwarn hscore, notify]⟩
  by_cases hdown : (p.sup b).warn = true ∧ (p.sup b).score ≤ (p.branchSetup b).tc
  · obtain ⟨hwarn, hscore⟩ := hdown
    exact ⟨false, by simp [warnTest_cleared hwarn hscore]⟩
  · exact ⟨(p.sup b).warn, by rw [warnTest_standing hup hdown]⟩

/-- The supervisor after an error has been scored: only its warn flag depends on the warn test. -/
theorem scoreError_sup (b : Branch) (r : ErrorReport) (p : Part) :
    ∃ w, (scoreError b r p).sup b = { (p.sup b).scoring (p.branchSetup b) r with warn := w } := by
  unfold scoreError
  obtain ⟨w, hw⟩ := warnTest_sup b (modSup b (fun s => { s with clean := false })
    (addWeight b r.kind (captureError b r (countError b r.kind p))))
  refine ⟨w, hw.trans ?_⟩
  simp [addWeight, countError, captureError_sup, Supervisor.scoring]

theorem scoreError_sup_ne {c : Branch} (r : ErrorReport) (p : Part) (h : c ≠ b) : (scoreError b r p).sup c = p.sup c :=
  ((Confined.refl b p).scoreError r).sup c h

/-! ## The isolation test (R132) -/

theorem isolationTest_immediate {k : ErrorKind} (hrun : (p.switch b).state.running = true)
    (h : inMask (p.branchSetup b).immediateMask k = true) :
    isolationTest b k p = requestIsolation b .immediate .isolated p := if_pos (by simp [hrun, h])

theorem isolationTest_inService {k : ErrorKind} (hstate : (p.switch b).state = .inService)
    (h : inMask (p.branchSetup b).immediateMask k = false) : isolationTest b k p =
      if (p.branchSetup b).ti ≤ (p.sup b).score then requestIsolation b .score .isolated p else p := by
  simp [isolationTest, hstate, h]

theorem isolationTest_onTrial {k : ErrorKind} (hstate : (p.switch b).state = .onTrial)
    (h : inMask (p.branchSetup b).immediateMask k = false) : isolationTest b k p =
      if (p.branchSetup b).tw ≤ (p.sup b).score then requestIsolation b .trialFailed .isolated p else p := by
  simp [isolationTest, hstate, h]

theorem isolationTest_other {k : ErrorKind} (hserves : (p.switch b).state ≠ .inService)
    (htrial : (p.switch b).state ≠ .onTrial) : isolationTest b k p = p := by
  have hrun : (p.switch b).state.running = false := by
    cases hstate : (p.switch b).state <;> first | rfl | exact absurd hstate ‹_›
  simp [isolationTest, hserves, htrial, hrun]

/-! ## The decay (R129) -/

/-- A decay expiry, its warn test aside. -/
def decayed (x : BranchSetup) (warn : Bool) (u : Supervisor) : Supervisor :=
  { u with score := u.score - x.d, warn := warn, decay := x.decayPeriod }

theorem decayScore_raised (hwarn : (p.sup b).warn = false)
    (h : (p.branchSetup b).tw ≤ (p.sup b).score - (p.branchSetup b).d) :
    decayScore b p = notify .warn (modSup b (decayed (p.branchSetup b) true) p) := by
  simp only [decayScore]
  rw [warnTest_raised (by simpa using hwarn) (by simpa using h), modSup_modSup]
  exact congrArg (notify .warn) (modSup_modSup b (fun u => { u with decay := (p.branchSetup b).decayPeriod }) _ p)

theorem decayScore_cleared (hwarn : (p.sup b).warn = true)
    (h : (p.sup b).score - (p.branchSetup b).d ≤ (p.branchSetup b).tc) :
    decayScore b p = modSup b (decayed (p.branchSetup b) false) p := by
  simp only [decayScore]
  rw [warnTest_cleared (by simpa using hwarn) (by simpa using h), modSup_modSup, modSup_modSup]
  rfl

theorem decayScore_standing
    (hup : ¬ ((p.sup b).warn = false ∧ (p.branchSetup b).tw ≤ (p.sup b).score - (p.branchSetup b).d))
    (hdown : ¬ ((p.sup b).warn = true ∧ (p.sup b).score - (p.branchSetup b).d ≤ (p.branchSetup b).tc)) :
    decayScore b p = modSup b (decayed (p.branchSetup b) (p.sup b).warn) p := by
  simp only [decayScore]
  rw [warnTest_standing (by simpa using hup) (by simpa using hdown), modSup_modSup]
  rfl

end

end Part

/-- Settles O43: the steps of an error's handling, the test by the state of the switch, the decay by its warn test. -/
theorem scoresRiseAndDecay : Obligations.ScoresRiseAndDecay := by
  refine ⟨?_, ?_, ?_⟩
  · intro p b r u v captured
    obtain ⟨w, hw⟩ := Part.scoreError_sup b r p
    have hcapture : v.capture = u.capture.noting r captured := congrArg Supervisor.capture hw
    refine ⟨fun k => ?_, congrArg Supervisor.score hw, congrArg Supervisor.clean hw, (congrArg Supervisor.decay hw).trans rfl,
      (congrArg Supervisor.gate hw).trans rfl, fun hmask hvalid => ?_, fun hmask hvalid => ?_, fun hmask => ?_,
      fun c hc => Part.scoreError_sup_ne r p hc⟩
    · have hkinds : v.kinds = put u.kinds r.kind.number (satInc 65535 (u.kinds.get r.kind.number)) :=
        congrArg Supervisor.kinds hw
      rw [hkinds, get_put]
      split <;> simp_all
    · simp [hcapture, Capture.noting, hmask, hvalid]
    · simp [hcapture, Capture.noting, hmask, hvalid]
    · simp [hcapture, Capture.noting, hmask]
  · intro p b k st x score immediate
    refine ⟨fun hstate himm => Part.isolationTest_immediate ?_ himm,
      fun hstate himm => Part.isolationTest_inService hstate himm,
      fun hstate himm => Part.isolationTest_onTrial hstate himm,
      fun hserves htrial => Part.isolationTest_other hserves htrial⟩
    rcases hstate with h | h <;> rw [show (p.switch b).state = _ from h] <;> rfl
  · intro s b hheld u x score rises
    by_cases hup : rises
    · obtain ⟨hwarn, hscore⟩ := id hup
      have hdecay : Part.decayScore b s.part = _ := Part.decayScore_raised hwarn hscore
      refine ⟨_, onPart_awake_eq hheld hdecay, ?_, fun _ => ⟨?_, rfl⟩, fun h => ?_, fun h => absurd hup h⟩
      · simp [Part.decayed, Part.notify]
        rfl
      · simp [Part.decayed, Part.notify]
      · exact absurd (hwarn.symm.trans h) (by simp)
    by_cases hdown : u.warn = true ∧ score ≤ x.tc
    · obtain ⟨hwarn, hscore⟩ := id hdown
      have hdecay : Part.decayScore b s.part = _ := Part.decayScore_cleared hwarn hscore
      refine ⟨_, onPart_awake_eq hheld hdecay, ?_, fun h => absurd h hup, fun _ _ => ⟨?_, rfl⟩,
        fun _ h => absurd hdown h⟩
      · simp [Part.decayed]
        rfl
      · simp [Part.decayed]
    · have hdecay : Part.decayScore b s.part = _ := Part.decayScore_standing hup hdown
      refine ⟨_, onPart_awake_eq hheld hdecay, ?_, fun h => absurd h hup, fun hwarn hscore => absurd ⟨hwarn, hscore⟩ hdown,
        fun _ _ => ⟨?_, rfl⟩⟩
      · simp [Part.decayed]
        rfl
      · simp [Part.decayed, u]

end Sys2Proof.Machine
end

section
/-! PROOF. What an error asks of the branch beyond its supervisor, and the characters that no reply is due for, the
quiet waits and the levels of the line (O34, O40). -/

namespace Sys2Proof.Machine

/-- An engine but for its transmit queue and what the completion of an entry changes. -/
def Engine.unqueued (g : Engine) : Engine := { g with queue := [], exch := none, relayDropped := 0 }

namespace Part

section

variable {p : Part} {b : Branch}

/-! ## The engine through a flush and a stop -/

theorem completeWhere_unqueued (b : Branch) (code : TxCode) (w : TxEntry → Bool) (p : Part) :
    ((completeWhere b code w p).engine b).unqueued = (p.engine b).unqueued :=
  each_keeps_view (fun q => (q.engine b).unqueued) _ _ (fun e q => by
    split
    · simp [Engine.unqueued]
    · rw [completeEntry_engine_eq]
      rfl) p

theorem stopReported_unqueued (b : Branch) (p : Part) :
    ((stopReported b p).engine b).unqueued = (p.engine b).unqueued := by
  unfold stopReported
  split
  · have hflush : ((switchFlush b p).engine b).unqueued = (p.engine b).unqueued := by
      simpa only [switchFlush, flushQueue, abortAssemblingOfBranch_views] using completeWhere_unqueued b .isolated (fun _ => true) p
    simpa using hflush
  · rfl

theorem stopReported_strayRun (b : Branch) (p : Part) :
    ((stopReported b p).engine b).strayRun = (p.engine b).strayRun :=
  (congrArg Engine.strayRun (stopReported_unqueued b p) :)

/-- A listen slot ends at once and is judged (R14, R126). -/
theorem stopRequest_listen (h : (p.engine b).state.running = true) (hphase : (p.engine b).phase = .listen) :
    stopRequest b p = stopReported b (enterStopped b (scoreAll b ((closeGate b p).gateReports b) (closeGate b p))) := by
  cases hstate : (p.engine b).state <;> simp [hstate, EngineState.running] at h <;>
    simp only [stopRequest, hstate, hphase, Phase.inExchange, Bool.false_eq_true, if_false, if_true]

/-- A stop begins no stray run. -/
theorem stopRequest_strayRun (h : (p.engine b).strayRun = none) : ((stopRequest b p).engine b).strayRun = none := by
  by_cases hstopped : (p.engine b).state = .stopped
  · rw [stopRequest_stopped hstopped, stopReported_strayRun, h]
  by_cases hstopping : (p.engine b).state = .stopping
  · rw [stopRequest_stopping hstopping, h]
  have hrun := EngineState.running_of_ne hstopped hstopping
  by_cases hexchange : (p.engine b).phase.inExchange = true
  · rw [stopRequest_exchange hrun hexchange, engine_modEngine_self]
    exact h
  by_cases hlisten : (p.engine b).phase = .listen
  · rw [stopRequest_listen hrun hlisten, stopReported_strayRun, enterStopped_engine]
    rfl
  · rw [stopRequest_between hrun (by simpa using hexchange) hlisten, stopReported_strayRun, enterStopped_engine]
    rfl

/-! ## The supervisors where a stop ends no listen slot and no stray run -/

theorem stopReported_sups (b : Branch) (p : Part) : (stopReported b p).sups = p.sups := by
  unfold stopReported
  split
  · simp
  · rfl

theorem endedStray_none (h : (p.engine b).strayRun = none) : p.endedStray b = [] := by simp only [endedStray, h]

theorem enterStopped_sups (h : (p.engine b).strayRun = none) : (enterStopped b p).sups = p.sups := by
  simp [enterStopped, endedStray_none h, scoreAll, each]

/-- A stop outside a listen slot, with no stray run, scores nothing. -/
theorem stopRequest_sups (hlisten : (p.engine b).phase ≠ .listen) (hstray : (p.engine b).strayRun = none) :
    (stopRequest b p).sups = p.sups := by
  by_cases hstopped : (p.engine b).state = .stopped
  · rw [stopRequest_stopped hstopped, stopReported_sups]
  by_cases hstopping : (p.engine b).state = .stopping
  · rw [stopRequest_stopping hstopping]
  have hrun := EngineState.running_of_ne hstopped hstopping
  cases hphase : (p.engine b).phase.inExchange
  · rw [stopRequest_between hrun hphase hlisten, stopReported_sups, enterStopped_sups hstray]
  · rw [stopRequest_exchange hrun hphase]
    rfl

/-- What an isolation request makes of the part before the engine is asked to stop. -/
theorem requestIsolation_sups (r : IsoReason) (d : Destination) (hlisten : (p.engine b).phase ≠ .listen)
    (hstray : (p.engine b).strayRun = none) : (requestIsolation b r d p).sups = p.sups := by
  cases hrun : (p.switch b).state.running
  · rw [requestIsolation_other hrun]
  · rw [requestIsolation_running hrun, stopRequest_sups (by simpa using hlisten) (by simpa using hstray)]
    simp

/-- The isolation test asks for nothing or for one isolation. -/
theorem isolationTest_cases (b : Branch) (k : ErrorKind) (p : Part) :
    isolationTest b k p = p ∨ ∃ r d, isolationTest b k p = requestIsolation b r d p := by
  unfold isolationTest
  extract_lets st bs score
  split
  · exact .inr ⟨_, _, rfl⟩
  split
  · exact .inr ⟨_, _, rfl⟩
  split
  · exact .inr ⟨_, _, rfl⟩
  · exact .inl rfl

theorem isolationTest_sups (k : ErrorKind) (hlisten : (p.engine b).phase ≠ .listen)
    (hstray : (p.engine b).strayRun = none) : (isolationTest b k p).sups = p.sups := by
  rcases isolationTest_cases b k p with h | ⟨r, d, h⟩
  · rw [h]
  · rw [h, requestIsolation_sups r d hlisten hstray]

theorem handleError_sups (r : ErrorReport) (hlisten : (p.engine b).phase ≠ .listen)
    (hstray : (p.engine b).strayRun = none) : (handleError b r p).sups = (scoreError b r p).sups :=
  isolationTest_sups _ (by simpa using hlisten) (by simpa using hstray)

/-- An entry to STOPPED and a stop leave no stray run where there was none. -/
theorem handleError_strayRun (r : ErrorReport) (hstray : (p.engine b).strayRun = none) :
    ((handleError b r p).engine b).strayRun = none := by
  rcases isolationTest_cases b r.kind (scoreError b r p) with h | ⟨reason, d, h⟩
  · rw [handleError, h]
    simpa using hstray
  rw [handleError, h]
  cases hrun : ((scoreError b r p).switch b).state.running
  · rw [requestIsolation_other hrun]
    simpa using hstray
  · rw [requestIsolation_running hrun]
    exact stopRequest_strayRun (by simpa using hstray)

/-- What an error's handling makes of its supervisor where it ends no listen slot and no stray run. -/
theorem handleError_sup (r : ErrorReport) (hlisten : (p.engine b).phase ≠ .listen)
    (hstray : (p.engine b).strayRun = none) :
    ∃ w, (handleError b r p).sup b = { (p.sup b).scoring (p.branchSetup b) r with warn := w } := by
  have hsup : (handleError b r p).sup b = (scoreError b r p).sup b := by
    rw [sup_def, handleError_sups r hlisten hstray, sup_def]
  rw [hsup]
  exact scoreError_sup b r p

/-! ## Characters outside a reply (R1, R21, R125) -/

/-- A start bit that the engine did not see begins no character for it, nor does one while it is stopped or sends. -/
theorem receiveChar_ignored (c : LineChar) (h : (p.engine b).state = .stopped ∨ (p.engine b).phase = .transmit
    ∨ (p.engine b).phase = .owed ∨ (p.engine b).arriving = none) : receiveChar b c p = p := by
  unfold receiveChar
  extract_lets g q
  split
  · rfl
  · next hon =>
    obtain hphase | hphase : g.phase = .transmit ∨ g.phase = .owed := by
      rcases h with h | h | h | h
      · exact absurd (.inl h) hon
      · exact .inl h
      · exact .inr h
      · exact absurd (.inr h) hon
    all_goals rw [hphase]

/-- The character has arrived. -/
def arrived (b : Branch) : Part → Part := modEngine b fun g => { g with arriving := none }

theorem receiveChar_quiet (c : LineChar) (hstate : (p.engine b).state ≠ .stopped)
    (harriving : (p.engine b).arriving.isSome = true) (hphase : (p.engine b).phase = .quiet) :
    receiveChar b c p = arrived b p := by
  have hon : ¬ ((p.engine b).state = .stopped ∨ (p.engine b).arriving = none) := by
    rintro (h | h)
    · exact hstate h
    · simp [h] at harriving
  simp only [receiveChar, hon, hphase, if_false]
  rfl

theorem receiveChar_listen (c : LineChar) {a : ArriveIn} (hstate : (p.engine b).state ≠ .stopped)
    (harriving : (p.engine b).arriving = some a) (hphase : (p.engine b).phase = .listen) :
    receiveChar b c p = if a = .slot then gateChar b c (arrived b p) else arrived b p := by
  simp only [receiveChar, hstate, harriving, hphase, reduceCtorEq, or_self, if_false, Option.some.injEq]
  rfl

/-- Outside a slot, a reply and a quiet wait a character is stray unless it began in or before a slot. -/
theorem receiveChar_between (c : LineChar) {a : ArriveIn} (hstate : (p.engine b).state ≠ .stopped)
    (harriving : (p.engine b).arriving = some a) (hphase : (p.engine b).phase = .verdict
      ∨ (p.engine b).phase = .turnaround ∨ (p.engine b).phase = .none ∨ (p.engine b).phase = .padding) :
    receiveChar b c p = if a = .elsewhere then strayChar b c (arrived b p) else arrived b p := by
  rcases hphase with hphase | hphase | hphase | hphase <;>
    simp only [receiveChar, hstate, harriving, hphase, reduceCtorEq, or_self, if_false, Option.some.injEq] <;> rfl

/-- A character that began in or before a slot and ends after it is nobody's. -/
theorem receiveChar_afterSlot (c : LineChar) {a : ArriveIn} (hstate : (p.engine b).state ≠ .stopped)
    (harriving : (p.engine b).arriving = some a) (ha : a ≠ .elsewhere)
    (hphase : (p.engine b).phase = .verdict ∨ (p.engine b).phase = .turnaround ∨ (p.engine b).phase = .none
      ∨ (p.engine b).phase = .padding ∨ (p.engine b).phase = .window ∨ (p.engine b).phase = .reply) :
    receiveChar b c p = arrived b p := by
  rcases hphase with hphase | hphase | hphase | hphase | hphase | hphase <;>
    simp only [receiveChar, hstate, harriving, hphase, ha, reduceCtorEq, or_self, if_false, Option.some.injEq] <;> rfl

theorem strayEnd_ends {cs : List (Byte × Bool)} (hrun : (p.engine b).strayRun = some cs)
    (harriving : (p.engine b).arriving = none) : strayEnd b p =
      handleError b (strayReport cs (p.engine b).round) (modEngine b (fun g => { g with strayRun := none }) p) := by
  simp [strayEnd, harriving, endedStray, hrun, handleAll, each]

theorem strayEnd_stands (h : (p.engine b).strayRun = none ∨ (p.engine b).arriving.isSome = true) :
    strayEnd b p = p := by
  unfold strayEnd
  split
  · next harriving =>
    have hrun : (p.engine b).strayRun = none := by simpa [harriving] using h
    have hsame : modEngine b (fun g => { g with strayRun := none }) p = p := by
      have hg : { p.engine b with strayRun := none } = p.engine b := by rw [← hrun]
      simp only [modEngine, hg]
      exact congrArg (fun x => { p with engines := x }) (put_get_self p.engines b)
    rw [endedStray_none hrun, hsame]
    rfl
  · rfl

end

end Part

/-- Settles O34: where a character goes by the phase of the engine, and the report of a run that ends. -/
theorem charactersOutsideAReply : Obligations.CharactersOutsideAReply := by
  refine ⟨fun s b c hheld => ?_, fun s b hheld => ?_⟩
  · have hexec : ∀ {q}, Part.receiveChar b c s.part = q → exec (.receiveCharacter b c) s = .next (s.withPart q) :=
      onPart_awake_eq hheld
    intro g u
    refine ⟨fun h => hexec (Part.receiveChar_ignored c h), fun hstate => ⟨fun hphase harriving =>
      hexec (Part.receiveChar_quiet c hstate harriving hphase), fun hphase harriving => ?_, fun h => ?_,
      fun hphase harriving => ?_⟩⟩
    · rw [hexec (Part.receiveChar_listen c hstate harriving hphase)]
      simp [g, u, Part.gateChar, Part.arrived, Part.modSup, Part.modEngine]
      rfl
    · obtain ⟨hphase, harriving⟩ | ⟨hphase, harriving⟩ := h
      · obtain harriving | harriving := harriving <;>
          exact hexec (Part.receiveChar_listen c hstate harriving hphase)
      · obtain harriving | harriving := harriving <;>
          exact hexec (Part.receiveChar_afterSlot c hstate harriving (by decide) hphase)
    · rw [hexec (Part.receiveChar_between c hstate harriving hphase)]
      simp [g, Part.strayChar, Part.arrived, Part.modEngine, put_put, Part.engine]
  · intro g
    have hexec : ∀ {q}, Part.strayEnd b s.part = q → exec (.strayRunEnd b) s = .next (s.withPart q) :=
      onPart_awake_eq hheld
    refine ⟨fun cs hrun harriving hphase => ?_, fun h => hexec (Part.strayEnd_stands h)⟩
    let q : Part := Part.modEngine b (fun g => { g with strayRun := none }) s.part
    have hq : (q.engine b).strayRun = none := by simp [q]
    obtain ⟨w, hw⟩ := Part.handleError_sup (p := q) (strayReport cs g.round) (by simpa [q] using hphase) hq
    refine ⟨_, hexec (Part.strayEnd_ends hrun harriving), Part.handleError_strayRun _ hq, rfl, ?_, ?_, fun hvalid hmask => ?_⟩
    · exact (congrArg (fun u : Supervisor => u.kinds.get 4) hw).trans (get_put_self ..)
    · exact congrArg Supervisor.score hw
    · refine (congrArg Supervisor.capture hw).trans ?_
      have hcap : (q.sup b).capture.valid = false := hvalid
      have hm : inMask (q.branchSetup b).captureMask .stray = true := hmask
      simp [Supervisor.scoring, Capture.noting, hcap, hm, strayReport, List.take_take]

/-! ## Quiet waits, levels and bits (R1, R7, R125) -/

namespace Part

section

variable {p : Part} {b : Branch}

theorem quietEnd_quiet (h : (p.engine b).phase = .quiet) : quietEnd b p = setPhase b .turnaround p := if_pos h

theorem quietEnd_other (h : (p.engine b).phase ≠ .quiet) : quietEnd b p = p := if_neg h

/-- An open gate counts a change of level (R125). -/
def countEdge (b : Branch) (p : Part) : Part :=
  if (p.sup b).gate.isOpen then
    modSup b (fun u => { u with gate := { u.gate with edges := satInc 255 u.gate.edges } }) p
  else p

/-- The engine watches the line for a start bit (R1). -/
def watching (p : Part) (b : Branch) : Bool := decide ((p.engine b).state ≠ .stopped) && !p.txen b && !p.held

/-- An engine after a change of level: a fall that it watches begins a start bit. -/
def levelled (level watching : Bool) (g : Engine) : Engine :=
  { g with rxLevel := level
           arriving := if !level && watching && g.arriving.isNone then
               some (if g.phase = .listen then .slot else .elsewhere)
             else g.arriving }

theorem levelChange_same {level : Bool} (h : (p.engine b).rxLevel = level) : levelChange b level p = p := if_pos h

theorem levelChange_changes {level : Bool} (h : (p.engine b).rxLevel ≠ level) :
    levelChange b level p = modEngine b (levelled level (p.watching b)) (countEdge b p) := if_neg h

theorem countEdge_eq (b : Branch) (p : Part) : countEdge b p = { p with sups := (countEdge b p).sups } := by
  unfold countEdge
  split <;> rfl

theorem countEdge_sups (b : Branch) (p : Part) : (countEdge b p).sups =
    if (p.sup b).gate.isOpen then put p.sups b { p.sup b with gate := { (p.sup b).gate with
      edges := if (p.sup b).gate.edges < 255 then (p.sup b).gate.edges + 1 else 255 } }
    else p.sups := by
  unfold countEdge
  split <;> rfl

theorem watching_unwatched (h : (p.engine b).state = .stopped ∨ (p.engine b).phase = .transmit ∨ (p.engine b).phase = .owed) :
    p.watching b = false := by
  rcases h with h | h | h <;> simp [watching, txen, h]

theorem watching_true (hheld : p.held = false) (hstate : (p.engine b).state ≠ .stopped)
    (htransmit : (p.engine b).phase ≠ .transmit) (howed : (p.engine b).phase ≠ .owed) : p.watching b = true := by
  have htxen : p.txen b = false := by
    unfold txen
    split
    · exact absurd ‹_› htransmit
    · exact absurd ‹_› howed
    · rfl
  simp [watching, hstate, htxen, hheld]

end

end Part

theorem charBits_eq (c : LineChar) : charBits c =
    [false, c.data.getLsbD 0, c.data.getLsbD 1, c.data.getLsbD 2, c.data.getLsbD 3, c.data.getLsbD 4,
      c.data.getLsbD 5, c.data.getLsbD 6, c.data.getLsbD 7, c.mark, c.stop] := rfl

/-- Eight bits of a byte, least significant first, are that byte. -/
theorem ofBoolListLE_byte (v : Byte) : BitVec.ofBoolListLE [v.getLsbD 0, v.getLsbD 1, v.getLsbD 2, v.getLsbD 3,
    v.getLsbD 4, v.getLsbD 5, v.getLsbD 6, v.getLsbD 7] = v := by
  refine BitVec.eq_of_getLsbD_eq fun i hi => ?_
  rw [BitVec.getLsbD_ofBoolListLE]
  have hi8 : i < 8 := hi
  match i, hi8 with
  | 0, _ | 1, _ | 2, _ | 3, _ | 4, _ | 5, _ | 6, _ | 7, _ => rfl

/-- Settles O40: the events by their conditions, and the bits of a character read back. -/
theorem levelChangesAndQuietWaits : Obligations.LevelChangesAndQuietWaits := by
  refine ⟨fun s b hheld => ?_, fun s b level => ?_, fun c => ⟨?_, charBits_eq c⟩, fun v mark l => ⟨rfl, rfl⟩⟩
  · exact ⟨fun h => onPart_awake_eq hheld (Part.quietEnd_quiet h), fun h => onPart_awake_eq hheld (Part.quietEnd_other h),
      onPart_awake_eq hheld rfl⟩
  · intro g u
    have hexec : exec (.receiveLineLevelChange b level) s = .next (s.withPart (Part.levelChange b level s.part)) := rfl
    refine ⟨fun h => ?_, fun h => ?_⟩
    · rw [hexec, Part.levelChange_same h]
      rfl
    · have hchange := Part.levelChange_changes h
      have hedge : (Part.countEdge b s.part).engine b = g := by
        rw [Part.countEdge_eq]
        rfl
      have hengine : (Part.levelChange b level s.part).engine b = Part.levelled level (s.part.watching b) g := by
        rw [hchange, Part.engine_modEngine_self, hedge]
      refine ⟨_, hexec, ?_, ?_, fun hlevel hheld hstate htransmit howed harriving => ?_, fun hoff => ?_⟩
      · rw [State.withPart_part, hengine, hchange]
        exact congrArg (fun q => s.withPart (Part.modEngine b (Part.levelled level (s.part.watching b)) q))
          (Part.countEdge_eq b s.part)
      · rw [State.withPart_part, hchange]
        exact Part.countEdge_sups b s.part
      · rw [State.withPart_part, hengine, Part.watching_true hheld hstate htransmit howed]
        simp [Part.levelled, hlevel, harriving]
      · rw [State.withPart_part, hengine]
        rcases hoff with hlevel | hoff
        · simp [Part.levelled, hlevel]
        · rw [Part.watching_unwatched hoff]
          simp [Part.levelled]
  · rw [charBits_eq]
    simp only [charOfBits, ofBoolListLE_byte]

end Sys2Proof.Machine
end

section
/-! PROOF. The characters of a reply that goes on well (O35). -/

namespace Sys2Proof.Machine

/-- A reply with one more character of its record kept (R6, R122). -/
def Reply.noting (c : LineChar) (r : Reply) : Reply := { r with chars := (r.chars ++ [(c.data, c.mark)]).take 8 }

/-- An exchange whose reply has one more character. -/
def Exchange.noting (c : LineChar) (x : Exchange) : Exchange := { x with reply := x.reply.noting c }

namespace Part

section

variable {p : Part} {b : Branch} {x : Exchange} {c : LineChar}

/-! ## A character judged against the exchange (R3, R6) -/

/-- The part as a character of a reply is judged. -/
def judging (b : Branch) (x : Exchange) (c : LineChar) (p : Part) : Part :=
  modEngine b (fun g => { g with phase := .reply, exch := some (x.noting c) }) (arrived b p)

theorem judging_eq (b : Branch) (x : Exchange) (c : LineChar) (p : Part) : judging b x c p =
    modEngine b (fun g => { g with arriving := none, phase := .reply, exch := some (x.noting c) }) p := by
  simp only [judging, arrived, modEngine, put_put, engine, get_put_self]

theorem receiveChar_reply (hstate : (p.engine b).state ≠ .stopped) (hx : (p.engine b).exch = some x)
    (harriving : (p.engine b).arriving = some .elsewhere)
    (hphase : (p.engine b).phase = .window ∨ (p.engine b).phase = .reply) :
    receiveChar b c p = judgeChar b x c (arrived b p) := by
  rcases hphase with hphase | hphase <;>
    simp only [receiveChar, hstate, hx, harriving, hphase, reduceCtorEq, or_self, if_false, if_true] <;> rfl

theorem judgeChar_eq (b : Branch) (x : Exchange) (c : LineChar) (p : Part) : judgeChar b x c (arrived b p) =
    if !c.stop then garbled b (x.noting c) .framing (judging b x c p)
    else if x.reply.stage = .first then firstChar b (x.noting c) c (judging b x c p)
    else if c.mark then garbled b (x.noting c) .framing (judging b x c p)
    else nextChar b (x.noting c) c.data (judging b x c p) := rfl

theorem judgeChar_badStop (h : c.stop = false) :
    judgeChar b x c (arrived b p) = garbled b (x.noting c) .framing (judging b x c p) := by
  rw [judgeChar_eq, if_pos (by simp [h])]

theorem judgeChar_first (hstop : c.stop = true) (h : x.reply.stage = .first) :
    judgeChar b x c (arrived b p) = firstChar b (x.noting c) c (judging b x c p) := by
  rw [judgeChar_eq, if_neg (by simp [hstop]), if_pos h]

theorem judgeChar_control (hstop : c.stop = true) (h : x.reply.stage ≠ .first) (hmark : c.mark = true) :
    judgeChar b x c (arrived b p) = garbled b (x.noting c) .framing (judging b x c p) := by
  rw [judgeChar_eq, if_neg (by simp [hstop]), if_neg h, if_pos hmark]

theorem judgeChar_next (hstop : c.stop = true) (h : x.reply.stage ≠ .first) (hmark : c.mark = false) :
    judgeChar b x c (arrived b p) = nextChar b (x.noting c) c.data (judging b x c p) := by
  rw [judgeChar_eq, if_neg (by simp [hstop]), if_neg h, if_neg (by simp [hmark])]

/-! ## The first character (R6 conditions 3 to 5) -/

theorem ctlKindOf_status {v : Byte} (h : v.toNat / 64 = 3) : ctlKindOf v = .status := by
  simp only [ctlKindOf, h]

theorem ctlKindOf_answer {v : Byte} (h : v.toNat / 64 = 2) : ctlKindOf v = .answer := by
  simp only [ctlKindOf, h]

theorem firstChar_status (hmark : c.mark = true) (hstation : c.data.toNat % 64 = x.station.val)
    (h : c.data.toNat / 64 = 3) : firstChar b x c p = modReply b (fun r => { r with stage := .code }) p := by
  simp only [firstChar, hmark, hstation, ctlKindOf_status h]
  simp

theorem firstChar_answer (hmark : c.mark = true) (hstation : c.data.toNat % 64 = x.station.val)
    (h : c.data.toNat / 64 = 2) (hkind : x.kind ≠ .send) :
    firstChar b x c p = modReply b (fun r => { r with stage := .unit }) p := by
  simp only [firstChar, hmark, hstation, ctlKindOf_answer h]
  simp [hkind]

/-! ## The bytes of a frame (R3, R4, R16) -/

theorem storeByte_reserved {buf : BufNo} (off : Nat) (v : Byte) (h : (p.engine b).reservation = some buf) :
    storeByte b off v p = modPath b (fun l => l ++ [.write buf off v]) p := by
  simp only [storeByte, h]

theorem nextChar_unit (v : Byte) (h : x.reply.stage = .unit) : nextChar b x v p =
    storeByte b 0 v (modReply b (fun r => { r with stage := .ctl, unit := v, crc := crcByte r.crc v }) p) := by
  simp only [nextChar, h]

theorem nextChar_ctl (v : Byte) (h : x.reply.stage = .ctl) : nextChar b x v p =
    storeByte b 1 v (modReply b (fun r => { r with stage := .len, ctl := v, crc := crcByte r.crc v }) p) := by
  simp only [nextChar, h]

theorem nextChar_len {v : Byte} (h : x.reply.stage = .len) (hlen : v.toNat ≤ 240) : nextChar b x v p =
    storeByte b 2 v (modReply b (fun r =>
      { r with stage := payloadStage v.toNat 0, len := v.toNat, got := 0, crc := crcByte r.crc v }) p) := by
  simp only [nextChar, h, if_neg (Nat.not_lt.mpr hlen)]

theorem nextChar_tooLong {v : Byte} (h : x.reply.stage = .len) (hlen : 240 < v.toNat) :
    nextChar b x v p = garbled b x .framing p := by
  simp only [nextChar, h, if_pos hlen]

theorem nextChar_payload (v : Byte) (h : x.reply.stage = .payload) : nextChar b x v p =
    storeByte b (3 + x.reply.got) v (modReply b (fun r =>
      { r with stage := payloadStage r.len (r.got + 1), got := r.got + 1
               crc := crcByte r.crc v }) p) := by
  simp only [nextChar, h]

theorem nextChar_checkHi (v : Byte) (h : x.reply.stage = .checkHi) :
    nextChar b x v p = modReply b (fun r => { r with stage := .checkLo, checkHi := v }) p := by
  simp only [nextChar, h]

theorem nextChar_code (v : Byte) (h : x.reply.stage = .code) : nextChar b x v p = statusCode b x v p := by
  simp only [nextChar, h]

theorem nextChar_badCheck {v : Byte} (h : x.reply.stage = .checkLo) (hcheck : x.reply.crc ≠ x.reply.checkHi ++ v) :
    nextChar b x v p = garbled b x .check p := by
  simp only [nextChar, h, if_neg hcheck]

theorem nextChar_goodCheck {v : Byte} (h : x.reply.stage = .checkLo) (hcheck : x.reply.crc = x.reply.checkHi ++ v) :
    nextChar b x v p = goodFrame b x p := by
  simp only [nextChar, h, if_pos hcheck]

/-- After `len` the check is due at once where the payload is empty. -/
theorem payloadStage_zero (v : Byte) : payloadStage v.toNat 0 = if v = 0 then .checkHi else .payload := by
  by_cases h : v = 0
  · simp [payloadStage, h]
  · have hpos : 0 < v.toNat := Nat.pos_of_ne_zero fun hv => h (BitVec.eq_of_toNat_eq hv)
    rw [payloadStage, if_pos hpos, if_neg h]

/-- A reply changed as its character asks. -/
def taking (b : Branch) (x : Exchange) (c : LineChar) (f : Reply → Reply) (p : Part) : Part :=
  modReply b f (judging b x c p)

/-- What a character of a reply that goes on well changes is the engine of its branch. -/
theorem taking_eq (b : Branch) (x : Exchange) (c : LineChar) (f : Reply → Reply) (p : Part) : taking b x c f p =
    modEngine b (fun g => { g with arriving := none, phase := .reply
                                   exch := some { x with reply := f (x.reply.noting c) } }) p := by
  simp only [taking, modReply, judging, arrived, modEngine, put_put, engine, get_put_self, Option.map_some]
  rfl

theorem storeByte_taking {buf : BufNo} (off : Nat) (v : Byte) (f : Reply → Reply)
    (h : (p.engine b).reservation = some buf) : storeByte b off v (taking b x c f p) =
      modPath b (fun l => l ++ [.write buf off v]) (taking b x c f p) :=
  storeByte_reserved off v (by rw [taking_eq, engine_modEngine_self]; exact h)

end

end Part

/-- Settles O35: the next stage of the reply by its stage, and the byte written with it. -/
theorem repliesAreTakenCharacterByCharacter : Obligations.RepliesAreTakenCharacterByCharacter := by
  intro s b c x hheld g r chars taken hstate hx harriving hstop
  have hexec : ∀ {q}, g.phase = .window ∨ g.phase = .reply → Part.judgeChar b x c (Part.arrived b s.part) = q →
      exec (.receiveCharacter b c) s = .next (s.withPart q) :=
    fun hphase h => onPart_awake_eq hheld ((Part.receiveChar_reply hstate hx harriving hphase).trans h)
  have htaken : ∀ f : Reply → Reply, taken (s.withPart (Part.taking b x c f s.part)) (f (r.noting c)) := fun f => by
    rw [Part.taking_eq]
    exact ⟨by simp, by simp [r], rfl, rfl, rfl⟩
  refine ⟨fun hphase hstage hmark hstation => ?_, fun buf hphase hmark hreserved => ?_⟩
  · have hjudge : ∀ {q}, Part.firstChar b (x.noting c) c (Part.judging b x c s.part) = q →
        exec (.receiveCharacter b c) s = .next (s.withPart q) :=
      fun h => hexec (.inl hphase) ((Part.judgeChar_first hstop hstage).trans h)
    exact ⟨fun hkind => ⟨_, hjudge (Part.firstChar_status hmark hstation hkind), htaken _⟩,
      fun hkind hsend => ⟨_, hjudge (Part.firstChar_answer hmark hstation hkind hsend), htaken _⟩⟩
  · have hnext : ∀ {q}, r.stage ≠ .first → Part.nextChar b (x.noting c) c.data (Part.judging b x c s.part) = q →
        exec (.receiveCharacter b c) s = .next (s.withPart q) :=
      fun hstage h => hexec (.inr hphase) ((Part.judgeChar_next hstop hstage hmark).trans h)
    have hstored : ∀ off f, Part.nextChar b (x.noting c) c.data (Part.judging b x c s.part)
          = Part.storeByte b off c.data (Part.taking b x c f s.part) → r.stage ≠ .first →
        ∃ t, exec (.receiveCharacter b c) s = .next t ∧ taken t (f (r.noting c))
          ∧ t.part.path b = s.part.path b ++ [.write buf off c.data] := by
      intro off f h hstage
      rw [Part.storeByte_taking off c.data f hreserved] at h
      refine ⟨_, hnext hstage h, htaken f, ?_⟩
      rw [Part.taking_eq]
      simp
    refine ⟨fun hstage => ?_, fun hstage => ?_, fun hstage hlen => ?_, fun hstage => ?_, fun hstage => ?_⟩
    · exact hstored 0 _ (Part.nextChar_unit c.data hstage) (by simp [hstage])
    · exact hstored 1 _ (Part.nextChar_ctl c.data hstage) (by simp [hstage])
    · rw [← Part.payloadStage_zero]
      exact hstored 2 _ (Part.nextChar_len hstage hlen) (by simp [hstage])
    · exact hstored (3 + r.got) _ (Part.nextChar_payload c.data hstage) (by simp [hstage])
    · refine ⟨_, hnext (by simp [hstage]) (Part.nextChar_checkHi c.data hstage), htaken _, ?_⟩
      simp [Part.modReply, Part.judging, Part.arrived]

end Sys2Proof.Machine
end

section
/-! PROOF. The garbled reply and the window that closes with no reply: the error's score and the count of the
directory (O37, O39). -/

namespace Sys2Proof.Machine

theorem Engine.unqueued_inj {g h : Engine} (e : g.unqueued = h.unqueued) : g.phase = h.phase ∧ g.state = h.state := by
  simp only [Engine.unqueued, Engine.mk.injEq] at e
  simp only [e, and_self]

namespace Part

section

variable {p : Part} {b : Branch} {n : StationNo} {void : Bool}

/-! ## An error in an exchange (R25, R119, R132) -/

/-- A stop asked for in an exchange waits for its end (R25). -/
theorem stopRequest_inExchange (hstate : (p.engine b).state ≠ .stopped) (hphase : (p.engine b).phase.inExchange = true) :
    stopRequest b p = modEngine b (fun g => { g with state := .stopping }) p := by
  by_cases h : (p.engine b).state = .stopping
  · rw [stopRequest_stopping h]
    have hg : { p.engine b with state := .stopping } = p.engine b := by rw [← h]
    simp only [modEngine, hg]
    exact (congrArg (fun x => { p with engines := x }) (put_get_self p.engines b)).symm
  · exact stopRequest_exchange (EngineState.running_of_ne hstate h) hphase

/-- An error in an exchange, beyond its supervisor: the engine may be asked to stop. -/
theorem handleError_inExchange (r : ErrorReport) (hstate : (p.engine b).state ≠ .stopped)
    (hphase : (p.engine b).phase.inExchange = true) :
    (handleError b r p).stations = p.stations ∧ (handleError b r p).sups = (scoreError b r p).sups
      ∧ ∃ x, (handleError b r p).engine b = { p.engine b with state := x } := by
  rcases isolationTest_cases b r.kind (scoreError b r p) with h | ⟨reason, d, h⟩
  · rw [handleError, h]
    exact ⟨by simp, rfl, (p.engine b).state, by simp⟩
  rw [handleError, h]
  cases hrun : ((scoreError b r p).switch b).state.running
  · rw [requestIsolation_other hrun]
    exact ⟨by simp, rfl, (p.engine b).state, by simp⟩
  · rw [requestIsolation_running hrun, stopRequest_inExchange (by simpa using hstate) (by simpa using hphase)]
    exact ⟨by simp, by simp, .stopping, by simp⟩

theorem handleError_inExchange_sup (r : ErrorReport) (hstate : (p.engine b).state ≠ .stopped)
    (hphase : (p.engine b).phase.inExchange = true) :
    ∃ w, (handleError b r p).sup b = { (p.sup b).scoring (p.branchSetup b) r with warn := w } := by
  obtain ⟨_, hsups, _⟩ := handleError_inExchange r hstate hphase
  obtain ⟨w, hw⟩ := scoreError_sup b r p
  exact ⟨w, by rw [sup_def, hsups, ← sup_def, hw]⟩

/-! ## What a departure leaves of the engine -/

theorem leaveFor_phase (b : Branch) (n : StationNo) (new : StationState) (f : Station → Station) (p : Part) :
    ((leaveFor b n new f p).engine b).phase = (p.engine b).phase
      ∧ ((leaveFor b n new f p).engine b).state = (p.engine b).state := by
  have hremoved : ∀ g : Engine, (g.removeStation n).phase = g.phase ∧ (g.removeStation n).state = g.state := by
    intro g
    unfold Engine.removeStation
    split <;> exact ⟨rfl, rfl⟩
  unfold leaveFor
  extract_lets was p1 p2
  have hp1 : p1.engine b = p.engine b := by simp [p1, changeStation]
  have hp2 : (p2.engine b).phase = (p.engine b).phase ∧ (p2.engine b).state = (p.engine b).state := by
    unfold p2
    split
    · have hflush := completeWhere_unqueued b new.departure.1 (fun e => e.target == n)
        (modEngine b (Engine.removeStation n) p1)
      rw [engine_modEngine_self, hp1] at hflush
      obtain ⟨hphase, hstate⟩ := Engine.unqueued_inj hflush
      rw [completeStation, hphase, hstate]
      exact hremoved _
    · rw [hp1]
      exact ⟨rfl, rfl⟩
  simpa using hp2

/-! ## The garble count of the directory (R35) -/

theorem reportGarble_held {score : Nat} (h : void = true ∨ (p.branchSetup b).tw ≤ score
    ∨ (p.station b n).state = .conflict ∨ (p.station b n).state = .barred) : reportGarble b n void score p = p := by
  refine if_neg ?_
  rcases h with h | h | h | h <;> simp [h]

theorem reportGarble_advances {score : Nat} (hvoid : void = false) (hscore : score < (p.branchSetup b).tw)
    (hstate : (p.station b n).state = .present ∨ (p.station b n).state = .absent) (hgarble : (p.station b n).garble < 15) :
    reportGarble b n void score p =
      if (p.branchSetup b).conflictLimit ≤ (p.station b n).garble + 1 then
        leaveFor b n .conflict (fun st => { st with garble := (p.station b n).garble + 1 }) p
      else updStation b n (fun st => { st with garble := (p.station b n).garble + 1 }) p := by
  have hkeeps : (decide ((p.station b n).state = .present) || decide ((p.station b n).state = .absent)) = true := by
    simpa using hstate
  simp only [reportGarble, nextGarble, hvoid, hkeeps, hscore, hgarble, Bool.not_false, decide_true, Bool.and_self, if_true]

/-- A count that advances stays below the limit, or takes the record to CONFLICT. -/
theorem reportGarble_outcome {score : Nat} (hvoid : void = false) (hscore : score < (p.branchSetup b).tw)
    (hstate : (p.station b n).state = .present ∨ (p.station b n).state = .absent) (hgarble : (p.station b n).garble < 15) :
    ((p.station b n).garble + 1 < (p.branchSetup b).conflictLimit →
      (reportGarble b n void score p).station b n = { p.station b n with garble := (p.station b n).garble + 1 })
    ∧ ((p.branchSetup b).conflictLimit ≤ (p.station b n).garble + 1 →
      ((reportGarble b n void score p).station b n).state = .conflict
      ∧ ((reportGarble b n void score p).station b n).garble = (p.station b n).garble + 1
      ∧ ((p.station b n).state = .present → n ∉ ((reportGarble b n void score p).engine b).pollList)
      ∧ (reportGarble b n void score p).notices.latches.getLsbD 6 = true) := by
  rw [reportGarble_advances hvoid hscore hstate hgarble]
  refine ⟨fun hlimit => ?_, fun hlimit => ?_⟩
  · rw [if_neg (Nat.not_le.mpr hlimit), station_updStation_self]
  · rw [if_pos hlimit]
    have hstanding := leaveFor_standing b n .conflict (fun st => { st with garble := (p.station b n).garble + 1 }) p
    refine ⟨congrArg (·.1) hstanding, congrArg (·.2.2.2) hstanding, fun hpresent => ?_, ?_⟩
    · rw [leaveFor_pollList .conflict _ hpresent]
      simp
    · rw [leaveFor_latch]
      exact station_latched _

theorem reportGarble_phase (score : Nat) (p : Part) :
    ((reportGarble b n void score p).engine b).phase = (p.engine b).phase := by
  unfold reportGarble
  extract_lets st g p1
  have hp1 : p1.engine b = p.engine b := by
    unfold p1
    split <;> rfl
  split
  · split
    · rw [(leaveFor_phase ..).1, hp1]
    · simp [hp1]
  · rfl

/-! ## A garbled reply (R6, R7, R118) -/

/-- The report of a garbled reply. -/
def garbleReport (x : Exchange) (k : ErrorKind) (round : Nat) : ErrorReport :=
  { kind := k, station := x.station, chars := x.reply.chars, detail := 0, stamp := round }

section

variable {x : Exchange} {k : ErrorKind}

/-- A garbled reply is an error in the quiet wait, and an outcome with the score before it. -/
theorem garbled_eq (b : Branch) (x : Exchange) (k : ErrorKind) (p : Part) : garbled b x k p =
    reportGarble b x.station x.void (p.sup b).score
      (handleError b (garbleReport x k (p.engine b).round) (setPhase b .quiet p)) := rfl

/-- The part as the directory is told of a garbled reply. -/
theorem garbled_error (x : Exchange) (k : ErrorKind) (hstate : (p.engine b).state ≠ .stopped) :
    let q := handleError b (garbleReport x k (p.engine b).round) (setPhase b .quiet p)
    (∀ n, q.station b n = p.station b n) ∧ (q.engine b).phase = .quiet ∧ (q.engine b).pollList = (p.engine b).pollList
      ∧ ∃ w, q.sup b = { (p.sup b).scoring (p.branchSetup b) (garbleReport x k (p.engine b).round) with warn := w } := by
  intro q
  have hrun : ((setPhase b .quiet p).engine b).state ≠ .stopped := by simpa [setPhase] using hstate
  have hexchange : ((setPhase b .quiet p).engine b).phase.inExchange = true := by simp [setPhase, Phase.inExchange]
  obtain ⟨hstations, _, y, hengine⟩ := handleError_inExchange (garbleReport x k (p.engine b).round) hrun hexchange
  have hq : q.engine b = { p.engine b with phase := .quiet, state := y } := by
    rw [hengine]
    simp [setPhase]
  obtain ⟨w, hw⟩ := handleError_inExchange_sup (garbleReport x k (p.engine b).round) hrun hexchange
  refine ⟨fun n => by rw [station_def, hstations]; rfl, congrArg Engine.phase hq, (congrArg Engine.pollList hq :), w, hw⟩

end

/-- What `ErrorKind` k adds to a supervisor, its warn flag aside. -/
theorem garbled_sup (x : Exchange) (k : ErrorKind) (hstate : (p.engine b).state ≠ .stopped) :
    ((garbled b x k p).engine b).phase = .quiet
      ∧ ∃ w, (garbled b x k p).sup b =
        { (p.sup b).scoring (p.branchSetup b) (garbleReport x k (p.engine b).round) with warn := w } := by
  obtain ⟨_, hphase, _, w, hw⟩ := garbled_error x k hstate
  rw [garbled_eq, reportGarble_phase]
  exact ⟨hphase, w, by rw [← hw]; simp⟩

/-- A held count (R35): the record stays. -/
theorem garbled_held {x : Exchange} (k : ErrorKind) (hstate : (p.engine b).state ≠ .stopped)
    (h : x.void = true ∨ (p.branchSetup b).tw ≤ (p.sup b).score
      ∨ (p.station b x.station).state = .conflict ∨ (p.station b x.station).state = .barred) :
    (garbled b x k p).station b x.station = p.station b x.station := by
  obtain ⟨hstations, _⟩ := garbled_error x k hstate
  have hstation := hstations x.station
  rw [garbled_eq, reportGarble_held]
  · exact hstation
  · rw [hstation]
    simpa [setPhase] using h

theorem garbled_advances {x : Exchange} (k : ErrorKind) (hstate : (p.engine b).state ≠ .stopped) (hvoid : x.void = false)
    (hscore : (p.sup b).score < (p.branchSetup b).tw)
    (hrecord : (p.station b x.station).state = .present ∨ (p.station b x.station).state = .absent)
    (hgarble : (p.station b x.station).garble < 15) :
    ((p.station b x.station).garble + 1 < (p.branchSetup b).conflictLimit →
      (garbled b x k p).station b x.station =
        { p.station b x.station with garble := (p.station b x.station).garble + 1 })
    ∧ ((p.branchSetup b).conflictLimit ≤ (p.station b x.station).garble + 1 →
      ((garbled b x k p).station b x.station).state = .conflict
      ∧ ((garbled b x k p).station b x.station).garble = (p.station b x.station).garble + 1
      ∧ ((p.station b x.station).state = .present → x.station ∉ ((garbled b x k p).engine b).pollList)
      ∧ (garbled b x k p).notices.latches.getLsbD 6 = true) := by
  obtain ⟨hstations, _⟩ := garbled_error x k hstate
  have hsetup : (handleError b (garbleReport x k (p.engine b).round) (setPhase b .quiet p)).branchSetup b
      = p.branchSetup b := by simp [setPhase]
  rw [garbled_eq]
  generalize handleError b (garbleReport x k (p.engine b).round) (setPhase b .quiet p) = q at *
  have houtcome := reportGarble_outcome (p := q) (b := b) (n := x.station) (score := (p.sup b).score) hvoid
  rw [hstations, hsetup] at houtcome
  exact houtcome hscore hrecord hgarble

/-! ## A missing reply (R34) -/

theorem reportMiss_kept (h : void = true ∨ (p.station b n).state ≠ .present) : reportMiss b n void p = p := by
  refine if_neg ?_
  rcases h with h | h <;> simp [h]

theorem reportMiss_present (hvoid : void = false) (h : (p.station b n).state = .present) : reportMiss b n void p =
    if (p.branchSetup b).missLimit ≤ (p.station b n).miss + 1 then
      leaveFor b n .absent (fun st => { st with miss := 0 }) p
    else updStation b n (fun st => { st with miss := st.miss + 1 }) p := by
  simp [reportMiss, hvoid, h]

theorem reportMiss_phase (p : Part) : ((reportMiss b n void p).engine b).phase = (p.engine b).phase
    ∧ ((reportMiss b n void p).engine b).state = (p.engine b).state := by
  unfold reportMiss
  extract_lets st
  split
  · split
    · exact leaveFor_phase ..
    · simp
  · exact ⟨rfl, rfl⟩

theorem reportMiss_outcome (hvoid : void = false) (h : (p.station b n).state = .present) :
    ((p.station b n).miss + 1 < (p.branchSetup b).missLimit →
      (reportMiss b n void p).station b n = { p.station b n with miss := (p.station b n).miss + 1 })
    ∧ ((p.branchSetup b).missLimit ≤ (p.station b n).miss + 1 →
      ((reportMiss b n void p).station b n).state = .absent ∧ ((reportMiss b n void p).station b n).miss = 0
      ∧ n ∉ ((reportMiss b n void p).engine b).pollList) := by
  rw [reportMiss_present hvoid h]
  refine ⟨fun hlimit => ?_, fun hlimit => ?_⟩
  · rw [if_neg (Nat.not_le.mpr hlimit), station_updStation_self]
  · rw [if_pos hlimit]
    have hstanding := leaveFor_standing b n .absent (fun st => { st with miss := 0 }) p
    refine ⟨congrArg (·.1) hstanding, congrArg (·.2.2.1) hstanding, ?_⟩
    rw [leaveFor_pollList .absent _ h]
    simp

theorem windowClose_stands (hphase : (p.engine b).phase = .window) {x : Exchange} (hx : (p.engine b).exch = some x)
    (h : (p.engine b).arriving.isSome = true) : windowClose b p = p := by
  simp only [windowClose, hphase, hx, h, if_true]

theorem windowClose_sweep (hphase : (p.engine b).phase = .window) {x : Exchange} (hx : (p.engine b).exch = some x)
    (h : (p.engine b).arriving = none) (hkind : x.kind = .sweep) : windowClose b p = setPhase b .turnaround p := by
  simp [windowClose, hphase, hx, h, hkind]

theorem windowClose_misses (hphase : (p.engine b).phase = .window) {x : Exchange} (hx : (p.engine b).exch = some x)
    (h : (p.engine b).arriving = none) (hkind : x.kind ≠ .sweep) : windowClose b p =
      handleError b { kind := .miss, station := x.station, chars := [], detail := 0, stamp := (p.engine b).round }
        (reportMiss b x.station x.void (setPhase b .turnaround p)) := by
  simp [windowClose, hphase, hx, h, hkind]

theorem gapTimeout_garbles (hphase : (p.engine b).phase = .reply) {x : Exchange} (hx : (p.engine b).exch = some x)
    (h : (p.engine b).arriving = none) : gapTimeout b p = garbled b x .framing p := by
  simp [gapTimeout, hphase, hx, h]

/-! ## The characters that garble a reply (R6) -/

section

variable {x : Exchange} {c : LineChar}

theorem firstChar_wrong (h : c.mark = false ∨ c.data.toNat % 64 ≠ x.station.val ∨ c.data.toNat / 64 < 2
    ∨ (c.data.toNat / 64 = 2 ∧ x.kind = .send)) : firstChar b x c p = garbled b x .wrongStation p := by
  unfold firstChar
  extract_lets kind
  by_cases hmark : c.mark = false ∨ c.data.toNat % 64 ≠ x.station.val
  · exact if_pos (by simpa using hmark)
  obtain ⟨hm, hs⟩ := not_or.mp hmark
  have hlow : c.data.toNat / 64 < 2 ∨ (c.data.toNat / 64 = 2 ∧ x.kind = .send) :=
    (h.resolve_left hm).resolve_left hs
  have hfew : c.data.toNat / 64 < 2 → c.data.toNat / 64 = 0 ∨ c.data.toNat / 64 = 1 := by omega
  have hstatus : kind ≠ .status := by
    rcases hlow with hlow | ⟨hlow, _⟩
    · rcases hfew hlow with hd | hd <;> simp [kind, ctlKindOf, hd]
    · simp [kind, ctlKindOf, hlow]
  have hanswer : ¬ (kind = .answer ∧ x.kind ≠ .send) := by
    rcases hlow with hlow | ⟨_, hkind⟩
    · rcases hfew hlow with hd | hd <;> simp [kind, ctlKindOf, hd]
    · simp [hkind]
  rw [if_neg (by simpa using hmark), if_neg hstatus, if_neg hanswer]

theorem statusCode_wrongVisit {v : Byte} (hkind : x.kind ≠ .send) (hv : v ≠ 0) :
    statusCode b x v p = garbled b x .wrongStation p := by
  simp only [statusCode, hkind, hv, if_false]

theorem statusCode_wrongSend {v : Byte} (hkind : x.kind = .send) (hheld : v ≠ 0x20)
    (hv : v ≠ if x.seq then 0x11 else 0x10) : statusCode b x v p = garbled b x .wrongStation p := by
  by_cases hack : v = 0x10 ∨ v = 0x11
  · have hseq : (v == 0x11) ≠ x.seq := by
      intro hseq
      rcases hack with rfl | rfl <;> simp [← hseq] at hv
    simp only [statusCode, hkind, hack, hseq, if_true, if_false]
  · simp only [statusCode, hkind, hack, hheld, if_true, if_false]

end

end

end Part

/-- Settles O37: each condition leads to `garbled`, of which the score and the directory's count are said once. -/
theorem garbledRepliesAreScored : Obligations.GarbledRepliesAreScored := by
  intro s b x hheld g st scored hstate hx
  have hscored : ∀ (i : Instr) (k : ErrorKind) (f : Engine → Engine) (y : Exchange),
      exec i s = .next (s.withPart (Part.garbled b y k (Part.modEngine b f s.part))) →
      y.station = x.station → y.void = x.void → (f g).state = g.state → scored i k := by
    intro i k f y hexec hstation hvoid hf
    let q : Part := Part.modEngine b f s.part
    have hq : (q.engine b).state ≠ .stopped := by
      rw [Part.engine_modEngine_self]
      exact fun e => hstate (hf.symm.trans e)
    obtain ⟨hphase, w, hw⟩ := Part.garbled_sup (p := q) (b := b) y k hq
    refine ⟨_, hexec, hphase, ?_, ?_, ?_, rfl, fun h => ?_, fun h1 h2 h3 h4 => ?_⟩
    · exact (congrArg (fun u : Supervisor => u.kinds.get k.number) hw).trans (get_put_self ..)
    · exact (congrArg Supervisor.score hw :)
    · exact (congrArg Supervisor.clean hw :)
    · have hheld := Part.garbled_held (p := q) (x := y) k hq (by rw [hvoid, hstation]; exact h)
      rw [hstation] at hheld
      exact hheld
    · have hadvances := Part.garbled_advances (p := q) (x := y) k hq (hvoid.trans h1) h2 (by rw [hstation]; exact h3)
        (by rw [hstation]; exact h4)
      rw [hstation] at hadvances
      exact hadvances
  refine ⟨fun hphase harriving => ?_, fun hphase harriving => ?_⟩
  · have hsame : Part.modEngine b id s.part = s.part :=
      congrArg (fun e => { s.part with engines := e }) (put_get_self s.part.engines b)
    exact hscored _ _ id x (onPart_awake_eq hheld ((Part.gapTimeout_garbles hphase hx harriving).trans (by rw [hsame])))
      rfl rfl rfl
  have hjudged : ∀ (c : LineChar) (k : ErrorKind),
      Part.judgeChar b x c (Part.arrived b s.part) = Part.garbled b (x.noting c) k (Part.judging b x c s.part) →
      scored (.receiveCharacter b c) k := by
    intro c k h
    rw [Part.judging_eq] at h
    exact hscored _ k _ (x.noting c) (onPart_awake_eq hheld ((Part.receiveChar_reply hstate hx harriving hphase).trans h))
      rfl rfl rfl
  have hnext : ∀ (c : LineChar) (k : ErrorKind), c.stop = true → x.reply.stage ≠ .first → c.mark = false →
      Part.nextChar b (x.noting c) c.data (Part.judging b x c s.part)
        = Part.garbled b (x.noting c) k (Part.judging b x c s.part) → scored (.receiveCharacter b c) k :=
    fun c k hstop hstage hmark h => hjudged c k ((Part.judgeChar_next hstop hstage hmark).trans h)
  refine ⟨fun c hstop => hjudged c _ (Part.judgeChar_badStop hstop),
    fun c hstop hstage h => hjudged c _ ((Part.judgeChar_first hstop hstage).trans (Part.firstChar_wrong (x := x.noting c) h)),
    fun c hstop hstage hmark => hjudged c _ (Part.judgeChar_control hstop hstage hmark),
    fun c hstop hstage hmark => ⟨fun hkind hv => ?_, fun hkind hidle hack => ?_⟩,
    fun c hstop hstage hmark hlen => hnext c _ hstop (by simp [hstage]) hmark (Part.nextChar_tooLong (x := x.noting c) hstage hlen),
    fun c hstop hstage hmark hcheck => hnext c _ hstop (by simp [hstage]) hmark (Part.nextChar_badCheck (x := x.noting c) hstage hcheck)⟩
  · exact hnext c _ hstop (by simp [hstage]) hmark
      ((Part.nextChar_code (x := x.noting c) _ hstage).trans (Part.statusCode_wrongVisit (x := x.noting c) hkind hv))
  · exact hnext c _ hstop (by simp [hstage]) hmark
      ((Part.nextChar_code (x := x.noting c) _ hstage).trans (Part.statusCode_wrongSend (x := x.noting c) hkind hidle hack))

/-- Settles O39: the window closes on a sweep, or the miss is counted and scored. -/
theorem silenceIsAMiss : Obligations.SilenceIsAMiss := by
  intro s b x hheld g st hphase hx hstate
  have hexec : ∀ {q}, Part.windowClose b s.part = q → exec (.replyWindowClose b) s = .next (s.withPart q) :=
    onPart_awake_eq hheld
  refine ⟨fun h => hexec (Part.windowClose_stands hphase hx h),
    fun h hkind => hexec (Part.windowClose_sweep hphase hx h hkind), fun h hkind hvoid hpresent => ?_⟩
  let q : Part := Part.reportMiss b x.station x.void (Part.setPhase b .turnaround s.part)
  let r : ErrorReport := { kind := .miss, station := x.station, chars := [], detail := 0, stamp := g.round }
  have hmiss : exec (.replyWindowClose b) s = .next (s.withPart (Part.handleError b r q)) :=
    hexec (Part.windowClose_misses hphase hx h hkind)
  obtain ⟨hqphase, hqstate⟩ := Part.reportMiss_phase (b := b) (n := x.station) (void := x.void)
    (Part.setPhase b .turnaround s.part)
  have hq : (q.engine b).phase = .turnaround := hqphase.trans (by simp [Part.setPhase])
  have hrun : (q.engine b).state ≠ .stopped := fun e =>
    absurd (hqstate.symm.trans e) (by simpa [Part.setPhase] using hstate)
  have hsup : q.sup b = s.part.sup b := by simp [q, Part.setPhase]
  have hsetup : q.branchSetup b = s.part.branchSetup b := by simp [q, Part.setPhase]
  have houtcome := Part.reportMiss_outcome (p := Part.setPhase b .turnaround s.part) (b := b) (n := x.station) hvoid
    hpresent
  change (_ → q.station b x.station = _) ∧ (_ → (q.station b x.station).state = _ ∧ (q.station b x.station).miss = _
    ∧ x.station ∉ (q.engine b).pollList) at houtcome
  clear_value q
  obtain ⟨hcounts, habsent⟩ := houtcome
  have hexchange : (q.engine b).phase.inExchange = true := by rw [hq]; rfl
  obtain ⟨hstations, _, y, hengine⟩ := Part.handleError_inExchange (p := q) r hrun hexchange
  obtain ⟨w, hw⟩ := Part.handleError_inExchange_sup (p := q) r hrun hexchange
  rw [hsup, hsetup] at hw
  have hstation : (Part.handleError b r q).station b x.station = q.station b x.station := by
    rw [Part.station_def, hstations, Part.station_def]
  refine ⟨_, hmiss, ?_, ?_, ?_, fun hlimit => ?_, fun hlimit => ?_⟩
  · exact (congrArg Engine.phase hengine).trans hq
  · exact (congrArg (fun u : Supervisor => u.kinds.get 0) hw).trans (get_put_self ..)
  · exact (congrArg Supervisor.score hw :)
  · exact hstation.trans (hcounts hlimit)
  · rw [State.withPart_part, hstation, hengine]
    exact habsent hlimit

end Sys2Proof.Machine
end

section
/-! PROOF. The status codes that end a reply (O36). -/

namespace Sys2Proof.Machine

/-! ## A station's image asked for more than once (R31, R170) -/

theorem ImgWrite.merge_self (w : ImgWrite) : w.merge w = w := by
  simp [ImgWrite.merge]

theorem ImgWrite.merge_merge (x w : ImgWrite) : (x.merge w).merge w = x.merge w := by
  simp [ImgWrite.merge, BitVec.or_assoc]

/-- A request made twice is one request. -/
theorem enqueueWrite_idem (w : ImgWrite) (l : List ImgWrite) : enqueueWrite w (enqueueWrite w l) = enqueueWrite w l := by
  induction l with
  | nil => simp [enqueueWrite, ImgWrite.merge_self]
  | cons x r ih =>
    by_cases h : x.record = w.record
    · simp [enqueueWrite, h, ImgWrite.merge_merge, show (x.merge w).record = w.record from h]
    · simp [enqueueWrite, h, ih]

/-- The image writer once the bytes 7-15 of a station are asked for. -/
def ImageWriter.asked (b : Branch) (n : StationNo) (w : ImageWriter) : ImageWriter :=
  { w with queue := enqueueWrite { recordWrite (.station b n) 0 with high := true } w.queue }

theorem ImageWriter.asked_asked (b : Branch) (n : StationNo) (w : ImageWriter) : (w.asked b n).asked b n = w.asked b n := by
  simp [asked, enqueueWrite_idem]

/-- An entry that has been held once more (R17). -/
def TxEntry.heldOnce (e : TxEntry) : TxEntry := { e with hold := e.hold + 1 }

namespace Part

section

variable {p : Part} {b : Branch} {n : StationNo}

theorem updStation_asks {f : Station → Station} (h : f (p.station b n) ≠ p.station b n) :
    (updStation b n f p).writer = p.writer.asked b n := by
  rw [updStation_writer, if_neg h]
  rfl

theorem updStation_mayAsk (f : Station → Station) (p : Part) :
    (updStation b n f p).writer = p.writer ∨ (updStation b n f p).writer = p.writer.asked b n := by
  rw [updStation_writer]
  split
  · exact .inl rfl
  · exact .inr rfl

/-! ## Clean replies, deliveries and discoveries (R32, R33) -/

theorem reportClean_present (h : (p.station b n).state = .present) : reportClean b n false p =
    updStation b n (fun st => { st with miss := 0, garble := 0, lastHeard := (p.engine b).round }) p :=
  if_pos (by simp [h])

theorem reportClean_kept {void : Bool} (h : void = true ∨ (p.station b n).state ≠ .present) :
    reportClean b n void p = p := by
  refine if_neg ?_
  rcases h with h | h <;> simp [h]

theorem reportDiscovery_absent (h : (p.station b n).state = .absent) : reportDiscovery b n false p =
    modEngine b (Engine.appendStation n) (changeStation b n (fun st =>
      { st with state := .present, miss := 0, garble := 0, rxValid := false, txSeq := false
                lastHeard := (p.engine b).round }) p) := if_pos (by simp [h])

theorem reportDiscovery_kept {void : Bool} (h : void = true ∨ (p.station b n).state ≠ .absent) :
    reportDiscovery b n void p = p := by
  refine if_neg ?_
  rcases h with h | h <;> simp [h]

theorem appendStation_pollList (n : StationNo) (g : Engine) :
    (g.appendStation n).pollList = if n ∈ g.pollList then g.pollList else g.pollList ++ [n] := by
  by_cases h : n ∈ g.pollList <;> simp [Engine.appendStation, h]

/-! ## The status codes (R15, R17, R19) -/

section

variable {x : Exchange} {e : TxEntry} {r : List TxEntry}

theorem statusCode_idle (hkind : x.kind ≠ .send) : statusCode b x 0 p = setPhase b .turnaround (reportGood b x p) := by
  simp [statusCode, hkind]

theorem statusCode_ack (hkind : x.kind = .send) :
    statusCode b x (if x.seq then 0x11 else 0x10) p = delivered b x p := by
  cases hseq : x.seq <;> simp [statusCode, hkind, hseq]

theorem statusCode_hold (hkind : x.kind = .send) : statusCode b x 0x20 p = heldBack b x p := by
  simp [statusCode, hkind]

/-- The station after the clean reply that ends a SEND to it. -/
def cleanly (b : Branch) (x : Exchange) (p : Part) : Part := setPhase b .turnaround (reportClean b x.station x.void p)

/-- The station after the delivery of a SEND to it. -/
def delivering (b : Branch) (x : Exchange) (p : Part) : Part :=
  setPhase b .turnaround (reportDelivery b x.station x.void (reportClean b x.station x.void p))

theorem delivered_completes (hentry : x.entry = some e.buf) (hcode : x.endCode = none)
    (hqueue : (p.engine b).queue = e :: r) : delivered b x p = completeEntry b e .delivered (delivering b x p) := by
  have hfind : (e :: r).find? (fun y => x.entry = some y.buf) = some e := List.find?_cons_of_pos (by simp [hentry])
  unfold delivered
  extract_lets p1
  have hq : (p1.engine b).queue = e :: r := by simp [p1, setPhase, hqueue]
  simp only [hcode, hq, hfind]
  rfl

/-- The queue with the entry sent counted as held once more. -/
def holding (b : Branch) (x : Exchange) (e : TxEntry) (p : Part) : Part :=
  modEngine b (fun g => { g with queue := g.queue.map fun y => if y.buf = e.buf then e.heldOnce else y }) (cleanly b x p)

theorem heldBack_eq (hentry : x.entry = some e.buf) (hcode : x.endCode = none) (hqueue : (p.engine b).queue = e :: r) :
    heldBack b x p = if (p.branchSetup b).holdLimit ≤ e.hold + 1 then
        completeEntry b e.heldOnce .refused (holding b x e p)
      else holding b x e p := by
  have hfind : (e :: r).find? (fun y => x.entry = some y.buf) = some e := List.find?_cons_of_pos (by simp [hentry])
  unfold heldBack
  extract_lets p1
  have hq : (p1.engine b).queue = e :: r := by simp [p1, setPhase, hqueue]
  simp only [hcode, hq, hfind]
  rfl

end

/-! ## The parts before an entry completes -/

section

variable {x : Exchange} {e : TxEntry} {r : List TxEntry}

theorem cleanly_station (hvoid : x.void = false) (h : (p.station b x.station).state = .present) :
    (cleanly b x p).station b x.station =
      { p.station b x.station with miss := 0, garble := 0, lastHeard := (p.engine b).round } := by
  simp [cleanly, setPhase, hvoid, reportClean_present h]

theorem cleanly_writer (b : Branch) (x : Exchange) (p : Part) :
    (cleanly b x p).writer = p.writer ∨ (cleanly b x p).writer = p.writer.asked b x.station := by
  show (reportClean b x.station x.void p).writer = _ ∨ (reportClean b x.station x.void p).writer = _
  unfold reportClean
  split
  · exact updStation_mayAsk ..
  · exact .inl rfl

theorem delivering_station (hvoid : x.void = false) (h : (p.station b x.station).state = .present) :
    (delivering b x p).station b x.station = { p.station b x.station with
      miss := 0, garble := 0, lastHeard := (p.engine b).round, txSeq := !(p.station b x.station).txSeq
      framesOut := satInc 65535 (p.station b x.station).framesOut } := by
  simp [delivering, setPhase, hvoid, reportClean_present h, reportDelivery]

/-- A delivery toggles the sequence bit, so the image is asked for. -/
theorem delivering_writer (hvoid : x.void = false) : (delivering b x p).writer = p.writer.asked b x.station := by
  show (reportDelivery b x.station x.void (reportClean b x.station x.void p)).writer = _
  rw [reportDelivery, if_neg (by simp [hvoid]), updStation_asks]
  · rcases cleanly_writer b x p with h | h
    · exact congrArg _ h
    · exact (congrArg _ h).trans (ImageWriter.asked_asked ..)
  · exact fun h => by simpa using congrArg Station.txSeq h

theorem holding_queue (hqueue : (p.engine b).queue = e :: r) (hr : ∀ y ∈ r, y.buf ≠ e.buf) :
    ((holding b x e p).engine b).queue = e.heldOnce :: r := by
  have hmap : r.map (fun y => if y.buf = e.buf then e.heldOnce else y) = r := by
    exact (List.map_congr_left fun y hy => if_neg (hr y hy)).trans (List.map_id r)
  simp [holding, cleanly, setPhase, hqueue, hmap]

/-- An entry that leaves takes the count of its station down. -/
theorem completeEntry_counted (code : TxCode) (htarget : e.target ≠ 63) :
    (completeEntry b e code p).station b e.target =
      { p.station b e.target with queued := (p.station b e.target).queued - 1 } := by
  rw [station_def, completeEntry_stations, ← station_def, uncounted, if_neg htarget, station_updStation_self]

theorem completeEntry_queue (code : TxCode) (hqueue : (p.engine b).queue = e :: r) (hr : ∀ y ∈ r, y.buf ≠ e.buf) :
    ((completeEntry b e code p).engine b).queue = r := by
  rw [completeEntry_engine_eq]
  simp only [hqueue, List.filter_cons, bne_self_eq_false, Bool.false_eq_true, if_false]
  exact List.filter_eq_self.mpr fun y hy => by simpa using hr y hy

/-- The slot of an entry that leaves is written after the image of its station. -/
theorem completeEntry_writes {w : ImageWriter} {i : Fin 32} {copy : List Byte} (code : TxCode) (ho : e.origin = .slot i copy)
    (hw : (uncounted b e p).writer = w.asked b e.target) :
    (completeEntry b e code p).writer.active = w.active
    ∧ (completeEntry b e code p).writer.queue = enqueueWrite (slotWrite (.toTrunk i)
        (toTrunkSlotBytes copy 3 (byteAt copy 2) (byteAt copy 3) code.slotResult) 0x0400)
        (enqueueWrite { recordWrite (.station b e.target) 0 with high := true } w.queue) := by
  obtain ⟨hactive, hqueue⟩ := completeEntry_writer_slot (b := b) (code := code) p ho
  rw [hw] at hactive hqueue
  exact ⟨hactive, hqueue⟩

theorem uncounted_mayAsk {w : ImageWriter} (htarget : e.target ≠ 63) (h : p.writer = w.asked b e.target) :
    (uncounted b e p).writer = w.asked b e.target := by
  rw [uncounted, if_neg htarget]
  rcases updStation_mayAsk (b := b) (n := e.target) (fun st => { st with queued := st.queued - 1 }) p with hu | hu
  · rw [hu, h]
  · rw [hu, h, ImageWriter.asked_asked]

theorem uncounted_asks {w : ImageWriter} (htarget : e.target ≠ 63) (hqueued : (p.station b e.target).queued ≠ 0)
    (h : p.writer = w ∨ p.writer = w.asked b e.target) : (uncounted b e p).writer = w.asked b e.target := by
  rw [uncounted, if_neg htarget, updStation_asks]
  · rcases h with h | h
    · rw [h]
    · rw [h, ImageWriter.asked_asked]
  · intro hsame
    have hq := congrArg Station.queued hsame
    simp only at hq
    omega

end

end

end Part

/-- Settles O36: the codes by the kind of the exchange, and what a completion makes of the entry. -/
theorem statusCodesEndTheReply : Obligations.StatusCodesEndTheReply := by
  intro s b v x hheld g c st hstate hx harriving hphase hstage
  let line : LineChar := { data := v, mark := false, stop := true }
  let y : Exchange := x.noting line
  let q : Part := Part.judging b x line s.part
  have hexec : ∀ {t}, Part.statusCode b y v q = t → exec c s = .next (s.withPart t) := fun h =>
    onPart_awake_eq hheld ((Part.receiveChar_reply hstate hx harriving (.inr hphase)).trans
      ((Part.judgeChar_next rfl (by simp [hstage]) rfl).trans ((Part.nextChar_code (x := y) v hstage).trans h)))
  have hq : q = Part.modEngine b (fun g => { g with arriving := none, phase := .reply, exch := some y }) s.part :=
    Part.judging_eq ..
  have hengine : q.engine b = { g with arriving := none, phase := .reply, exch := some y } := by
    rw [hq, Part.engine_modEngine_self]
  have hround : (q.engine b).round = g.round := by rw [hengine]
  have hqueue : (q.engine b).queue = g.queue := by rw [hengine]
  have hlist : (q.engine b).pollList = g.pollList := by rw [hengine]
  have hdropped : (q.engine b).relayDropped = g.relayDropped := by rw [hengine]
  have hstation : q.station b x.station = st := by rw [hq]; rfl
  have hsups : q.sups = s.part.sups := by rw [hq]; rfl
  have hpool : q.pool = s.part.pool := by rw [hq]; rfl
  have hstations : q.stations = s.part.stations := by rw [hq]; rfl
  have hnotices : q.notices = s.part.notices := by rw [hq]; rfl
  have hwriter : q.writer = s.part.writer := by rw [hq]; rfl
  have hsetup : q.branchSetup b = s.part.branchSetup b := by rw [hq]; rfl
  clear_value q
  refine ⟨fun hkind hv => ?idle, fun hkind hv hvoid => ?swept, ?send⟩
  case idle =>
    subst hv
    have hclean := hexec (Part.statusCode_idle (p := q) (b := b) (x := y) (by simp [y, Exchange.noting, hkind]))
    rw [show Part.reportGood b y q = Part.reportClean b x.station x.void q from if_neg (by simp [y, Exchange.noting, hkind])]
      at hclean
    refine ⟨_, hclean, by simp [Part.setPhase], fun hvoid hpresent => ?_, fun hkept => ?_, by simp [Part.setPhase, hsups],
      by simp [Part.setPhase, hpool], rfl⟩
    · exact (Part.cleanly_station (p := q) (b := b) hvoid (by rw [hstation]; exact hpresent)).trans (by rw [hstation, hround])
    · rw [Part.reportClean_kept (by rw [hstation]; exact hkept)]
      exact hstations
  case swept =>
    subst hv
    have hfound := hexec (Part.statusCode_idle (p := q) (b := b) (x := y) (by simp [y, Exchange.noting, hkind]))
    rw [show Part.reportGood b y q = Part.reportDiscovery b x.station x.void q from if_pos (by simp [y, Exchange.noting, hkind]),
      hvoid] at hfound
    refine ⟨fun habsent => ?_, fun hknown => ?_⟩
    · rw [Part.reportDiscovery_absent (by rw [hstation]; exact habsent), hround] at hfound
      refine ⟨_, hfound, by simp [Part.setPhase], ?_, ?_, ?_, ?_⟩
      · simp [Part.setPhase, Part.changeStation, hstation]
      · simp [Part.setPhase, Part.changeStation, Part.appendStation_pollList, hlist]
      · simp [Part.setPhase, Part.changeStation, hnotices]
        rfl
      · simp [Part.setPhase, Part.changeStation, hsups]
    · rw [Part.reportDiscovery_kept (.inr (by rw [hstation]; exact hknown))] at hfound
      exact ⟨_, hfound, by simp [Part.setPhase], hstations, by simp [Part.setPhase, hlist]⟩
  case send =>
    intro e r hkind hentry hcode hg hr htarget hnumber hvoid hpresent high ended
    have hqq : (q.engine b).queue = e :: r := hqueue.trans hg
    have hq63 : e.target ≠ 63 := by rw [htarget]; exact hnumber
    have hqpresent : (q.station b y.station).state = .present := by
      rw [show q.station b y.station = st from hstation]
      exact hpresent
    have hended : ∀ (p : Part) (f : TxEntry) (code : TxCode) (n : Nat), f.origin = e.origin → f.target = x.station →
        (p.engine b).relayDropped = g.relayDropped → (∀ d k, e.origin = .relay d k → f.dropCount code g.relayDropped = n) →
        (Part.uncounted b f p).writer = s.part.writer.asked b f.target →
        ended (s.withPart (Part.completeEntry b f code p)) code.slotResult n := by
      intro p f code n ho hf hp hn hw
      refine ⟨fun d k hrelay => ?_, fun i copy hslot => ⟨?_, ?_⟩⟩
      · rw [State.withPart_part, Part.completeEntry_relayDropped, hp, hn d k hrelay]
      · rw [State.withPart_part, Part.completeEntry_relayDropped, hp, TxEntry.dropCount, ho, hslot]
      · have hwrites := Part.completeEntry_writes code (ho.trans hslot) hw
        rw [hf] at hwrites
        exact hwrites
    refine ⟨fun hv => ?ack, fun hv hlimit => ?hold, fun hv hlimit hqueued => ?refuse⟩
    case ack =>
      subst hv
      let p : Part := Part.delivering b y q
      have hp : p.engine b = { q.engine b with phase := .turnaround } := by simp [p, Part.delivering, Part.setPhase]
      have hpq : (p.engine b).queue = e :: r := by rw [hp]; exact hqq
      refine ⟨_, hexec ((Part.statusCode_ack (x := y) hkind).trans (Part.delivered_completes (x := y) hentry hcode hqq)),
        ?_, Part.completeEntry_queue .delivered hpq hr, ?_, ?_, ?_, ?_⟩
      · rw [State.withPart_part, Part.completeEntry_engine_eq, hp]
      · rw [State.withPart_part, Part.completeEntry_free]
        simp [Part.delivering, Part.setPhase, hpool]
      · have hcounted := Part.completeEntry_counted (p := p) (b := b) .delivered hq63
        rw [htarget, show p.station b x.station = _ from Part.delivering_station (x := y) hvoid hqpresent] at hcounted
        refine hcounted.trans ?_
        rw [show q.station b y.station = st from hstation, hround]
        rfl
      · simp [Part.delivering, Part.setPhase, hsups]
      · refine hended p e .delivered _ rfl htarget (by rw [hp]; exact hdropped) (fun d k hrelay => ?_)
          (Part.uncounted_mayAsk hq63 ?_)
        · simp [TxEntry.dropCount, hrelay, TxCode.dropped]
        · rw [htarget, ← hwriter]
          exact Part.delivering_writer (x := y) hvoid
    all_goals
      have hheldBack := Part.heldBack_eq (p := q) (b := b) (x := y) hentry hcode hqq
      rw [hsetup] at hheldBack
      subst hv
      let p : Part := Part.holding b y e q
      have hpq : (p.engine b).queue = e.heldOnce :: r := Part.holding_queue hqq hr
      have hphase : (p.engine b).phase = .turnaround := by simp [p, Part.holding, Part.cleanly, Part.setPhase]
      have hpstation : p.station b x.station = { st with miss := 0, garble := 0, lastHeard := g.round } := by
        refine (Part.cleanly_station (x := y) hvoid hqpresent).trans ?_
        rw [show q.station b y.station = st from hstation, hround]
      have hppool : p.pool = s.part.pool := by simp [p, Part.holding, Part.cleanly, Part.setPhase, hpool]
      have hpsups : p.sups = s.part.sups := by simp [p, Part.holding, Part.cleanly, Part.setPhase, hsups]
    case hold =>
      rw [if_neg (Nat.not_le.mpr hlimit)] at hheldBack
      exact ⟨_, hexec ((Part.statusCode_hold (x := y) hkind).trans hheldBack), hphase, hpq, hpstation, hppool, hpsups⟩
    case refuse =>
      rw [if_pos hlimit] at hheldBack
      refine ⟨_, hexec ((Part.statusCode_hold (x := y) hkind).trans hheldBack), ?_,
        Part.completeEntry_queue .refused hpq hr, ?_, ?_, ?_⟩
      · rw [State.withPart_part, Part.completeEntry_engine_eq]
        exact hphase
      · rw [State.withPart_part, Part.completeEntry_free]
        exact congrArg (fun x : Pool => x.free ++ [e.buf]) hppool
      · refine hended p e.heldOnce .refused _ rfl htarget ?_ (fun d k hrelay => ?_) (Part.uncounted_asks hq63 ?_ ?_)
        · simp [p, Part.holding, Part.cleanly, Part.setPhase, hdropped]
        · simp [TxEntry.dropCount, TxEntry.heldOnce, hrelay, TxCode.dropped, satInc]
        · rw [show p.station b e.heldOnce.target = _ from htarget ▸ hpstation]
          exact hqueued
        · rw [show e.heldOnce.target = x.station from htarget, ← hwriter]
          exact Part.cleanly_writer b y q
      · have hcounted := Part.completeEntry_counted (p := p) (b := b) (e := e.heldOnce) .refused hq63
        rw [show e.heldOnce.target = x.station from htarget, hpstation] at hcounted
        exact hcounted

end Sys2Proof.Machine
end

section
/-! PROOF. The restore checks, the timers of a switch and the sense passes (O44, O47). -/

namespace Sys2Proof.Machine

namespace Part

section

variable {p : Part} {b : Branch}

/-! ## What a restore changes (R141, R150) -/

/-- A switch as its relay begins to move to LINE (R141). -/
def toLine (settle : Nat) (w : Switch) : Switch := { w with rline := true, rprobe := false, relay := .moving .line settle }

theorem beginRestore_high (h : (p.switch b).rflt = false) : beginRestore b p =
    modSwitch b (toLine (p.branchSetup b).settleMs)
      (setSwitch b .closing (modSwitch b (fun w => { w with closingFor := .restore }) p)) := by
  unfold beginRestore
  rw [assertLine_high]
  · simp
    rfl
  · simpa [Switch.entering] using h

theorem beginRestore_switch (h : (p.switch b).rflt = false) : (beginRestore b p).switch b =
    toLine (p.branchSetup b).settleMs (({ p.switch b with closingFor := .restore } : Switch).entering .closing) := by
  rw [beginRestore_high h]
  simp

theorem beginRestore_sense (h : (p.switch b).rflt = false) (hstate : (p.switch b).state = .isolated) :
    (beginRestore b p).sense = { p.sense with checks := put p.sense.checks b false } := by
  rw [beginRestore_high h]
  exact setSwitch_checks .closing (by simpa using hstate) (by decide)

/-! ## Restore checks (R135, R137, R149) -/

/-- A check is answered: it is held no longer. -/
def answered (b : Branch) (p : Part) : Part :=
  modSwitch b (fun w => { w with check := false }) (modSense (fun q => { q with checks := put q.checks b false }) p)

theorem answerCheck_restarts {c : LoopClass} (hcheck : (p.switch b).check = true) (hstate : (p.switch b).state = .isolated)
    (h : c ≠ .terminated ∨ (p.switch b).verdict = .echo) : answerCheck b c p = startRestoreTimer b (answered b p) := by
  have hno : ¬ (c = .terminated ∧ (p.switch b).verdict ≠ .echo) := fun ⟨hc, hv⟩ => h.elim (fun hne => hne hc) hv
  simp only [answerCheck, hcheck, hstate, hno, and_self, if_true, if_false]
  rfl

theorem answerCheck_restores {c : LoopClass} (hcheck : (p.switch b).check = true) (hstate : (p.switch b).state = .isolated)
    (hc : c = .terminated) (hverdict : (p.switch b).verdict ≠ .echo) :
    answerCheck b c p = beginRestore b (answered b p) := by
  simp [answerCheck, hcheck, hstate, hc, hverdict]
  rfl

/-! ## The restore timer (R149) -/

theorem restoreExpiry_off (h : (p.switch b).restore = none ∨ (p.switch b).state ≠ .isolated) : restoreExpiry b p = p := by
  refine if_neg ?_
  rcases h with h | h <;> simp [h]

theorem restoreExpiry_stops (hrestore : (p.switch b).restore.isSome = true) (hstate : (p.switch b).state = .isolated)
    (h : (p.branchSetup b).restoreDelay = 0) :
    restoreExpiry b p = modSwitch b (fun w => { w with restore := none }) p := by
  simp [restoreExpiry, hrestore, hstate, h]

theorem restoreExpiry_asks (hrestore : (p.switch b).restore.isSome = true) (hstate : (p.switch b).state = .isolated)
    (h : (p.branchSetup b).restoreDelay ≠ 0) :
    restoreExpiry b p = askCheck b (modSwitch b (fun w => { w with restore := none }) p) := by
  simp [restoreExpiry, hrestore, hstate, h]

theorem askCheck_holds (h : p.sense.state ≠ .busy ∨ p.sense.converted.get b = false) : askCheck b p =
    modSense (fun q => { q with checks := put q.checks b true
                                state := if q.state = .idle then .pending else q.state })
      (modSwitch b (fun w => { w with check := true }) p) := by
  refine if_neg ?_
  rcases h with h | h <;> simp [h]

theorem askCheck_answers (hstate : p.sense.state = .busy) (h : p.sense.converted.get b = true) :
    askCheck b p = answerCheck b (p.sense.classes.get b) (modSwitch b (fun w => { w with check := true }) p) :=
  if_pos ⟨hstate, h⟩

/-- The part once the restore check of a branch is over and its timer set. -/
def checked (b : Branch) (restore : Option Nat) (p : Part) : Part :=
  { p with switches := put p.switches b { p.switch b with restore := restore, check := false }
           sense := { p.sense with checks := put p.sense.checks b false } }

theorem answered_checking (b : Branch) (p : Part) :
    answered b (modSwitch b (fun w => { w with check := true }) (modSwitch b (fun w => { w with restore := none }) p))
      = checked b none p := by
  simp only [answered, checked, modSwitch, modSense, put_put, switch, get_put_self]

theorem startRestoreTimer_checked (h : (p.branchSetup b).restoreDelay ≠ 0) :
    startRestoreTimer b (checked b none p) = checked b (some (p.branchSetup b).restoreDelay) p := by
  have hsetup : (checked b none p).branchSetup b = p.branchSetup b := rfl
  simp only [startRestoreTimer, hsetup, if_neg h]
  simp only [checked, modSwitch, put_put, switch, get_put_self]

section

variable (hrestore : (p.switch b).restore.isSome = true) (hstate : (p.switch b).state = .isolated)
  (hdelay : (p.branchSetup b).restoreDelay ≠ 0) (hbusy : p.sense.state = .busy)
  (hconverted : p.sense.converted.get b = true)

include hrestore hstate hdelay hbusy hconverted

theorem restoreExpiry_answers : restoreExpiry b p = answerCheck b (p.sense.classes.get b)
    (modSwitch b (fun w => { w with check := true }) (modSwitch b (fun w => { w with restore := none }) p)) :=
  (restoreExpiry_asks hrestore hstate hdelay).trans (askCheck_answers hbusy hconverted)

theorem restoreExpiry_restarts (h : p.sense.classes.get b ≠ .terminated ∨ (p.switch b).verdict = .echo) :
    restoreExpiry b p = checked b (some (p.branchSetup b).restoreDelay) p := by
  rw [restoreExpiry_answers hrestore hstate hdelay hbusy hconverted, answerCheck_restarts (by simp) (by simpa using hstate)
    (by simpa using h), answered_checking, startRestoreTimer_checked hdelay]

theorem restoreExpiry_restores (hclass : p.sense.classes.get b = .terminated) (hverdict : (p.switch b).verdict ≠ .echo) :
    restoreExpiry b p = beginRestore b (checked b none p) := by
  rw [restoreExpiry_answers hrestore hstate hdelay hbusy hconverted, answerCheck_restores (by simp) (by simpa using hstate)
    hclass (by simpa using hverdict), answered_checking]

end

/-! ## The indicator (R142) -/

theorem flashToggle_steady (h : (p.switch b).state = .inService ∨ (p.switch b).state = .disabled) :
    flashToggle b p = p := by
  have hsame : flashToggle b p = { p with switches := put p.switches b (p.switch b) } := by
    rcases h with h | h <;> simp only [flashToggle, modSwitch, h, SwitchState.lamp]
  rw [hsame]
  exact congrArg (fun x => { p with switches := x }) (put_get_self p.switches b)

theorem flashToggle_flashing (h : (p.switch b).state ≠ .inService) (h' : (p.switch b).state ≠ .disabled) :
    flashToggle b p = { p with switches := put p.switches b { p.switch b with lamp := !(p.switch b).lamp } } := by
  cases hstate : (p.switch b).state <;> first
    | exact absurd hstate h
    | exact absurd hstate h'
    | simp only [flashToggle, modSwitch, hstate, SwitchState.lamp]

end

end Part

/-- Settles O47: the pre-check by the state of the sequencer, and the lamp by the state of the switch. -/
theorem switchTimersAct : Obligations.SwitchTimersAct := by
  refine ⟨fun s b hheld => ?_, fun s b hheld => ?_⟩
  · intro w q
    have hexec : ∀ {r}, Part.restoreExpiry b s.part = r → exec (.restoreTimerExpiry b) s = .next (s.withPart r) :=
      onPart_awake_eq hheld
    refine ⟨fun hrestore hstate => ⟨fun h => hexec (Part.restoreExpiry_stops hrestore hstate h), fun h hquiet => ?_,
      fun h hbusy hconverted => ?_, fun h hbusy hconverted => ⟨fun hno => ?_, fun hclass hverdict hrflt => ?_⟩⟩,
      fun h => hexec (Part.restoreExpiry_off h)⟩
    · rw [hexec ((Part.restoreExpiry_asks hrestore hstate h).trans (Part.askCheck_holds (.inl ?_)))]
      · rcases hquiet with hq | hq <;>
          simp [Part.modSwitch, Part.modSense, put_put, Part.switch, q, show s.part.sense.state = _ from hq] <;> rfl
      · rcases hquiet with hq | hq <;> simp [show s.part.sense.state = _ from hq]
    · rw [hexec ((Part.restoreExpiry_asks hrestore hstate h).trans (Part.askCheck_holds (.inr hconverted)))]
      simp [Part.modSwitch, Part.modSense, put_put, Part.switch, q, show s.part.sense.state = _ from hbusy]
      rfl
    · exact hexec (Part.restoreExpiry_restarts hrestore hstate h hbusy hconverted hno)
    · have hbegins := Part.restoreExpiry_restores hrestore hstate h hbusy hconverted hclass hverdict
      have ha : (Part.checked b none s.part).switch b = { w with restore := none, check := false } := get_put_self ..
      have hsetup : (Part.checked b none s.part).branchSetup b = s.part.branchSetup b := rfl
      generalize Part.checked b none s.part = a at *
      have hhigh : (a.switch b).rflt = false := by rw [ha]; exact hrflt
      have hswitch := Part.beginRestore_switch hhigh
      have hsense := Part.beginRestore_sense hhigh (by rw [ha]; exact hstate)
      rw [ha, hsetup] at hswitch
      refine ⟨_, hexec hbegins, congrArg Switch.state hswitch, congrArg Switch.rline hswitch,
        congrArg Switch.relay hswitch, (congrArg Switch.restore hswitch).trans ?_, (congrArg Switch.check hswitch).trans ?_,
        (congrArg (fun q : Sense => q.checks.get b) hsense).trans (get_put_self ..)⟩
      · simp [Part.toLine, Switch.entering]
      · simp [Part.toLine, Switch.entering]
  · exact ⟨fun h => onPart_awake_eq hheld (Part.flashToggle_steady h),
      fun h h' => onPart_awake_eq hheld (Part.flashToggle_flashing h h')⟩

end Sys2Proof.Machine
end

section
/-! PROOF. The relay faults (O46). -/

namespace Sys2Proof.Machine

theorem each_cons {α : Type} (x : α) (l : List α) (f : α → Part → Part) (p : Part) :
    each (x :: l) f p = each l f (f x p) := rfl

theorem each_append {α : Type} (l m : List α) (f : α → Part → Part) (p : Part) :
    each (l ++ m) f p = each m f (each l f p) := List.foldl_append

namespace Part

section

variable {p : Part} {b : Branch}

/-! ## Several errors scored (R119) -/

theorem scoreError_kinds (r : ErrorReport) (k : Fin 8) (p : Part) : ((scoreError b r p).sup b).kinds.get k =
    if k = r.kind.number then satInc 65535 ((p.sup b).kinds.get k) else (p.sup b).kinds.get k := by
  obtain ⟨w, hw⟩ := scoreError_sup b r p
  rw [hw]
  show (put (p.sup b).kinds r.kind.number _).get k = _
  rw [get_put]
  split
  · next h => rw [h]
  · rfl

/-- Scoring latches notices and clears none. -/
theorem scoreError_latches (r : ErrorReport) (p : Part) :
    ∃ x, (scoreError b r p).notices.latches = p.notices.latches ||| x := by
  have hwarn : ∀ q : Part, ∃ x, (warnTest b q).notices.latches = q.notices.latches ||| x := by
    intro q
    unfold warnTest
    extract_lets u
    split
    · exact ⟨Notice.warn.bit, by simp⟩
    · split
      · exact ⟨0, by simp⟩
      · exact ⟨0, by simp⟩
  have hcapture : ∀ q : Part, (captureError b r q).notices = q.notices := by
    intro q
    unfold captureError
    extract_lets c
    split
    · split
      · split <;> rfl
      · rfl
    · rfl
  obtain ⟨x, hx⟩ := hwarn (modSup b (fun s => { s with clean := false })
    (addWeight b r.kind (captureError b r (countError b r.kind p))))
  exact ⟨x, hx.trans (by simp [addWeight, hcapture, countError])⟩

theorem scoreAll_latches (l : List ErrorReport) (p : Part) :
    ∃ x, (scoreAll b l p).notices.latches = p.notices.latches ||| x := by
  induction l generalizing p with
  | nil => exact ⟨0, by simp [scoreAll, each]⟩
  | cons r l ih =>
    obtain ⟨x, hx⟩ := scoreError_latches (b := b) r p
    obtain ⟨y, hy⟩ := ih (scoreError b r p)
    exact ⟨x ||| y, hy.trans (by rw [hx, BitVec.or_assoc])⟩

/-- A kind that no report of a list has keeps its counter. -/
theorem scoreAll_kinds_other {k : Fin 8} (l : List ErrorReport) (p : Part) (h : ∀ r ∈ l, k ≠ r.kind.number) :
    ((scoreAll b l p).sup b).kinds.get k = (p.sup b).kinds.get k := by
  induction l generalizing p with
  | nil => rfl
  | cons r l ih =>
    have hr : k ≠ r.kind.number := h r (by simp)
    have hl := ih (scoreError b r p) fun x hx => h x (List.mem_cons_of_mem _ hx)
    exact hl.trans (by rw [scoreError_kinds, if_neg hr])

/-! ## The stop of a fault (R147 steps 1 to 4) -/

/-- A switch whose drives a fault has released. -/
def faulted (w : Switch) : Switch := { w with rline := false, rprobe := false, relay := .at .open }

theorem faultStop_switch (b : Branch) (p : Part) : (faultStop b p).switch b = faulted (p.switch b) := by
  unfold faultStop
  extract_lets p1 p2 p3
  have hp1 : p1.switch b = faulted (p.switch b) := by simp [p1, releaseDrives, faulted]
  have hp2 : p2.switch b = p1.switch b := by
    unfold p2
    split <;> simp [discardGate]
  have hp3 : p3.switch b = p2.switch b := by
    unfold p3
    split <;> simp
  simp [hp3, hp2, hp1]

theorem faultStop_sense (b : Branch) (p : Part) : (faultStop b p).sense = p.sense := by
  unfold faultStop
  extract_lets p1 p2 p3
  have hp2 : p2.sense = p.sense := by
    unfold p2
    split <;> simp [discardGate, p1, releaseDrives]
  have hp3 : p3.sense = p2.sense := by
    unfold p3
    split <;> simp
  simp [hp3, hp2]

theorem faultStop_kinds (b : Branch) (p : Part) : ((faultStop b p).sup b).kinds = (p.sup b).kinds := by
  unfold faultStop
  extract_lets p1 p2 p3
  have hp1 : p1.sup b = p.sup b := by simp [p1, releaseDrives]
  have hp2 : (p2.sup b).kinds = (p1.sup b).kinds := by
    unfold p2
    split <;> simp [discardGate]
  have hp3 : p3.sup b = p2.sup b := by
    unfold p3
    split <;> simp
  simp [hp3, hp2, hp1]

theorem faultStop_engine (b : Branch) (p : Part) : ((faultStop b p).engine b).state = .stopped
    ∧ ((p.engine b).state ≠ .stopped → ∃ n,
      (faultStop b p).engine b = { (p.engine b).halted with queue := [], relayDropped := n }) := by
  unfold faultStop
  extract_lets p1 p2 p3
  have hp2 : p2.engine b = p.engine b := by
    unfold p2
    split <;> simp [discardGate, p1, releaseDrives]
  by_cases h : (p2.engine b).state = .stopped
  · have hp3 : p3 = p2 := if_pos h
    have hflush := (Engine.unqueued_inj (completeWhere_unqueued b .isolated (fun _ => true) p2)).2
    rw [hp3]
    refine ⟨?_, fun hne => absurd (hp2 ▸ h) hne⟩
    simpa [switchFlush, flushQueue, hflush] using h
  · have hp3 : p3 = haltEngine b p2 := if_neg h
    have hengine : p3.engine b = (p.engine b).halted := by rw [hp3, haltEngine_engine, hp2]
    obtain ⟨n, hn⟩ := switchFlush_engine (p := p3) (b := b) (by rw [hengine]; rfl)
    rw [hengine] at hn
    have habandoned : (abandonProbe b (switchFlush b p3)).engine b = (switchFlush b p3).engine b := by simp
    rw [habandoned, hn]
    exact ⟨rfl, fun _ => ⟨n, rfl⟩⟩

/-! ## A fault outside a disable (R147) -/

/-- A switch as a fault locks its branch out. -/
def lockedByFault (w : Switch) : Switch :=
  { faulted w with reason := some .relayFault, verdict := .none, dest := none, restore := none, back := none, byHost := false }

/-- The part before the errors of a fault are scored. -/
def faultLocked (b : Branch) (p : Part) : Part :=
  setSwitch b .lockedOut (modSwitch b (fun w =>
    { w with reason := some .relayFault, verdict := .none, dest := none, restore := none, back := none
             byHost := false }) (faultStop b p))

theorem faultLock_eq (b : Branch) (p : Part) : faultLock b p =
    scoreAll b (p.faultErrors b) (notify .isolated (notify .relayFault (faultLocked b p))) := rfl

theorem faultLock_switch (b : Branch) (p : Part) :
    (faultLock b p).switch b = (lockedByFault (p.switch b)).entering .lockedOut := by
  have hlocked : (faultLocked b p).switch b = (lockedByFault (p.switch b)).entering .lockedOut := by
    rw [faultLocked, setSwitch_switch, switch_modSwitch_self, faultStop_switch]
    rfl
  rw [faultLock_eq]
  simpa using hlocked

theorem faultLock_sense (h : (p.switch b).state ≠ .isolated) : (faultLock b p).sense = p.sense := by
  have hstate : ((modSwitch b (fun w => { w with reason := some .relayFault, verdict := .none, dest := none, restore := none
                                                 back := none, byHost := false }) (faultStop b p)).switch b).state
      ≠ .isolated := by
    rw [switch_modSwitch_self, faultStop_switch]
    exact h
  have hlocked : (faultLocked b p).sense = p.sense := by
    rw [faultLocked, setSwitch_sense .lockedOut hstate]
    simp only [modSwitch_keeps, faultStop_sense]
  rw [faultLock_eq]
  simpa using hlocked

theorem faultLock_engine (b : Branch) (p : Part) : (faultLock b p).engine b = (faultStop b p).engine b := by
  rw [faultLock_eq]
  simp [faultLocked]

theorem faultLock_latches (b : Branch) (p : Part) : (faultLock b p).notices.latches &&& 0x0003 = 0x0003 := by
  obtain ⟨x, hx⟩ := scoreAll_latches (b := b) (p.faultErrors b) (notify .isolated (notify .relayFault (faultLocked b p)))
  rw [faultLock_eq, hx]
  have hlatches : (notify .isolated (notify .relayFault (faultLocked b p))).notices.latches
      = (faultLocked b p).notices.latches ||| Notice.relayFault.bit ||| Notice.isolated.bit := by simp
  rw [hlatches]
  generalize (faultLocked b p).notices.latches = y
  refine BitVec.eq_of_getLsbD_eq fun i hi => ?_
  by_cases hlow : i < 2
  · match i, hlow with
    | 0, _ | 1, _ => simp [Notice.bit, Notice.number]
  · have hhigh : (3 : BitVec 16).getLsbD i = false :=
      Nat.testBit_lt_two_pow (Nat.lt_of_lt_of_le (by decide : 3 < 2 ^ 2) (Nat.pow_le_pow_right (by decide) (by omega)))
    rw [BitVec.getLsbD_and, hhigh, Bool.and_false]

/-- The fault is counted once, whatever stray run its stop has ended. -/
theorem faultLock_kinds (b : Branch) (p : Part) :
    ((faultLock b p).sup b).kinds.get 7 = satInc 65535 ((p.sup b).kinds.get 7) := by
  have hlocked : ((notify .isolated (notify .relayFault (faultLocked b p))).sup b).kinds = (p.sup b).kinds := by
    simpa [faultLocked] using faultStop_kinds b p
  rw [faultLock_eq]
  generalize notify .isolated (notify .relayFault (faultLocked b p)) = q at *
  have hstray : ((scoreAll b (p.endedStray b) q).sup b).kinds.get 7 = (q.sup b).kinds.get 7 := by
    refine scoreAll_kinds_other _ q fun r hr => ?_
    unfold endedStray at hr
    split at hr
    · rw [List.mem_singleton.mp hr]
      exact (by decide : (7 : Fin 8) ≠ 4)
    · exact nomatch hr
  rw [faultErrors, scoreAll, each_append, each_cons]
  show ((scoreError b _ (scoreAll b (p.endedStray b) q)).sup b).kinds.get 7 = _
  rw [scoreError_kinds, hstray, hlocked]
  rfl

theorem takeFault_locks (h : (p.switch b).dest ≠ some .disabled) : takeFault b p = faultLock b p := if_neg h

end

end Part

/-- Settles O46: the fault by the drives, and what its lock makes of the switch, the engine and the supervisor. -/
theorem relayFaultsLockTheBranchOut : Obligations.RelayFaultsLockTheBranchOut := by
  intro s b w
  have hexec : ∀ low, exec (.relayFault b low) s = .next (s.withPart (Part.relayFault b low s.part)) := fun _ => rfl
  refine ⟨fun hdrive hdest => ?_, fun hline hprobe => ?_, ?_⟩
  · let q : Part := Part.modSwitch b (fun w => { w with rflt := true }) s.part
    have hq : q.switch b = { w with rflt := true } := Part.switch_modSwitch_self ..
    have hfault : Part.relayFault b true s.part = Part.faultLock b q :=
      (if_pos (by simpa using hdrive)).trans (Part.takeFault_locks (by rw [hq]; exact hdest))
    have hsup : q.sup b = s.part.sup b := rfl
    have hengine : q.engine b = s.part.engine b := rfl
    have hkinds := Part.faultLock_kinds b q
    have hnext := (hexec true).trans (by rw [hfault])
    clear_value q
    rw [hsup] at hkinds
    have hswitch := Part.faultLock_switch b q
    rw [hq] at hswitch
    obtain ⟨hstopped, hhalted⟩ := Part.faultStop_engine b q
    rw [hengine] at hhalted
    refine ⟨_, hnext, congrArg Switch.state hswitch, congrArg Switch.dest hswitch,
      congrArg Switch.rline hswitch, congrArg Switch.rprobe hswitch, congrArg Switch.relay hswitch,
      congrArg Switch.reason hswitch, congrArg Switch.verdict hswitch, (congrArg Switch.restore hswitch).trans ?_,
      (congrArg Switch.isolations hswitch :), ?_, fun hrun => ?_, Part.faultLock_latches b q, hkinds, rfl⟩
    · simp [Switch.entering, Part.lockedByFault]
    · rw [State.withPart_part, Part.faultLock_engine]
      exact hstopped
    · obtain ⟨n, hn⟩ := hhalted hrun
      rw [State.withPart_part, Part.faultLock_engine, hn]
      exact ⟨rfl, rfl, rfl⟩
  · have hquiet : Part.relayFault b true s.part = Part.modSwitch b (fun w => { w with rflt := true }) s.part :=
      if_neg (by simp [show (s.part.switch b).rline = _ from hline, show (s.part.switch b).rprobe = _ from hprobe])
    rw [hexec, hquiet]
    rfl
  · have hhigh : Part.relayFault b false s.part = Part.modSwitch b (fun w => { w with rflt := false }) s.part :=
by
      simp [Part.relayFault]
    rw [hexec, hhigh]
    rfl

end Sys2Proof.Machine
end

section
/-! PROOF. The passes of the sense sequencer (O44). -/

namespace Sys2Proof.Machine

theorem RelayPos.skipped_iff (r : RelayPos) : r.skipped = true ↔ r = .at .probe ∨ ∃ x ms, r = .moving x ms := by
  obtain t | ⟨t, ms⟩ := r
  · cases t <;> simp [RelayPos.skipped]
  · simp [RelayPos.skipped]

theorem RelayPos.isMoving_iff (r : RelayPos) : r.isMoving = true ↔ ∃ x ms, r = .moving x ms := by
  cases r <;> simp [RelayPos.isMoving]

theorem mem_branches (b : Branch) : b ∈ branches := by
  revert b; decide

theorem branches_sorted : branches.Pairwise (· < ·) := by decide

namespace Part

section

variable {p : Part} {b : Branch}

/-! ## What an isolation leaves of the switch and of the sequencer (R144, R145) -/

/-- A switch that drains keeps what the isolation asked for. -/
theorem stopReported_switch (b : Branch) (p : Part) : (stopReported b p).switch b = p.switch b
    ∨ (p.switch b).state = .draining ∧ (stopReported b p).switch b =
      { (p.switch b).entering .opening with
        rline := false, rprobe := false, relay := .moving .open (p.branchSetup b).settleMs } := by
  by_cases h : (p.switch b).state = .draining
  · rw [stopReported_draining h]
    exact .inr ⟨h, by simp⟩
  · exact .inl (by rw [stopReported_other h])

theorem stopReported_sense (b : Branch) (p : Part) : (stopReported b p).sense = p.sense := by
  by_cases h : (p.switch b).state = .draining
  · rw [stopReported_draining h]
    have hsense := setSwitch_sense (p := switchFlush b p) (b := b) .opening (by simp [h])
    exact Eq.trans (by simp [moveOpen, releaseDrives]) (hsense.trans (by simp))
  · rw [stopReported_other h]

/-- The part as a stop reports itself: its switch and the sequencer are those that asked. -/
theorem stopRequest_cases (b : Branch) (p : Part) : ∃ q : Part, q.switch b = p.switch b ∧ q.sense = p.sense
    ∧ q.branchSetup b = p.branchSetup b ∧ (stopRequest b p = q ∨ stopRequest b p = stopReported b q) := by
  by_cases hstopped : (p.engine b).state = .stopped
  · exact ⟨p, rfl, rfl, rfl, .inr (stopRequest_stopped hstopped)⟩
  by_cases hstopping : (p.engine b).state = .stopping
  · exact ⟨p, rfl, rfl, rfl, .inl (stopRequest_stopping hstopping)⟩
  have hrun := EngineState.running_of_ne hstopped hstopping
  by_cases hexchange : (p.engine b).phase.inExchange = true
  · exact ⟨_, by simp, by simp, by simp, .inl (stopRequest_exchange hrun hexchange)⟩
  by_cases hlisten : (p.engine b).phase = .listen
  · exact ⟨_, by simp [closeGate], by simp [closeGate], by simp [closeGate], .inr (stopRequest_listen hrun hlisten)⟩
  · exact ⟨_, by simp, by simp, by simp, .inr (stopRequest_between hrun (by simpa using hexchange) hlisten)⟩

theorem stopRequest_sense (b : Branch) (p : Part) : (stopRequest b p).sense = p.sense := by
  obtain ⟨q, _, hsense, _, h | h⟩ := stopRequest_cases b p
  · rw [h, hsense]
  · rw [h, stopReported_sense, hsense]

/-- What a switch was asked for stands through the stop of its engine. -/
theorem stopRequest_asked (b : Branch) (p : Part) :
    ((stopRequest b p).switch b).reason = (p.switch b).reason ∧ ((stopRequest b p).switch b).dest = (p.switch b).dest
      ∧ ((p.switch b).state = .draining →
        ((stopRequest b p).switch b).state = .draining ∨ ((stopRequest b p).switch b).state = .opening) := by
  obtain ⟨q, hswitch, _, _, h | h⟩ := stopRequest_cases b p
  · rw [h, hswitch]
    exact ⟨rfl, rfl, .inl⟩
  · rw [h, ← hswitch]
    rcases stopReported_switch b q with hq | ⟨_, hq⟩
    · rw [hq]
      exact ⟨rfl, rfl, .inl⟩
    · rw [hq]
      exact ⟨rfl, rfl, fun _ => .inr rfl⟩

theorem requestIsolation_asked {r : IsoReason} {d : Destination} (h : (p.switch b).state.running = true) :
    ((requestIsolation b r d p).switch b).reason = some r ∧ ((requestIsolation b r d p).switch b).dest = some d
      ∧ (((requestIsolation b r d p).switch b).state = .draining ∨ ((requestIsolation b r d p).switch b).state = .opening) := by
  rw [requestIsolation_running h]
  let q : Part := setSwitch b .draining (modSwitch b (isolating r d) p)
  have hq : q.switch b = (isolating r d (p.switch b)).entering .draining := by simp [q]
  obtain ⟨hreason, hdest, hstate⟩ := stopRequest_asked b q
  exact ⟨hreason.trans (by rw [hq]; rfl), hdest.trans (by rw [hq]; rfl), hstate (by rw [hq]; rfl)⟩

theorem requestIsolation_sense (r : IsoReason) (d : Destination) (p : Part) : (requestIsolation b r d p).sense = p.sense := by
  cases h : (p.switch b).state.running
  · rw [requestIsolation_other h]
  · have hstate : ((modSwitch b (isolating r d) p).switch b).state ≠ .isolated := by
      intro hiso
      have hiso' : (p.switch b).state = .isolated := by simpa [isolating] using hiso
      rw [hiso'] at h
      exact nomatch h
    rw [requestIsolation_running h, stopRequest_sense, setSwitch_sense _ hstate]
    rfl

theorem handleError_sense (r : ErrorReport) (p : Part) : (handleError b r p).sense = p.sense := by
  rcases isolationTest_cases b r.kind (scoreError b r p) with h | ⟨reason, d, h⟩
  · rw [handleError, h]
    simp
  · rw [handleError, h, requestIsolation_sense]
    simp

/-! ## The branches that a pass reaches (R136) -/

theorem senseReach_skips {l : List Branch} (h : (p.switch b).relay.skipped = true) :
    senseReach (b :: l) p = senseReach l p := if_pos h

theorem senseReach_takes {l : List Branch} (h : (p.switch b).relay.skipped = false) :
    senseReach (b :: l) p = modSense (fun q => { q with current := some b }) p := if_neg (by simp [h])

/-- The first branch of a list that is not skipped is the next to be converted. -/
theorem senseReach_first {c : Branch} : ∀ {l : List Branch}, l.Pairwise (· < ·) → c ∈ l →
    (p.switch c).relay.skipped = false → (∀ d ∈ l, d < c → (p.switch d).relay.skipped = true) →
    senseReach l p = modSense (fun q => { q with current := some c }) p := by
  intro l
  induction l with
  | nil => exact fun _ h => nomatch h
  | cons x r ih =>
    intro hl hc hfree hbefore
    obtain ⟨hx, hr⟩ := List.pairwise_cons.mp hl
    cases hskip : (p.switch x).relay.skipped
    · rcases List.mem_cons.mp hc with rfl | hcr
      · exact senseReach_takes hskip
      · rw [hbefore x (by simp) (hx c hcr)] at hskip
        exact nomatch hskip
    · rw [senseReach_skips hskip]
      rcases List.mem_cons.mp hc with rfl | hcr
      · rw [hfree] at hskip
        exact nomatch hskip
      · exact ih hr hcr hfree fun d hd => hbefore d (List.mem_cons_of_mem _ hd)

/-- The sequencer as a pass ends. -/
def passEnded (q : Sense) : Sense :=
  { q with current := none, state := if q.checks.toList.any (fun c => c) then .pending else .idle }

theorem senseReach_none {l : List Branch} (h : ∀ d ∈ l, (p.switch d).relay.skipped = true) :
    senseReach l p = modSense passEnded p := by
  induction l with
  | nil => rfl
  | cons x r ih =>
    rw [senseReach_skips (h x (by simp))]
    exact ih fun d hd => h d (List.mem_cons_of_mem _ hd)

/-- Whatever the pass reaches, of the sequencer only its position and its state change. -/
theorem senseReach_eq (l : List Branch) (p : Part) :
    ∃ c st, senseReach l p = modSense (fun q => { q with current := c, state := st }) p := by
  induction l with
  | nil => exact ⟨none, _, rfl⟩
  | cons x r ih =>
    cases hskip : (p.switch x).relay.skipped
    · exact ⟨some x, p.sense.state, senseReach_takes hskip⟩
    · rw [senseReach_skips hskip]
      exact ih

theorem anyCheck_iff (t : Vector Bool 4) : t.toList.any (fun c => c) = true ↔ ∃ c : Branch, t.get c = true := by
  simp only [List.any_eq_true, Vector.mem_toList_iff, Vector.mem_iff_getElem]
  constructor
  · rintro ⟨x, ⟨i, hi, rfl⟩, hx⟩
    exact ⟨⟨i, hi⟩, hx⟩
  · rintro ⟨c, hc⟩
    exact ⟨_, ⟨c.val, c.isLt, rfl⟩, hc⟩

/-! ## A restore that begins, whatever the fault input (R141, R147, R150) -/

theorem beginRestore_eq (b : Branch) (p : Part) : beginRestore b p =
    let q := modSwitch b (toLine (p.branchSetup b).settleMs)
      (setSwitch b .closing (modSwitch b (fun w => { w with closingFor := .restore }) p))
    if (q.switch b).rflt then faultLock b q else q := by
  unfold beginRestore assertLine
  simp
  rfl

/-- A restore discards the check of its branch, even where a fault cuts it off. -/
theorem beginRestore_discards (hstate : (p.switch b).state = .isolated) :
    (beginRestore b p).sense = { p.sense with checks := put p.sense.checks b false }
      ∧ ((beginRestore b p).switch b).check = false := by
  rw [beginRestore_eq]
  extract_lets q
  have hq : q.switch b = toLine (p.branchSetup b).settleMs
      (({ p.switch b with closingFor := .restore } : Switch).entering .closing) := by simp [q]
  have hsense : q.sense = { p.sense with checks := put p.sense.checks b false } :=
    setSwitch_checks (p := modSwitch b (fun w => { w with closingFor := .restore }) p) .closing (by simpa using hstate)
      (by decide)
  have hclosing : (q.switch b).state ≠ .isolated := by simp [hq, toLine, Switch.entering]
  have hcheck : (q.switch b).check = false := by simp [hq, toLine, Switch.entering, hstate]
  split
  · rw [faultLock_sense hclosing, faultLock_switch, hsense]
    exact ⟨rfl, by simp [Switch.entering, hclosing, lockedByFault, faulted, hcheck]⟩
  · exact ⟨hsense, hcheck⟩

/-! ## The start of a pass and a conversion (R136 to R138) -/

theorem sensePassStart_begins (hstate : p.sense.state = .pending) (h : ∀ b : Branch, ∃ x, (p.switch b).relay = .at x) :
    sensePassStart p =
      senseReach branches (modSense (fun q => { q with state := .busy, converted := Vector.replicate 4 false }) p) := by
  refine if_pos ⟨hstate, fun hmoving => ?_⟩
  obtain ⟨b, _, hb⟩ := List.any_eq_true.mp hmoving
  obtain ⟨x, hx⟩ := h b
  rw [hx] at hb
  exact nomatch hb

/-- The sequencer as a conversion gives a branch its code and class. -/
def convertedTo (b : Branch) (code : Byte) (cls : LoopClass) (running : Bool) (q : Sense) : Sense :=
  { q with codes := put q.codes b code, classes := put q.classes b cls, converted := put q.converted b true
           firstRun := if running then put q.firstRun b false else q.firstRun }

/-- The branches after `b`, in order. -/
def after (b : Branch) : List Branch := branches.filter fun x => b < x

theorem after_sorted (b : Branch) : (after b).Pairwise (· < ·) := branches_sorted.filter _

theorem mem_after {b c : Branch} : c ∈ after b ↔ b < c := by
  simp [after, mem_branches]

section

variable {code : Byte} (hstate : p.sense.state = .busy) (hcurrent : p.sense.current = some b)

include hstate hcurrent

theorem conversionDone_eq : conversionDone code p =
    let cls := loopClassOf p.setup.shortLimit p.setup.openLimit code
    let p1 := modSense (convertedTo b code cls (p.switch b).state.running) p
    let p2 := if (p.sense.classes.get b = .terminated ∨ p.sense.firstRun.get b) ∧ cls ≠ .terminated
        ∧ (p.switch b).state.running then handleError b (p.loopReport b code) p1 else p1
    senseReach (after b) (if p2.sense.checks.get b then answerCheck b cls p2 else p2) := by
  simp only [conversionDone, hstate, hcurrent]
  rfl

/-- At a branch that does not run a conversion is no error. -/
theorem conversionDone_idle (hrun : (p.switch b).state.running = false) : conversionDone code p =
    let cls := loopClassOf p.setup.shortLimit p.setup.openLimit code
    let p1 := modSense (convertedTo b code cls false) p
    senseReach (after b) (if p.sense.checks.get b then answerCheck b cls p1 else p1) := by
  rw [conversionDone_eq hstate hcurrent, hrun]
  simp
  rfl

theorem conversionDone_loopChange (hrun : (p.switch b).state.running = true)
    (hold : p.sense.classes.get b = .terminated ∨ p.sense.firstRun.get b = true) (hcheck : p.sense.checks.get b = false)
    (hcls : loopClassOf p.setup.shortLimit p.setup.openLimit code ≠ .terminated) : conversionDone code p =
      senseReach (after b) (handleError b (p.loopReport b code) (modSense
        (convertedTo b code (loopClassOf p.setup.shortLimit p.setup.openLimit code) true) p)) := by
  have hsense : (handleError b (p.loopReport b code) (modSense
      (convertedTo b code (loopClassOf p.setup.shortLimit p.setup.openLimit code) true) p)).sense.checks.get b = false := by
    rw [handleError_sense]
    exact hcheck
  rw [conversionDone_eq hstate hcurrent, hrun]
  simp only [hold, hcls, ne_eq, not_false_eq_true, and_self, if_true, hsense, Bool.false_eq_true, if_false]

end

end

end Part

/-- Settles O44: the branch a pass reaches, and what a conversion does by the state of its branch. -/
theorem sensePassConvertsTheBranches : Obligations.SensePassConvertsTheBranches := by
  intro s hheld q ended skipped
  have hskipped : ∀ c, skipped c ↔ (s.part.switch c).relay.skipped = true := fun c =>
    (RelayPos.skipped_iff _).symm
  have hended : ∀ q' : Sense, q'.checks = q.checks →
      (if q'.checks.toList.any (fun c => c) then SenseState.pending else .idle) = ended := by
    intro q' h
    simp only [ended, h, Part.anyCheck_iff]
  have hstart : ∀ {r}, Part.sensePassStart s.part = r → exec .sensePassStart s = .next (s.withPart r) :=
    onPart_awake_eq hheld
  refine ⟨fun hstate hrest => ?_, fun hstate hmoves => hstart (if_neg ?_), fun hstate => hstart (if_neg ?_),
    fun b code hstate hcurrent => ?_⟩
  · refine ⟨fun c hc hbefore => ?_, fun hall => ?_⟩
    · rw [hstart ((Part.sensePassStart_begins hstate hrest).trans (Part.senseReach_first branches_sorted (mem_branches c)
        (by simpa [hskipped] using hc) fun d _ hd => (hskipped d).mp (hbefore d hd)))]
      rfl
    · rw [hstart ((Part.sensePassStart_begins hstate hrest).trans (Part.senseReach_none fun d _ => (hskipped d).mp (hall d)))]
      rw [← hended q rfl]
      rfl
  · obtain ⟨b, x, ms, hb⟩ := hmoves
    exact fun h => h.2 (List.any_eq_true.mpr ⟨b, mem_branches b, (RelayPos.isMoving_iff _).mpr ⟨x, ms, hb⟩⟩)
  · exact fun h => hstate h.1
  intro cls
  have hdone : ∀ {r}, Part.conversionDone code s.part = r → exec (.senseConversionComplete code) s = .next (s.withPart r) :=
    onPart_awake_eq hheld
  have hidle : (s.part.switch b).state.running = false →
      Part.conversionDone code s.part = Part.senseReach (Part.after b)
        (if q.checks.get b then Part.answerCheck b cls (Part.modSense (Part.convertedTo b code cls false) s.part)
          else Part.modSense (Part.convertedTo b code cls false) s.part) := Part.conversionDone_idle hstate hcurrent
  refine ⟨fun hswitch hcheck => ?disabled, fun hswitch hout hcheck => ?isolated,
    fun hswitch hcls hold hcheck hphase hstray => ?running⟩
  case disabled =>
    have hconverted := hidle (by rw [hswitch]; rfl)
    rw [if_neg (by simp [hcheck])] at hconverted
    obtain ⟨c, st, hreach⟩ := Part.senseReach_eq (Part.after b) (Part.modSense (Part.convertedTo b code cls false) s.part)
    refine ⟨_, hdone (hconverted.trans hreach), rfl, rfl, rfl, rfl, rfl, fun hall => ?_, fun c' hc hfree hbefore => ?_⟩
    · have hend := hreach.symm.trans (Part.senseReach_none fun d hd => (hskipped d).mp (hall d (Part.mem_after.mp hd)))
      rw [hend]
      exact ⟨rfl, hended _ rfl⟩
    · have hnext := hreach.symm.trans (Part.senseReach_first (Part.after_sorted b) (Part.mem_after.mpr hc)
        (by simpa [hskipped] using hfree) fun d hd hlt => (hskipped d).mp (hbefore d (Part.mem_after.mp hd) hlt))
      rw [hnext]
      exact ⟨rfl, hstate⟩
  case isolated =>
    have hconverted := hidle (by rw [hswitch]; rfl)
    rw [if_pos hcheck] at hconverted
    let p : Part := Part.modSense (Part.convertedTo b code cls false) s.part
    obtain ⟨c, st, hreach⟩ := Part.senseReach_eq (Part.after b) (Part.answerCheck b cls p)
    have hp : p.switch b = s.part.switch b := rfl
    have ha : (Part.answered b p).switch b = { s.part.switch b with check := false } := by
      rw [← hp]
      exact Part.switch_modSwitch_self ..
    have hsense : (Part.answered b p).sense = { Part.convertedTo b code cls false q with checks := put q.checks b false } :=
      rfl
    have hsetup : (Part.answered b p).branchSetup b = s.part.branchSetup b := rfl
    have hnext := hdone (hconverted.trans hreach)
    by_cases hrestores : cls = .terminated ∧ (s.part.switch b).verdict ≠ .echo
    · obtain ⟨hcls, hverdict⟩ := hrestores
      have hanswer : Part.answerCheck b cls p = Part.beginRestore b (Part.answered b p) :=
        Part.answerCheck_restores (p := p) hout hswitch hcls hverdict
      rw [hanswer] at hnext
      clear hreach hanswer
      generalize Part.answered b p = a at *
      have hisolated : (a.switch b).state = .isolated := by rw [ha]; exact hswitch
      obtain ⟨hdiscarded, hchecked⟩ := Part.beginRestore_discards hisolated
      rw [hsense] at hdiscarded
      have hline := fun hhigh => Part.beginRestore_switch (p := a) (b := b) hhigh
      rw [ha, hsetup] at hline
      generalize Part.beginRestore b a = t at *
      refine ⟨_, hnext, congrArg Sense.codes hdiscarded, congrArg Sense.classes hdiscarded, ?_, hchecked,
        fun _ _ hhigh => ?_, fun h => ?_⟩
      · exact (congrArg Sense.checks hdiscarded).trans (put_put ..)
      · have hrestore : (t.switch b).restore = none := by
          rw [hline hhigh]
          simp [Part.toLine, Switch.entering, hswitch]
        exact ⟨congrArg Switch.state (hline hhigh), congrArg Switch.rline (hline hhigh),
          congrArg Switch.relay (hline hhigh), hrestore⟩
      · exact (h.elim (fun hne => hne hcls) hverdict).elim
    · have hno : cls ≠ .terminated ∨ (s.part.switch b).verdict = .echo := by
        by_cases hc : cls = .terminated
        · exact .inr (Decidable.byContradiction fun hv => hrestores ⟨hc, hv⟩)
        · exact .inl hc
      have hanswer : Part.answerCheck b cls p = Part.startRestoreTimer b (Part.answered b p) :=
        Part.answerCheck_restarts (p := p) hout hswitch hno
      rw [hanswer] at hnext
      clear hreach hanswer
      generalize Part.answered b p = a at *
      have htimer : (Part.startRestoreTimer b a).switch b = { s.part.switch b with
          check := false
          restore := if (s.part.branchSetup b).restoreDelay = 0 then none else some (s.part.branchSetup b).restoreDelay } := by
        simp [Part.startRestoreTimer, ha, hsetup]
      have hkept : (Part.startRestoreTimer b a).sense = _ := hsense
      generalize Part.startRestoreTimer b a = t at *
      refine ⟨_, hnext, congrArg Sense.codes hkept, congrArg Sense.classes hkept, congrArg Sense.checks hkept,
        congrArg Switch.check htimer, fun h1 h2 => absurd ⟨h1, h2⟩ hrestores, fun _ =>
        ⟨(congrArg Switch.state htimer).trans hswitch, congrArg Switch.restore htimer⟩⟩
  case running =>
    have hrun : (s.part.switch b).state.running = true := by rw [hswitch]; rfl
    have hconverted := Part.conversionDone_loopChange hstate hcurrent hrun hold hcheck hcls
    let p : Part := Part.modSense (Part.convertedTo b code cls true) s.part
    let r : ErrorReport := s.part.loopReport b code
    obtain ⟨c, st, hreach⟩ := Part.senseReach_eq (Part.after b) (Part.handleError b r p)
    have hnext := hdone (hconverted.trans hreach)
    have hsense : (Part.handleError b r p).sense = Part.convertedTo b code cls true q := Part.handleError_sense r p
    obtain ⟨w, hw⟩ := Part.handleError_sup (p := p) (b := b) r hphase hstray
    have hscored : (Part.scoreError b r p).switch b = s.part.switch b := by simp [p]
    have hset : (Part.scoreError b r p).branchSetup b = s.part.branchSetup b := by simp [p]
    have hkinds : ((Part.handleError b r p).sup b).kinds.get 6 = satInc 65535 ((s.part.sup b).kinds.get 6) := by
      rw [hw]
      exact get_put_self ..
    have hisolates : (s.part.branchSetup b).immediateMask.getLsbD 6 = true →
        ((Part.handleError b r p).switch b).reason = some .immediate
          ∧ ((Part.handleError b r p).switch b).dest = some .isolated := fun hmask => by
      have hscoredRun : ((Part.scoreError b r p).switch b).state.running = true := by rw [hscored]; exact hrun
      have hasked : Part.handleError b r p = Part.requestIsolation b .immediate .isolated (Part.scoreError b r p) :=
        Part.isolationTest_immediate hscoredRun (by rw [hset]; exact hmask)
      obtain ⟨hreason, hdest, _⟩ := Part.requestIsolation_asked (r := .immediate) (d := .isolated) hscoredRun
      rw [hasked]
      exact ⟨hreason, hdest⟩
    generalize Part.handleError b r p = t at *
    exact ⟨_, hnext, congrArg Sense.codes hsense, congrArg Sense.classes hsense,
      (congrArg (fun q : Sense => q.firstRun.get b) hsense).trans (get_put_self ..), hkinds, hisolates⟩

end Sys2Proof.Machine
end

section
/-! PROOF. The attention button (O48). -/

namespace Sys2Proof.Machine

namespace Part

/-- From `p` to `q` no latch has gone off. -/
def KeepsLatches (p q : Part) : Prop := ∃ x, q.notices.latches = p.notices.latches ||| x

namespace KeepsLatches

variable {o p : Part} {b : Branch}

theorem refl (p : Part) : KeepsLatches p p := ⟨0, by simp⟩

/-- What leaves the notices keeps the latches. -/
theorem same {q : Part} (h : KeepsLatches o p) (e : q.notices = p.notices) : KeepsLatches o q := by
  obtain ⟨x, hx⟩ := h
  exact ⟨x, by rw [e, hx]⟩

theorem notify (n : Notice) (h : KeepsLatches o p) : KeepsLatches o (Part.notify n p) := by
  obtain ⟨x, hx⟩ := h
  exact ⟨x ||| n.bit, by simp [hx, BitVec.or_assoc]⟩

theorem scoreAll (l : List ErrorReport) (h : KeepsLatches o p) : KeepsLatches o (Part.scoreAll b l p) := by
  obtain ⟨x, hx⟩ := h
  obtain ⟨y, hy⟩ := scoreAll_latches (b := b) l p
  exact ⟨x ||| y, by rw [hy, hx, BitVec.or_assoc]⟩

theorem setSwitch (new : SwitchState) (h : KeepsLatches o p) : KeepsLatches o (Part.setSwitch b new p) :=
  h.same (by rw [setSwitch_eq])

theorem stopReported (h : KeepsLatches o p) : KeepsLatches o (Part.stopReported b p) := by
  by_cases hstate : (p.switch b).state = .draining
  · rw [stopReported_draining hstate]
    refine same (setSwitch (b := b) .opening (h.same (q := switchFlush b p) (by simp))) ?_
    simp [moveOpen, releaseDrives]
  · rw [stopReported_other hstate]
    exact h

theorem enterStopped (h : KeepsLatches o p) : KeepsLatches o (Part.enterStopped b p) :=
  scoreAll _ (h.same (by simp))

theorem stopRequest (h : KeepsLatches o p) : KeepsLatches o (Part.stopRequest b p) := by
  by_cases hstopped : (p.engine b).state = .stopped
  · rw [stopRequest_stopped hstopped]
    exact h.stopReported
  by_cases hstopping : (p.engine b).state = .stopping
  · rwa [stopRequest_stopping hstopping]
  have hrun := EngineState.running_of_ne hstopped hstopping
  by_cases hexchange : (p.engine b).phase.inExchange = true
  · rw [stopRequest_exchange hrun hexchange]
    exact h.same rfl
  by_cases hlisten : (p.engine b).phase = .listen
  · rw [stopRequest_listen hrun hlisten]
    exact (scoreAll _ (h.same (q := closeGate b p) rfl)).enterStopped.stopReported
  · rw [stopRequest_between hrun (by simpa using hexchange) hlisten]
    exact h.enterStopped.stopReported

theorem requestIsolation (r : IsoReason) (d : Destination) (h : KeepsLatches o p) :
    KeepsLatches o (Part.requestIsolation b r d p) := by
  cases hrun : (p.switch b).state.running
  · rwa [requestIsolation_other hrun]
  · rw [requestIsolation_running hrun]
    exact (setSwitch .draining (h.same (q := modSwitch b (isolating r d) p) rfl)).stopRequest

theorem faultStop (h : KeepsLatches o p) : KeepsLatches o (Part.faultStop b p) := by
  unfold Part.faultStop
  extract_lets p1 p2 p3
  have hp2 : p2.notices = p.notices := by
    unfold p2
    split <;> simp [discardGate, p1, releaseDrives]
  have hp3 : p3.notices = p2.notices := by
    unfold p3
    split <;> simp
  exact h.same (by simp [hp3, hp2])

theorem faultLock (h : KeepsLatches o p) : KeepsLatches o (Part.faultLock b p) := by
  have hstop : KeepsLatches o (Part.faultStop b p) := h.faultStop
  have hlocked : KeepsLatches o (faultLocked b p) := setSwitch .lockedOut (hstop.same (by simp only [modSwitch_keeps]))
  exact (hlocked.notify .relayFault).notify .isolated |>.scoreAll (p.faultErrors b)

theorem takeRestore (h : KeepsLatches o p) : KeepsLatches o (Part.takeRestore b p) := by
  have hclosing : KeepsLatches o (Part.setSwitch b .closing (modSwitch b (fun w => { w with closingFor := .restore })
      (modSwitch b (fun w => { w with isolations := 0, verdict := .none }) p))) := setSwitch _ (h.same rfl)
  unfold Part.takeRestore beginRestore assertLine
  extract_lets q
  split
  · exact faultLock (hclosing.same rfl)
  · exact hclosing.same rfl

theorem pressBranch (h : KeepsLatches o p) : KeepsLatches o (Part.pressBranch b p) := by
  unfold Part.pressBranch
  split
  · exact h.requestIsolation ..
  · exact h.requestIsolation ..
  · exact h.takeRestore
  · exact h.takeRestore
  · exact h

theorem each {α : Type} (l : List α) (f : α → Part → Part) (hf : ∀ x {p}, KeepsLatches o p → KeepsLatches o (f x p))
    (h : KeepsLatches o p) : KeepsLatches o (Machine.each l f p) :=
  each_keeps_prop (KeepsLatches o) l f (fun x _ hp => hf x hp) p h

end KeepsLatches

section

variable {p : Part} {b : Branch}

/-! ## The press of a branch (R152) -/

theorem pressBranch_running (h : (p.switch b).state.running = true) :
    pressBranch b p = requestIsolation b .button .lockedOut p := by
  cases hstate : (p.switch b).state <;> simp [hstate, SwitchState.running] at h <;> simp only [pressBranch, hstate]

theorem pressBranch_restores (h : (p.switch b).state = .isolated ∨ (p.switch b).state = .lockedOut) :
    pressBranch b p = takeRestore b p := by
  rcases h with h | h <;> simp only [pressBranch, h]

theorem pressBranch_passes (h : (p.switch b).state = .disabled ∨ (p.switch b).state = .closing
    ∨ (p.switch b).state = .draining ∨ (p.switch b).state = .opening ∨ (p.switch b).state = .probing) :
    pressBranch b p = p := by
  rcases h with h | h | h | h | h <;> simp only [pressBranch, h]

/-- Each switch is acted on once, as it stood before the press. -/
theorem pressBranches_switch {l : List Branch} (hl : l.Nodup) (hb : b ∈ l) (p : Part) :
    ∃ q : Part, q.switch b = p.switch b ∧ (each l pressBranch p).switch b = (pressBranch b q).switch b := by
  have hkept : ∀ (l : List Branch) (p : Part), b ∉ l → (each l pressBranch p).switch b = p.switch b := fun l => by
    induction l with
    | nil => exact fun _ _ => rfl
    | cons c r ih =>
      intro p hr
      obtain ⟨hc, hr⟩ := not_or.mp (fun h => hr (List.mem_cons.mpr h))
      rw [each_cons, ih _ hr, ((Confined.refl c p).pressBranch).switch b hc]
  induction l generalizing p with
  | nil => exact nomatch hb
  | cons c r ih =>
    obtain ⟨hc, hr⟩ := List.nodup_cons.mp hl
    by_cases h : b = c
    · subst h
      exact ⟨p, rfl, by rw [each_cons, hkept r _ hc]⟩
    · obtain ⟨q, hq, hpress⟩ := ih hr ((List.mem_cons.mp hb).resolve_left h) (pressBranch c p)
      exact ⟨q, hq.trans (((Confined.refl c p).pressBranch).switch b h), hpress⟩

theorem takeRestore_switch (h : (p.switch b).rflt = false) : (takeRestore b p).switch b =
    toLine (p.branchSetup b).settleMs ((restoring (p.switch b)).entering .closing) := by
  rw [takeRestore_high h]
  simp [toLine]

end

end Part

/-- Settles O48: the press acts on each switch as it stood, branch after branch. -/
theorem buttonActsOnEverySwitch : Obligations.ButtonActsOnEverySwitch := by
  refine ⟨fun s hheld harmed => ?_, fun s hheld hoff => onPart_awake_eq hheld (if_neg (by simp [hoff])), fun s => rfl⟩
  let p : Part := Part.notify .button { s.part with button := false }
  have hpress : Part.buttonPress s.part = each branches Part.pressBranch p := if_pos harmed
  refine ⟨_, onPart_awake_eq hheld hpress, ?_, rfl, ?_, fun b => ?_⟩
  · exact (each_keeps_view (fun q => q.button) branches _ (fun c q => by
      unfold Part.pressBranch
      split <;> simp) p).trans rfl
  · obtain ⟨x, hx⟩ := Part.KeepsLatches.each branches Part.pressBranch (fun _ {_} h => h.pressBranch) (.refl p)
    rw [State.withPart_part, hx]
    simp [p, Notice.bit, Notice.number]
  · obtain ⟨q, hq, hswitch⟩ := Part.pressBranches_switch (b := b) (l := branches) (by decide) (mem_branches b) p
    have hqs : q.switch b = s.part.switch b := hq
    rw [State.withPart_part, hswitch]
    refine ⟨fun h => ?_, fun h hhigh => ?_, fun h => ?_⟩
    · rw [Part.pressBranch_passes (by rw [hqs]; exact h), hqs]
    · rw [Part.pressBranch_restores (by rw [hqs]; exact h), Part.takeRestore_switch (by rw [hqs]; exact hhigh), hqs]
      exact ⟨rfl, rfl, rfl⟩
    · have hrun : (q.switch b).state.running = true := by
        rw [hqs]
        rcases h with h | h <;> rw [h] <;> rfl
      rw [Part.pressBranch_running hrun]
      exact Part.requestIsolation_asked hrun

end Sys2Proof.Machine
end

section
/-! PROOF. The course of a probe (O49). -/

namespace Sys2Proof.Machine

/-! ## Crossings (R155) -/

section

variable {u : ProbeUnit} {l : List Echo} {t : Nat} {rise : EchoRise}

theorem ProbeUnit.crossing_closed (h : u.window = none) : u.crossing t rise = u := by
  simp only [crossing, h]

theorem ProbeUnit.crossing_blank (h : u.window = some l) (hblank : t < u.values.blank) : u.crossing t rise = u := by
  simp only [crossing, h, hblank, if_true]

/-- A crossing later than those before it is recorded, or is one too many. -/
theorem ProbeUnit.crossing_later (h : u.window = some l) (hblank : u.values.blank ≤ t)
    (hlater : ∀ x, u.lastTick = some x → x < t) : u.crossing t rise =
      if l.length < 4 then
        { u with window := some (l ++ [{ positive := risePositive rise, tick := t }]), lastTick := some t }
      else { u with overflow := true, lastTick := some t } := by
  have hnew : u.lastTick ≠ some t := fun hlast => Nat.lt_irrefl t (hlater t hlast)
  have hafter : u.lastTick.any (fun x => decide (t < x)) = false := by
    cases hlast : u.lastTick with
    | none => rfl
    | some x => simpa using Nat.le_of_lt (hlater x hlast)
  simp only [crossing, h, Nat.not_lt.mpr hblank, hnew, hafter, if_false, Bool.false_eq_true]

theorem risePositive_eq (rise : EchoRise) : risePositive rise = decide (rise ≠ .negative) := by
  cases rise <;> rfl

end

namespace Part

section

variable {p : Part} {b : Branch} {r : List Branch}

/-! ## The steps of a probe (R154, R155) -/

/-- The unit as it takes a branch with the values in force. -/
def armed (x : BranchSetup) (u : ProbeUnit) : ProbeUnit :=
  { u with state := .arming, lists := [], window := none, lastTick := none, overflow := false, pulses := 0, ppulse := false
           values := { count := x.probeCount, blank := x.blankTicks, zero := x.zeroOffset, k := x.k
                       expected := x.expectedLength, tolerance := x.tolerance } }

theorem probeStart_takes (hstate : p.probe.state = .idle) (hqueue : p.probe.queue = b :: r)
    (hhigh : (p.switch b).rflt = false) : probeStart p = { p with
      probe := armed (p.branchSetup b) p.probe
      switches := put p.switches b { p.switch b with
        rline := false, rprobe := true, relay := .moving .probe (p.branchSetup b).settleMs } } := by
  simp only [probeStart, hstate, hqueue]
  exact if_neg (by simp [hhigh])

theorem probeStart_off (h : p.probe.state ≠ .idle ∨ p.probe.queue = []) : probeStart p = p := by
  unfold probeStart
  split
  · simp_all
  · rfl

theorem probePulse_rises (hstate : p.probe.state = .pulsing) (hwindow : p.probe.window = none)
    (h : p.probe.pulses < p.probe.values.count) : probePulse p = { p with probe := { p.probe with
      pulses := p.probe.pulses + 1, ppulse := true, window := some [], lastTick := none } } := by
  have hpulse : p.probe.pulse = { p.probe with
      pulses := p.probe.pulses + 1, ppulse := true, window := some [], lastTick := none } := by
    rw [ProbeUnit.pulse, ← hstate]
  have hrises : (if p.probe.state = .pulsing ∧ p.probe.window = none ∧ p.probe.pulses < p.probe.values.count
      then p.probe.pulse else p.probe) = p.probe.pulse := if_pos ⟨hstate, hwindow, h⟩
  rw [← hpulse]
  exact congrArg (fun u => { p with probe := u }) hrises

theorem windowEnd_goesOn {l : List Echo} (hwindow : p.probe.window = some l) (hqueue : p.probe.queue = b :: r)
    (hpulse : p.probe.ppulse = false) (h : p.probe.pulses < p.probe.values.count) : windowEnd p =
      { p with probe := { p.probe with lists := p.probe.lists ++ [l], window := none, lastTick := none } } := by
  simp [windowEnd, modProbe, hwindow, hqueue, hpulse, Nat.not_le.mpr h]

theorem windowEnd_last {l : List Echo} (hwindow : p.probe.window = some l) (hqueue : p.probe.queue = b :: r)
    (hpulse : p.probe.ppulse = false) (h : p.probe.values.count ≤ p.probe.pulses) : windowEnd p = moveOpen b
      { p with probe :=
        { p.probe with lists := p.probe.lists ++ [l], window := none, lastTick := none, state := .releasing } } := by
  simp [windowEnd, modProbe, hwindow, hqueue, hpulse, h]

theorem moveOpen_eq (b : Branch) (p : Part) : moveOpen b p = { p with switches := put p.switches b { p.switch b with
    rline := false, rprobe := false, relay := .moving .open (p.branchSetup b).settleMs } } := by
  simp only [moveOpen, releaseDrives, modSwitch, put_put, switch, get_put_self]

end

end Part

/-- Settles O49: each event of a probe by its guard. -/
theorem probesRunTheirCourse : Obligations.ProbesRunTheirCourse := by
  refine ⟨fun s hheld => ?_, fun s tick rise l hheld => ?_⟩
  · intro u
    refine ⟨fun b r hstate hqueue hhigh => ?_, fun h => onPart_awake_eq hheld (Part.probeStart_off h),
      fun hstate hwindow h => onPart_awake_eq hheld (Part.probePulse_rises hstate hwindow h),
      onPart_awake_eq hheld rfl, fun l b r hwindow hqueue hpulse => ⟨fun h =>
        onPart_awake_eq hheld (Part.windowEnd_goesOn hwindow hqueue hpulse h), fun h => ?_⟩⟩
    · exact ⟨_, onPart_awake_eq hheld (Part.probeStart_takes hstate hqueue hhigh), rfl, rfl, rfl, rfl, rfl, rfl, rfl, rfl,
        rfl, rfl, rfl, rfl⟩
    · exact onPart_awake_eq hheld ((Part.windowEnd_last hwindow hqueue hpulse h).trans (Part.moveOpen_eq ..))
  · intro u c
    have hexec : ∀ {v}, u.crossing tick.toNat rise = v → exec c s = .next (s.withPart { s.part with probe := v }) := by
      rintro v rfl
      exact onPart_awake_eq hheld rfl
    refine ⟨fun h => hexec (ProbeUnit.crossing_closed h), fun h hblank => hexec (ProbeUnit.crossing_blank h hblank),
      fun h hblank hlater => ⟨fun hfew => hexec ?_, fun hmany => hexec ?_⟩⟩
    · rw [ProbeUnit.crossing_later h hblank hlater, if_pos hfew, risePositive_eq]
    · rw [ProbeUnit.crossing_later h hblank hlater, if_neg (Nat.not_lt.mpr hmany)]

end Sys2Proof.Machine
end

section
/-! PROOF. The result of a probe and the record at its end (O51). -/

namespace Sys2Proof.Machine

/-- Two lists of echoes agree in a slot: the polarity, and the ticks within 2 (R156). -/
def Echo.near (e first : Echo) : Prop :=
  e.positive = first.positive ∧ e.tick ≤ first.tick + 2 ∧ first.tick ≤ e.tick + 2

theorem echoesAgree_iff (first l : List Echo) : echoesAgree first l = true ↔
    l.length = first.length ∧ ∀ (i : Nat) (h : i < l.length) (h' : i < first.length), (l[i]).near first[i] := by
  simp only [echoesAgree, Bool.and_eq_true, decide_eq_true_eq, List.all_eq_true, beq_iff_eq, Echo.near, and_assoc]
  refine and_congr_right fun hlen => ⟨fun h i hi hi' => ?_, fun h e he => ?_⟩
  · have hz : (l.zip first)[i]'(by rw [List.length_zip]; exact Nat.lt_min.mpr ⟨hi, hi'⟩) = (l[i], first[i]) := List.getElem_zip
    have hmem : (l[i], first[i]) ∈ l.zip first := hz ▸ List.getElem_mem _
    exact h _ hmem
  · obtain ⟨i, hi, rfl⟩ := List.mem_iff_getElem.mp he
    obtain ⟨hl, hfirst⟩ := Nat.lt_min.mp (List.length_zip ▸ hi)
    simpa using h i hl hfirst

/-- The tick of a slot, 0 past the end. -/
def tickAt (l : List Echo) (i : Nat) : Nat := ((l[i]?).map fun e => e.tick).getD 0

/-- The polarity of a slot. -/
def positiveAt (l : List Echo) (i : Nat) : Option Bool := (l[i]?).map fun e => e.positive

theorem probeStable_iff (first : List Echo) (rest : List (List Echo)) : probeStable (first :: rest) = true ↔
    ∀ l ∈ rest, l.length = first.length ∧ ∀ i : Nat, i < first.length →
      positiveAt l i = positiveAt first i ∧ tickAt l i ≤ tickAt first i + 2 ∧ tickAt first i ≤ tickAt l i + 2 := by
  simp only [probeStable, List.all_eq_true, echoesAgree_iff]
  refine forall₂_congr fun l _ => and_congr_right fun hlen => ⟨fun h i hi => ?_, fun h i hi hi' => ?_⟩
  · have hi' : i < l.length := by rw [hlen]; exact hi
    simpa [positiveAt, tickAt, hi, hi', Echo.near] using h i hi' hi
  · simpa [positiveAt, tickAt, hi, hi', Echo.near] using h i hi'

theorem echoList_stable {first : List Echo} {rest : List (List Echo)} (h : probeStable (first :: rest) = true) :
    echoList (first :: rest) = first.mapIdx fun i e => { e with tick := averageTick (first :: rest) i } := by
  simp only [echoList, h, if_true]

theorem echoList_unstable {first : List Echo} {rest : List (List Echo)} (h : probeStable (first :: rest) = false) :
    echoList (first :: rest) = first := by
  simp only [echoList, h, Bool.false_eq_true, if_false]

/-- The result of one list of echoes: it agrees with itself, and each average is its own tick. -/
theorem echoList_single (l : List Echo) : probeStable [l] = true ∧ echoList [l] = l := by
  have hstable : probeStable [l] = true := rfl
  refine ⟨hstable, (echoList_stable hstable).trans (List.ext_getElem (by simp) fun i h h' => ?_)⟩
  simp [averageTick, h']

theorem echoList_silent {lists : List (List Echo)} (h : ∀ l ∈ lists, l = []) :
    probeStable lists = true ∧ echoList lists = [] := by
  cases lists with
  | nil => exact ⟨rfl, rfl⟩
  | cons first rest =>
    obtain rfl := h first (by simp)
    have hstable : probeStable ([] :: rest) = true := (probeStable_iff [] rest).mpr fun l hl => by
      rw [h l (List.mem_cons_of_mem _ hl)]
      simp
    exact ⟨hstable, by rw [echoList_stable hstable]; rfl⟩

namespace Part

section

variable {p : Part} {b : Branch}

/-! ## The end of a movement to OPEN and of a probe (R141, R154) -/

theorem relaySettle_open {ms : Nat} (h : (p.switch b).relay = .moving .open ms) :
    relaySettle b p = openReached b (modSwitch b (fun w => { w with relay := .at .open }) p) := by
  simp only [relaySettle, h, reduceCtorEq, decide_false, Bool.false_and, Bool.false_eq_true, if_false]

theorem openReached_probing (h : (p.switch b).state = .probing) : openReached b p = probeDone b p := by
  simp only [openReached, h]

/-- The result of the probe of a branch as it stands. -/
def result (b : Branch) (p : Part) : ProbeRecord := probeResult p.probe (p.switch b).byHost (p.engine b).round

/-- The part with the record of a probe, before its switch goes back. -/
def recorded (b : Branch) (p : Part) : Part :=
  modSwitch b (fun w => { w with back := none }) (modSwitch b (fun w => { w with verdict := (result b p).verdict })
    (writeProbe b { p with records := put p.records b (result b p)
                           probe := { ProbeUnit.blank with queue := p.probe.queue.tail } }))

theorem probeDone_eq (h : (p.switch b).dest ≠ some .disabled) : probeDone b p =
    if (p.switch b).back = some .lockedOut then setSwitch b .lockedOut (recorded b p)
    else startRestoreTimer b (setSwitch b .isolated (recorded b p)) := by
  unfold probeDone
  extract_lets r src p1 p2 w
  have hw : w = { p.switch b with verdict := r.verdict } := switch_modSwitch_self ..
  rw [if_neg (by rw [hw]; exact h), hw]
  rfl

theorem recorded_switch (b : Branch) (p : Part) :
    (recorded b p).switch b = { p.switch b with verdict := (result b p).verdict, back := none } := by
  simp only [recorded, switch_modSwitch_self]
  rfl

/-- What the end of a probe makes of the part, whichever state the switch goes back to. -/
theorem probeDone_outcome (h : (p.switch b).dest ≠ some .disabled) :
    (probeDone b p).probe = { ProbeUnit.blank with queue := p.probe.queue.tail }
      ∧ (probeDone b p).records.get b = result b p
      ∧ (probeDone b p).writer.queue = enqueueWrite (recordWrite (.probe b) 0x0020) p.writer.queue
      ∧ ((probeDone b p).switch b).relay = (p.switch b).relay ∧ ((probeDone b p).switch b).back = none
      ∧ ((probeDone b p).switch b).verdict = (result b p).verdict
      ∧ ((p.switch b).back = some .lockedOut → ((probeDone b p).switch b).state = .lockedOut)
      ∧ ((p.switch b).back = some .isolated → ((probeDone b p).switch b).state = .isolated
        ∧ ((probeDone b p).switch b).restore = if (p.branchSetup b).restoreDelay = 0 then none
            else some (p.branchSetup b).restoreDelay) := by
  have hrecorded : (recorded b p).probe = { ProbeUnit.blank with queue := p.probe.queue.tail }
      ∧ (recorded b p).records.get b = result b p
      ∧ (recorded b p).writer.queue = enqueueWrite (recordWrite (.probe b) 0x0020) p.writer.queue
      ∧ (recorded b p).branchSetup b = p.branchSetup b := ⟨rfl, get_put_self .., rfl, rfl⟩
  have hswitch := recorded_switch b p
  rw [probeDone_eq h]
  generalize recorded b p = q at *
  obtain ⟨hprobe, hrecords, hwriter, hsetup⟩ := hrecorded
  split
  · next hback =>
    refine ⟨?_, ?_, ?_, ?_, ?_, ?_, fun _ => ?_, fun hno => ?_⟩
    all_goals simp [setSwitch_switch, hswitch, Switch.entering, hprobe, hrecords, hwriter]
    rw [hback] at hno
    exact nomatch hno
  · next hback =>
    refine ⟨?_, ?_, ?_, ?_, ?_, ?_, fun hno => absurd hno hback, fun _ => ⟨?_, ?_⟩⟩
    all_goals simp [startRestoreTimer, setSwitch_switch, hswitch, Switch.entering, hprobe, hrecords, hwriter, hsetup]

end

end Part

/-- Settles O51: the lists agree slot by slot, and the record is the result of the unit's lists. -/
theorem probeEndsWithItsRecord : Obligations.ProbeEndsWithItsRecord := by
  refine ⟨fun first rest => ?_, fun s b ms r hheld => ?_⟩
  · intro lists tick positive agree
    have hagree : probeStable lists = true ↔ agree := probeStable_iff first rest
    refine ⟨hagree, fun h => ?_, fun h => echoList_unstable (by simpa using mt hagree.mp h)⟩
    have hlist := echoList_stable (hagree.mpr h)
    refine ⟨by rw [hlist]; simp, fun i e he => ?_⟩
    intro average
    rw [hlist, List.getElem?_mapIdx, he]
    rfl
  · intro w u x hrelay hstate hdest hqueue settled
    let q : Part := Part.modSwitch b (fun w => { w with relay := .at .open }) s.part
    have hq : q.switch b = { w with relay := .at .open } := Part.switch_modSwitch_self ..
    have hnext : exec (.relaySettle b) s = .next (s.withPart (Part.probeDone b q)) :=
      onPart_awake_eq hheld ((Part.relaySettle_open hrelay).trans (Part.openReached_probing (by rw [hq]; exact hstate)))
    have hresult : Part.result b q = probeResult u w.byHost (s.part.engine b).round := by
      rw [Part.result, hq]
      rfl
    obtain ⟨hprobe, hrecord, hwriter, hopen, hback, hverdict, hlocked, hisolated⟩ :=
      Part.probeDone_outcome (p := q) (b := b) (by rw [hq]; exact hdest)
    rw [hq] at hopen hlocked hisolated
    have hqprobe : q.probe = u := rfl
    have hqwriter : q.writer = s.part.writer := rfl
    have hqsetup : q.branchSetup b = x := rfl
    rw [hresult] at hverdict hrecord
    rw [hqprobe, hqueue] at hprobe
    rw [hqwriter] at hwriter
    rw [hqsetup] at hisolated
    generalize Part.probeDone b q = t at *
    have hsettled : settled (s.withPart t) := ⟨hnext, congrArg ProbeUnit.state hprobe, congrArg ProbeUnit.queue hprobe,
      hopen, hback, hlocked, hisolated, hwriter, s.withPart_mem t⟩
    have hvalid : (t.records.get b).valid = true := by rw [hrecord]; rfl
    refine ⟨fun hsilent => ?_, fun tick hlists => ?_, fun first rest hlists hstable => ?_, fun tick hlists => ?_⟩
    · obtain ⟨hstable, hlist⟩ := echoList_silent hsilent
      refine ⟨_, hsettled, hverdict.trans ?_, hvalid, ?_⟩
      · simp [probeResult, hstable, hlist, classify, ProbeRecord.verdict]
      · rw [State.withPart_part, hrecord]
        simp [probeResult, hstable, hlist, classify]
    · obtain ⟨hstable, hlist⟩ := echoList_single [{ positive := false, tick := tick }]
      refine ⟨_, hsettled, hverdict.trans ?_, hvalid, ?_⟩
      · simp [probeResult, hlists, hlist, classify, ProbeRecord.verdict]
      · rw [State.withPart_part, hrecord]
        simp [probeResult, hlists, hstable, hlist, classify]
    · have hunstable : probeStable (first :: rest) = false := hlists ▸ hstable
      refine ⟨_, hsettled, hverdict.trans ?_, hvalid, ?_⟩
      · simp [probeResult, hlists, hunstable, ProbeRecord.verdict]
      · rw [State.withPart_part, hrecord]
        simp [probeResult, hlists, hunstable, echoList_unstable hunstable]
    · intro d
      obtain ⟨_, hlist⟩ := echoList_single [{ positive := true, tick := tick }]
      have hfirst : (echoList u.lists).map (fun e => (e, echoDistance u.values.k u.values.zero e.tick))
          = [({ positive := true, tick := tick }, d)] := by rw [hlists, hlist]; rfl
      have hclass : (probeResult u w.byHost (s.part.engine b).round).cls =
          if d + 10 * u.values.tolerance < 10 * u.values.expected then .openAt
          else if d ≤ 10 * u.values.expected + 10 * u.values.tolerance then .endUnterminated else .long := by
        simp only [probeResult, hfirst, classify, Bool.not_true, Bool.false_eq_true, if_false]
        split
        · rfl
        · split <;> rfl
      refine ⟨_, hsettled, hverdict.trans (if_neg ?_), hvalid, ?_, fun h => ?_, fun h h' => ?_, fun h => ?_⟩
      · rw [hclass]
        split
        · simp
        · split <;> simp
      · rw [State.withPart_part, hrecord]
        simp only [probeResult, hfirst, classify, Bool.not_true, Bool.false_eq_true, if_false]
        split
        · rfl
        · split <;> rfl
      · rw [State.withPart_part, hrecord, hclass, if_pos h]
      · rw [State.withPart_part, hrecord, hclass, if_neg (Nat.not_lt.mpr h), if_pos h']
      · rw [State.withPart_part, hrecord, hclass, if_neg (by omega), if_neg (Nat.not_le.mpr h)]

end Sys2Proof.Machine
end

section
/-! PROOF. The course of a trunk engine from exchange to exchange: what each part of a round does, and what a course
leaves of the branch (R5, R9 to R14). -/

namespace Sys2Proof.Machine

/-- An engine as an exchange begins (R5). -/
def Engine.commence (x : BranchSetup) (kind : ExchKind) (n : StationNo) (entry : Option BufNo) (seq : Bool)
    (sent : List (Byte × Bool)) (rd : Option TxRead) (g : Engine) : Engine :=
  { g with phase := .transmit, spoke := true, sent := sent, txRead := rd, arriving := none, strayRun := none
           exch := some { kind := kind, station := n, entry := entry, replyWindow := x.replyWindow, gapLimit := x.gapLimit
                          deglitch := x.deglitch, void := false, endCode := none, seq := seq, reply := Reply.blank } }

/-- An engine as it polls a station. -/
def Engine.polling (x : BranchSetup) (kind : ExchKind) (n : StationNo) : Engine → Engine :=
  Engine.commence x kind n none false [ctlChar .poll n] none

/-- An engine as it sends an entry of its queue. -/
def Engine.sending (x : BranchSetup) (kind : ExchKind) (e : TxEntry) (seq : Bool) : Engine → Engine :=
  Engine.commence x kind e.target (some e.buf) seq [ctlChar .send e.target]
    (some { buf := e.buf, ctl := ctlByte seq e.first e.last, got := [] })

/-- An engine as the initial sweep polls a number. -/
def Engine.discovering (x : BranchSetup) (n : StationNo) (g : Engine) : Engine :=
  Engine.polling x .sweep n { g with initNext := n.val + 1 }

/-- An engine as a listen slot begins. -/
def Engine.listening (ms : Nat) (g : Engine) : Engine :=
  { g with phase := .listen, spoke := true, strayRun := none, listen := some ms }

/-! ## The numbers in order (R13) -/

theorem mem_stationNumbers {n : StationNo} : n ∈ stationNumbers ↔ n ≠ 0 ∧ n ≠ 63 := by
  simp [stationNumbers]

theorem stationNumbers_sorted : stationNumbers.Pairwise (· < ·) :=
  (List.pairwise_lt_finRange 64).filter _

/-- The first of a sorted list with a property is the least. -/
theorem find?_least {l : List StationNo} {P : StationNo → Bool} {m n : StationNo} (hl : l.Pairwise (· < ·))
    (h : l.find? P = some m) (hn : n ∈ l) (hP : P n = true) : m ≤ n := by
  obtain ⟨_, as, bs, rfl, has⟩ := List.find?_eq_some_iff_append.mp h
  rcases List.mem_append.mp hn with hmem | hmem
  · exact absurd hP (by simpa using has n hmem)
  · rcases List.mem_cons.mp hmem with rfl | hlater
    · exact Fin.le_refl _
    · exact Fin.le_of_lt ((List.pairwise_cons.mp (List.pairwise_append.mp hl).2.1).1 n hlater)

namespace Part

section

variable {p : Part} {b : Branch}

/-! ## The engine alone -/

theorem modEngine_modEngine (b : Branch) (f g : Engine → Engine) (p : Part) :
    modEngine b f (modEngine b g p) = modEngine b (f ∘ g) p := by
  simp only [modEngine, put_put, engine, get_put_self, Function.comp]

/-- The events of a run that no error ends leave the part but for the engine. -/
theorem handleAll_nil (b : Branch) (p : Part) : handleAll b [] p = p := rfl

theorem beginExchange_quiet {kind : ExchKind} {n : StationNo} {entry : Option BufNo} {seq : Bool}
    {sent : List (Byte × Bool)} {rd : Option TxRead} (h : (p.engine b).strayRun = none) :
    beginExchange b kind n entry seq sent rd p =
      modEngine b (Engine.commence (p.branchSetup b) kind n entry seq sent rd) p := by
  unfold beginExchange
  extract_lets bs stray
  rw [show stray = [] from endedStray_none h]
  rfl

/-! ## The reservation (R20) -/

theorem reserve_held (h : (p.engine b).reservation.isSome = true) : p.reserve b = some p := if_pos h

theorem reserve_takes {buf : BufNo} {rest : List BufNo} (h : (p.engine b).reservation = none)
    (hfree : p.pool.free = buf :: rest) :
    p.reserve b = some (modEngine b (fun g => { g with reservation := some buf }) p.takeHead) := by
  simp only [reserve, h, Option.isSome_none, Bool.false_eq_true, if_false, allocate_cons hfree]

theorem reserve_none (h : (p.engine b).reservation = none) (hfree : p.pool.free = []) : p.reserve b = none := by
  simp only [reserve, h, Option.isSome_none, Bool.false_eq_true, if_false, allocate_nil hfree]

/-! ## The beginning of an exchange (R15 to R19) -/

theorem beginPoll_held {kind : ExchKind} {n : StationNo} (h : (p.engine b).reservation.isSome = true)
    (hstray : (p.engine b).strayRun = none) :
    beginPoll b kind n p = some (modEngine b (Engine.polling (p.branchSetup b) kind n) p) := by
  rw [beginPoll, reserve_held h, Option.map_some, beginExchange_quiet hstray]
  rfl

theorem beginPoll_takes {kind : ExchKind} {n : StationNo} {buf : BufNo} {rest : List BufNo}
    (h : (p.engine b).reservation = none) (hfree : p.pool.free = buf :: rest) (hstray : (p.engine b).strayRun = none) :
    beginPoll b kind n p = some (modEngine b
      (Engine.polling (p.branchSetup b) kind n ∘ fun g => { g with reservation := some buf }) p.takeHead) := by
  rw [beginPoll, reserve_takes h hfree, Option.map_some, beginExchange_quiet (by simpa using hstray), modEngine_modEngine]
  simp [Engine.polling]

theorem beginPoll_none {kind : ExchKind} {n : StationNo} (h : (p.engine b).reservation = none)
    (hfree : p.pool.free = []) : beginPoll b kind n p = none := by
  rw [beginPoll, reserve_none h hfree, Option.map_none]

theorem beginSend_station {e : TxEntry} (htarget : e.target ≠ 63) (hstray : (p.engine b).strayRun = none) :
    beginSend b e p =
      modEngine b (Engine.sending (p.branchSetup b) .send e (p.station b e.target).txSeq) p := by
  unfold beginSend
  extract_lets seq
  rw [beginExchange_quiet hstray, if_neg htarget]
  rw [show seq = _ from if_neg htarget]
  rfl

theorem beginSend_broadcast {e : TxEntry} (htarget : e.target = 63) (hstray : (p.engine b).strayRun = none) :
    beginSend b e p = modEngine b (Engine.sending (p.branchSetup b) .broadcast e false) p := by
  unfold beginSend
  extract_lets seq
  rw [beginExchange_quiet hstray, if_pos htarget]
  rw [show seq = _ from if_pos htarget]
  rfl

/-! ## The visits (R11, R15) -/

section

variable {fin : Part → Part} {i : VisitItem} {r : List VisitItem}

/-- An engine as it visits a station. -/
def visit (i : VisitItem) (r : List VisitItem) : Engine → Engine := fun g =>
  { g with order := r, visiting := some i, roundPart := .visits }

theorem oldestFor_visit (i : VisitItem) (r : List VisitItem) (n : StationNo) (p : Part) :
    (modEngine b (visit i r) p).oldestFor b n = (p.engine b).queue.find? fun e => e.target = n := by
  simp [oldestFor, visit]

theorem oldestFor_visit_none (r : List VisitItem) (h : ∀ e ∈ (p.engine b).queue, e.target ≠ i.station) :
    (modEngine b (visit i r) p).oldestFor b i.station = none :=
  (oldestFor_visit ..).trans (List.find?_eq_none.mpr fun e he => by simpa using h e he)

theorem runVisits_sends {e : TxEntry} (hleft : i.left = false)
    (h : (p.engine b).queue.find? (fun e => e.target = i.station) = some e) :
    runVisits b fin (i :: r) p = beginSend b e (modEngine b (visit i r) p) := by
  have holdest := (oldestFor_visit i r i.station p).trans h
  unfold visit at holdest
  rw [runVisits, if_neg (by simp [hleft])]
  simp only [holdest]
  rfl

theorem runVisits_polls {t : Part} (hleft : i.left = false) (h : ∀ e ∈ (p.engine b).queue, e.target ≠ i.station)
    (ht : beginPoll b .poll i.station (modEngine b (visit i r) p) = some t) :
    runVisits b fin (i :: r) p = t := by
  have holdest := oldestFor_visit_none r h
  unfold visit at holdest ht
  rw [runVisits, if_neg (by simp [hleft])]
  simp only [holdest, ht]

theorem runVisits_skips (hleft : i.left = false) (h : ∀ e ∈ (p.engine b).queue, e.target ≠ i.station)
    (ht : beginPoll b .poll i.station (modEngine b (visit i r) p) = none) :
    runVisits b fin (i :: r) p = runVisits b fin r (modEngine b (fun g => { Engine.afterVisit i g with visiting := none })
      (skipPoll b (modEngine b (visit i r) p))) := by
  have holdest := oldestFor_visit_none r h
  unfold visit at holdest ht
  rw [runVisits, if_neg (by simp [hleft])]
  simp only [holdest, ht]
  rfl

theorem runVisits_nil (b : Branch) (fin : Part → Part) (p : Part) :
    runVisits b fin [] p = sweepSlot b fin (modEngine b (fun g => { g with order := [] }) p) := rfl

end

/-! ## The sweep slot (R13) -/

/-- A number that a sweep may poll. -/
def sweepable (b : Branch) (p : Part) (n : StationNo) : Prop := n ≠ 0 ∧ n ≠ 63 ∧ (p.station b n).state = .absent

/-- The numbers that a sweep may poll, in order. -/
def absentNumbers (b : Branch) (p : Part) : List StationNo :=
  stationNumbers.filter fun n => (p.station b n).state = .absent

theorem mem_absentNumbers {n : StationNo} : n ∈ p.absentNumbers b ↔ p.sweepable b n := by
  simp [absentNumbers, mem_stationNumbers, sweepable, and_assoc]

theorem absentNumbers_sorted (b : Branch) (p : Part) : (p.absentNumbers b).Pairwise (· < ·) :=
  stationNumbers_sorted.filter _

theorem nextAbsent_eq (b : Branch) (p : Part) : p.nextAbsent b =
    ((p.absentNumbers b).find? fun n => (p.engine b).sweepCursor < n.val).orElse fun _ => (p.absentNumbers b).head? := by
  show (match (p.absentNumbers b).find? (fun n => (p.engine b).sweepCursor < n.val) with
    | some n => some n
    | none => (p.absentNumbers b).head?) = _
  cases (p.absentNumbers b).find? fun n => decide ((p.engine b).sweepCursor < n.val) <;> rfl

theorem nextAbsent_none (h : ∀ n, ¬ p.sweepable b n) : p.nextAbsent b = none := by
  have hnil : p.absentNumbers b = [] := List.eq_nil_iff_forall_not_mem.mpr fun n hn => h n (mem_absentNumbers.mp hn)
  rw [nextAbsent_eq, hnil]
  rfl

theorem nextAbsent_isSome {n : StationNo} (h : p.sweepable b n) : ∃ m, p.nextAbsent b = some m := by
  rw [nextAbsent_eq]
  cases hfind : (p.absentNumbers b).find? fun n => decide ((p.engine b).sweepCursor < n.val) with
  | some m => exact ⟨m, rfl⟩
  | none =>
    have hmem := mem_absentNumbers.mpr h
    cases hlist : p.absentNumbers b with
    | nil =>
      rw [hlist] at hmem
      exact nomatch hmem
    | cons x r => exact ⟨x, rfl⟩

/-- The distance of a number after the sweep cursor, counted cyclically over 1 to 62. -/
def sweepDistance (cursor : Nat) (n : StationNo) : Nat := (n.val + 61 - cursor) % 62

theorem sweepDistance_after {c : Nat} {n : StationNo} (h : c < n.val) (h63 : n ≠ 63) : sweepDistance c n = n.val - 1 - c := by
  have hn : n.val < 63 := by
    have := n.isLt
    have : n.val ≠ 63 := fun h => h63 (Fin.ext h)
    omega
  unfold sweepDistance
  omega

theorem sweepDistance_before {c : Nat} {n : StationNo} (h : n.val ≤ c) (h0 : n ≠ 0) :
    sweepDistance c n = n.val + 61 - c := by
  have hn : n.val ≠ 0 := fun h => h0 (Fin.ext h)
  unfold sweepDistance
  omega

/-- The next number to be swept is the nearest after the cursor. -/
theorem nextAbsent_nearest {n : StationNo} (hcursor : (p.engine b).sweepCursor ≤ 62) (hn : p.sweepable b n)
    (hnear : ∀ m, p.sweepable b m →
      sweepDistance (p.engine b).sweepCursor n ≤ sweepDistance (p.engine b).sweepCursor m) :
    p.nextAbsent b = some n := by
  rw [nextAbsent_eq]
  have hmem := mem_absentNumbers.mpr hn
  have hsorted := absentNumbers_sorted b p
  obtain ⟨hn0, hn63, _⟩ := hn
  generalize (p.engine b).sweepCursor = c at *
  cases hfind : (p.absentNumbers b).find? fun n => decide (c < n.val) with
  | some m =>
    have hm := mem_absentNumbers.mp (List.mem_of_find?_eq_some hfind)
    have hafter : c < m.val := by simpa using List.find?_some hfind
    obtain ⟨hm0, hm63, _⟩ := id hm
    have hdist := hnear m hm
    rw [sweepDistance_after hafter hm63] at hdist
    by_cases hnc : c < n.val
    · rw [sweepDistance_after hnc hn63] at hdist
      have hle := find?_least hsorted hfind hmem (by simpa using hnc)
      have hval : m.val ≤ n.val := hle
      exact congrArg some (Fin.ext (by omega))
    · rw [sweepDistance_before (Nat.not_lt.mp hnc) hn0] at hdist
      have := m.isLt
      have : m.val ≠ 63 := fun h => hm63 (Fin.ext h)
      have : n.val ≠ 0 := fun h => hn0 (Fin.ext h)
      omega
  | none =>
    have hbefore : ∀ x ∈ p.absentNumbers b, x.val ≤ c := fun x hx => by
      simpa using List.find?_eq_none.mp hfind x hx
    cases hlist : p.absentNumbers b with
    | nil =>
      rw [hlist] at hmem
      exact nomatch hmem
    | cons x r =>
      have hx : x ∈ p.absentNumbers b := by simp [hlist]
      have hxs := mem_absentNumbers.mp hx
      have hdist := hnear x hxs
      obtain ⟨hx0, _, _⟩ := hxs
      rw [sweepDistance_before (hbefore n hmem) hn0, sweepDistance_before (hbefore x hx) hx0] at hdist
      rw [hlist] at hmem hsorted
      have hle : x ≤ n := by
        rcases List.mem_cons.mp hmem with rfl | hlater
        · exact Fin.le_refl _
        · exact Fin.le_of_lt ((List.pairwise_cons.mp hsorted).1 n hlater)
      have hval : x.val ≤ n.val := hle
      have : x.val ≠ 0 := fun h => hx0 (Fin.ext h)
      exact congrArg some (Fin.ext (by omega))

section

variable {fin : Part → Part}

theorem sweepSlot_rests (h : ¬ ((p.engine b).round % (p.branchSetup b).sweepInterval = 0 ∨ (p.engine b).pollList = [])) :
    sweepSlot b fin p = fin p := if_neg h

section

variable (hsweeps : (p.engine b).round % (p.branchSetup b).sweepInterval = 0 ∨ (p.engine b).pollList = [])

include hsweeps

theorem sweepSlot_noNumber (h : p.nextAbsent b = none) : sweepSlot b fin p = listenSlot b fin p := by
  simp only [sweepSlot, hsweeps, if_true, h]

theorem sweepSlot_noBuffer {n : StationNo} (h : p.nextAbsent b = some n) (hreserve : p.reserve b = none) :
    sweepSlot b fin p = listenSlot b fin (skipPoll b p) := by
  simp only [sweepSlot, hsweeps, if_true, h, hreserve]

theorem sweepSlot_polls {n : StationNo} (h : p.nextAbsent b = some n) (hreserved : (p.engine b).reservation.isSome = true)
    (hstray : (p.engine b).strayRun = none) : sweepSlot b fin p = modEngine b
      (Engine.polling (p.branchSetup b) .sweep n ∘ fun g => { g with sweepCursor := n.val, roundPart := .sweep }) p := by
  simp only [sweepSlot, hsweeps, if_true, h, reserve_held hreserved]
  rw [beginExchange_quiet (by simpa using hstray), modEngine_modEngine]
  rfl

end

/-! ## The listen slot (R14) -/

theorem listenSlot_none (h : (p.branchSetup b).listenMs = 0) : listenSlot b fin p = fin p := if_pos h

theorem listenSlot_opens (h : (p.branchSetup b).listenMs ≠ 0) (hstray : (p.engine b).strayRun = none) :
    listenSlot b fin p = openGate b (modEngine b (Engine.listening (p.branchSetup b).listenMs) p) := by
  simp only [listenSlot, h, if_false, endedStray_none hstray]
  rfl

end

/-! ## The broadcast and the initial sweep (R9, R10) -/

theorem beginRound_broadcast {fin : Part → Part} {e : TxEntry}
    (h : (p.engine b).queue.find? (fun e => e.target = 63) = some e) : beginRound b fin p = beginSend b e
      (modEngine b (fun g => { g with phase := .none, spoke := false, roundPart := .broadcast }) p) := by
  have holdest : (modEngine b (fun g => { g with phase := .none, spoke := false }) p).oldestFor b 63 = some e := by
    simpa [oldestFor] using h
  simp only [beginRound, holdest, modEngine_modEngine]
  rfl

/-- The initial sweep polls the first of its numbers that is ABSENT. -/
theorem runInitial_first {n : StationNo} : ∀ {l : List StationNo} {p : Part}, l.Pairwise (· < ·) → n ∈ l →
    (p.station b n).state = .absent → (∀ m ∈ l, (p.station b m).state = .absent → n ≤ m) →
    (p.engine b).reservation.isSome = true → (p.engine b).strayRun = none →
    runInitial b l p = modEngine b (Engine.discovering (p.branchSetup b) n) p := by
  intro l
  induction l with
  | nil => exact fun _ h => nomatch h
  | cons x r ih =>
    intro p hl hn habsent hfirst hreserved hstray
    obtain ⟨hx, hr⟩ := List.pairwise_cons.mp hl
    have hmod : ((modEngine b (fun g => { g with initNext := x.val + 1 }) p).engine b).reservation.isSome = true
        ∧ ((modEngine b (fun g => { g with initNext := x.val + 1 }) p).engine b).strayRun = none := by simp [hreserved, hstray]
    obtain ⟨hreserved', hstray'⟩ := hmod
    by_cases habs : (p.station b x).state = .absent
    · have hxn : x = n := by
        rcases List.mem_cons.mp hn with rfl | hlater
        · rfl
        · exact absurd (hx n hlater) (Fin.not_lt.mpr (hfirst x (by simp) habs))
      subst hxn
      simp only [runInitial, habs, if_true, beginPoll_held hreserved' hstray', modEngine_modEngine]
      rfl
    · have hnr : n ∈ r := (List.mem_cons.mp hn).resolve_left fun h => habs (h ▸ habsent)
      simp only [runInitial, habs, if_false]
      rw [ih (p := modEngine b (fun g => { g with initNext := x.val + 1 }) p) hr hnr habsent
        (fun m hm => hfirst m (List.mem_cons_of_mem _ hm)) hreserved' hstray', modEngine_modEngine]
      rfl

/-- With no ABSENT number left the rounds begin. -/
theorem runInitial_none : ∀ {l : List StationNo} {p : Part}, (∀ m ∈ l, (p.station b m).state ≠ .absent) →
    ∃ k, runInitial b l p =
      beginRound b (startPadding b) (modEngine b (fun g => { g with state := .rounds, initNext := k }) p) := by
  intro l
  induction l with
  | nil => exact fun {p} _ => ⟨(p.engine b).initNext, rfl⟩
  | cons x r ih =>
    intro p h
    have hx := h x (by simp)
    obtain ⟨k, hk⟩ := ih (p := modEngine b (fun g => { g with initNext := x.val + 1 }) p)
      fun m hm => h m (List.mem_cons_of_mem _ hm)
    refine ⟨k, ?_⟩
    simp only [runInitial, hx, if_false]
    rw [hk, modEngine_modEngine]
    rfl

end

end Part

end Sys2Proof.Machine
end

section
/-! PROOF. What the course of an engine through the parts of a round leaves of its branch: the round, and with no stray
run the switch, the score and the latches. -/

namespace Sys2Proof.Machine

namespace Part

/-! ## The round through an error (R25, R26, R132) -/

section

variable {p : Part} {b : Branch}

theorem stopReported_round (b : Branch) (p : Part) : ((stopReported b p).engine b).round = (p.engine b).round :=
  (congrArg Engine.round (stopReported_unqueued b p) :)

theorem stopRequest_round (b : Branch) (p : Part) : ((stopRequest b p).engine b).round = (p.engine b).round := by
  by_cases hstopped : (p.engine b).state = .stopped
  · rw [stopRequest_stopped hstopped, stopReported_round]
  by_cases hstopping : (p.engine b).state = .stopping
  · rw [stopRequest_stopping hstopping]
  have hrun := EngineState.running_of_ne hstopped hstopping
  by_cases hexchange : (p.engine b).phase.inExchange = true
  · rw [stopRequest_exchange hrun hexchange, engine_modEngine_self]
  by_cases hlisten : (p.engine b).phase = .listen
  · rw [stopRequest_listen hrun hlisten, stopReported_round, enterStopped_engine]
    simp [Engine.halted, closeGate]
  · rw [stopRequest_between hrun (by simpa using hexchange) hlisten, stopReported_round, enterStopped_engine]
    rfl

theorem handleError_round (r : ErrorReport) (p : Part) : ((handleError b r p).engine b).round = (p.engine b).round := by
  rcases isolationTest_cases b r.kind (scoreError b r p) with h | ⟨reason, d, h⟩
  · rw [handleError, h]
    simp
  rw [handleError, h]
  cases hrun : ((scoreError b r p).switch b).state.running
  · rw [requestIsolation_other hrun]
    simp
  · rw [requestIsolation_running hrun, stopRequest_round]
    simp

theorem handleAll_round (l : List ErrorReport) (p : Part) : ((handleAll b l p).engine b).round = (p.engine b).round :=
  each_keeps_view (fun q => (q.engine b).round) l _ (fun r q => handleError_round r q) p

theorem afterVisit_keeps (i : VisitItem) (g : Engine) : (g.afterVisit i).strayRun = g.strayRun
    ∧ (g.afterVisit i).round = g.round ∧ (g.afterVisit i).state = g.state := by
  unfold Engine.afterVisit
  split
  · split <;> exact ⟨rfl, rfl, rfl⟩
  · exact ⟨rfl, rfl, rfl⟩

end

end Part

/-! ## The course of an engine -/

/-- What a course with no stray run leaves of a branch: only its gate may open. -/
structure Quiet (b : Branch) (o p : Part) : Prop where
  stray : (p.engine b).strayRun = none
  state : (p.engine b).state = (o.engine b).state
  switch : p.switch b = o.switch b
  sup : ∃ gate, p.sup b = { o.sup b with gate := gate }
  latches : o.KeepsLatches p
  sense : p.sense = o.sense

/-- What the course of an engine through the parts of a round leaves of its branch. -/
structure Courses (b : Branch) (o p : Part) : Prop where
  round : (p.engine b).round = (o.engine b).round
  quiet : (o.engine b).strayRun = none → Quiet b o p

namespace Courses

variable {b : Branch} {o p q : Part}

theorem refl (b : Branch) (p : Part) : Courses b p p :=
  ⟨rfl, fun h => ⟨h, rfl, rfl, ⟨(p.sup b).gate, rfl⟩, .refl p, rfl⟩⟩

/-- A change of the engine that leaves its round, its state and an absent stray run. -/
theorem modEngine (h : Courses b o p) (f : Engine → Engine)
    (hf : ∀ g, (f g).round = g.round ∧ (f g).state = g.state ∧ (g.strayRun = none → (f g).strayRun = none) := by
      exact fun _ => ⟨rfl, rfl, id⟩) : Courses b o (Part.modEngine b f p) := by
  obtain ⟨hround, hstate, hstray⟩ := hf (p.engine b)
  refine ⟨?_, fun hnone => ?_⟩
  · rw [Part.engine_modEngine_self, hround, h.round]
  · obtain ⟨hs, hst, hw, hu, hl, hsense⟩ := h.quiet hnone
    refine ⟨?_, ?_, hw, hu, hl.same rfl, hsense⟩
    · rw [Part.engine_modEngine_self, hstray hs]
    · rw [Part.engine_modEngine_self, hstate, hst]

theorem openGate (h : Courses b o p) : Courses b o (Part.openGate b p) := by
  refine ⟨h.round, fun hnone => ?_⟩
  obtain ⟨hs, hst, hw, ⟨gate, hu⟩, hl, hsense⟩ := h.quiet hnone
  refine ⟨hs, hst, hw, ⟨{ isOpen := true, edges := 0, chars := [], complete := 0 }, ?_⟩, hl.same rfl, hsense⟩
  rw [Part.openGate, Part.sup_modSup_self, hu]

/-- What ends here with a stray run is reported: with none, nothing is. -/
theorem endsStray (h : Courses b o q) {p : Part} (hp : Courses b o p) :
    Courses b o (Part.handleAll b (p.endedStray b) q) := by
  refine ⟨(Part.handleAll_round ..).trans h.round, fun hnone => ?_⟩
  rw [Part.endedStray_none (hp.quiet hnone).stray]
  exact h.quiet hnone

theorem beginExchange (h : Courses b o p) {kind : ExchKind} {n : StationNo} {entry : Option BufNo} {seq : Bool}
    {sent : List (Byte × Bool)} {rd : Option TxRead} : Courses b o (Part.beginExchange b kind n entry seq sent rd p) :=
  endsStray (h.modEngine (Engine.commence (p.branchSetup b) kind n entry seq sent rd) fun _ => ⟨rfl, rfl, fun _ => rfl⟩) h

theorem takeHead (h : Courses b o p) : Courses b o p.takeHead := by
  have hengine : p.takeHead.engine b = p.engine b := by simp
  refine ⟨by rw [hengine, h.round], fun hnone => ?_⟩
  obtain ⟨hs, hst, hw, ⟨gate, hu⟩, hl, hsense⟩ := h.quiet hnone
  have hlatches : o.KeepsLatches p.takeHead := by
    unfold Part.takeHead
    extract_lets n q
    split
    · exact Part.KeepsLatches.notify _ (hl.same rfl)
    · exact hl.same rfl
  exact ⟨by rw [hengine, hs], by rw [hengine, hst], by simpa using hw, ⟨gate, by simpa using hu⟩, hlatches,
    by simpa using hsense⟩

theorem reserve (h : Courses b o p) (e : p.reserve b = some q) : Courses b o q := by
  unfold Part.reserve at e
  split at e
  · cases e
    exact h
  · split at e
    · next halloc =>
      cases e
      unfold Part.allocate at halloc
      split at halloc
      · cases halloc
      · cases halloc
        exact h.takeHead.modEngine _
    · cases e

theorem skipPoll (h : Courses b o p) : Courses b o (Part.skipPoll b p) := h.modEngine _

theorem beginPoll {kind : ExchKind} {n : StationNo} (h : Courses b o p) (e : p.beginPoll b kind n = some q) :
    Courses b o q := by
  obtain ⟨r, hr, rfl⟩ := Option.map_eq_some_iff.mp e
  exact (h.reserve hr).beginExchange

theorem beginSend (e : TxEntry) (h : Courses b o p) : Courses b o (Part.beginSend b e p) := h.beginExchange

theorem startPadding (h : Courses b o p) : Courses b o (Part.startPadding b p) := h.modEngine _

section

variable {fin : Part → Part} (hf : ∀ p, Courses b o p → Courses b o (fin p))

include hf

theorem listenSlot (h : Courses b o p) : Courses b o (Part.listenSlot b fin p) := by
  simp only [Part.listenSlot]
  split
  · exact hf p h
  · exact endsStray (openGate (h.modEngine (Engine.listening (p.branchSetup b).listenMs) fun _ =>
      ⟨rfl, rfl, fun _ => rfl⟩)) h

theorem sweepSlot (h : Courses b o p) : Courses b o (Part.sweepSlot b fin p) := by
  simp only [Part.sweepSlot]
  split
  · split
    · exact h.listenSlot hf
    · split
      · exact h.skipPoll.listenSlot hf
      · exact beginExchange (modEngine (h.reserve (by assumption)) _)
  · exact hf p h

theorem runVisits (l : List VisitItem) (h : Courses b o p) : Courses b o (Part.runVisits b fin l p) := by
  induction l generalizing p with
  | nil => exact sweepSlot hf (h.modEngine _)
  | cons i r ih =>
    have hvisit : ∀ g : Engine, (g.afterVisit i).round = g.round ∧ (g.afterVisit i).state = g.state
        ∧ (g.strayRun = none → (g.afterVisit i).strayRun = none) := fun g => by
      obtain ⟨hstray, hround, hstate⟩ := Part.afterVisit_keeps i g
      exact ⟨hround, hstate, fun h => hstray.trans h⟩
    simp only [Part.runVisits]
    split
    · exact ih (h.modEngine _ hvisit)
    · split
      · exact beginSend _ (h.modEngine _)
      · split
        · next hpoll => exact beginPoll (modEngine h _) hpoll
        · exact ih (modEngine (skipPoll (modEngine h _)) _ hvisit)

theorem beginRound (h : Courses b o p) : Courses b o (Part.beginRound b fin p) := by
  simp only [Part.beginRound]
  split
  · exact beginSend _ (modEngine (modEngine h _) _)
  · exact runVisits hf _ (modEngine h _)

end

theorem beginRoundPadding (h : Courses b o p) : Courses b o (Part.beginRound b (Part.startPadding b) p) :=
  h.beginRound fun _ hp => hp.startPadding

end Courses

end Sys2Proof.Machine
end

section
/-! PROOF. The end of the turnaround (O41). -/

namespace Sys2Proof.Machine

/-- An engine at the end of a visit: the cursor names the station after the one visited (R11). -/
def Engine.visited (y : VisitItem) (g : Engine) : Engine :=
  { g with cursor := (follower g.pollList y.station).orElse fun _ => some y.station
           exch := none, visiting := none, phase := .none }

/-- An engine at the end of an exchange that was no visit. -/
def Engine.between (g : Engine) : Engine := { g with exch := none, visiting := none, phase := .none }

/-- An engine that has skipped the POLL of a visit (R15, R20). -/
def Engine.skipping (z : VisitItem) (r : List VisitItem) (g : Engine) : Engine :=
  { g with order := r, roundPart := .visits, pollSkipped := satInc 65535 g.pollSkipped, visiting := none
           cursor := (follower g.pollList z.station).orElse fun _ => some z.station }

theorem Engine.afterVisit_present {y : VisitItem} (h : y.left = false) (g : Engine) : g.afterVisit y =
    { g with cursor := (follower g.pollList y.station).orElse fun _ => some y.station } := if_neg (by simp [h])

/-- An engine as its turnaround is over: a visit, if it was one, moves the cursor on. -/
def Engine.rested (g : Engine) : Engine :=
  (match g.visiting with
  | some y => g.afterVisit y
  | none => g).between

theorem Engine.rested_visit {g : Engine} {y : VisitItem} (h : g.visiting = some y) (hleft : y.left = false) :
    g.rested = g.visited y := by
  simp only [rested, h, afterVisit_present hleft]
  rfl

theorem Engine.rested_none {g : Engine} (h : g.visiting = none) : g.rested = g.between := by
  simp only [rested, h]

theorem Engine.rested_keeps (g : Engine) : g.rested.reservation = g.reservation ∧ g.rested.phase = .none
    ∧ g.rested.state = g.state := by
  unfold rested
  split
  · next y _ =>
    have hvisit : (g.afterVisit y).reservation = g.reservation ∧ (g.afterVisit y).state = g.state := by
      unfold Engine.afterVisit
      split
      · split <;> exact ⟨rfl, rfl⟩
      · exact ⟨rfl, rfl⟩
    exact ⟨hvisit.1, rfl, hvisit.2⟩
  · exact ⟨rfl, rfl, rfl⟩

namespace Part

section

variable {p : Part} {b : Branch}

/-! ## A buffer on the free list stays there through a flush (R24, R97) -/

theorem abortJob_free {buf : BufNo} (j : JobNo) (r : JobResult) (h : buf ∈ p.pool.free) :
    buf ∈ (abortJob j r p).pool.free := by
  cases hlive : (p.job j).state.live
  · rwa [show abortJob j r p = p from if_neg (by simp [hlive])]
  · rw [abortJob_pool r hlive]
    exact List.mem_append_left _ h

theorem switchFlush_free {buf : BufNo} (b : Branch) (h : buf ∈ p.pool.free) : buf ∈ (switchFlush b p).pool.free := by
  unfold switchFlush abortAssemblingOfBranch flushQueue completeWhere
  refine each_keeps_prop (fun q : Part => buf ∈ q.pool.free) _ _ (fun j q hq => ?_) _ ?_
  · split
    · split
      · exact abortJob_free _ _ hq
      · exact hq
    · exact hq
  · refine each_keeps_prop (fun q : Part => buf ∈ q.pool.free) _ _ (fun e q hq => ?_) _ h
    split
    · exact hq
    · rw [completeEntry_free]
      exact List.mem_append_left _ hq

theorem stopReported_free {buf : BufNo} (b : Branch) (h : buf ∈ p.pool.free) : buf ∈ (stopReported b p).pool.free := by
  unfold stopReported
  split
  · simpa [moveOpen, releaseDrives] using switchFlush_free b h
  · exact h

theorem enterStopped_free {buf : BufNo} (hphase : (p.engine b).phase ≠ .verdict)
    (h : (p.engine b).reservation = some buf) : buf ∈ (enterStopped b p).pool.free := by
  have hhalted : buf ∈ (haltEngine b p).pool.free := by
    simp [haltEngine, hphase, h]
  simpa [enterStopped] using hhalted

/-- A stop that reports itself leaves an engine that has stopped as it is, its queue aside. -/
theorem stopReported_engine (h : (p.engine b).exch = none) :
    ∃ l n, (stopReported b p).engine b = { p.engine b with queue := l, relayDropped := n } := by
  by_cases hstate : (p.switch b).state = .draining
  · obtain ⟨n, hn⟩ := switchFlush_engine (p := p) (b := b) h
    refine ⟨[], n, ?_⟩
    rw [stopReported_draining hstate, ← hn]
    simp
  · exact ⟨(p.engine b).queue, (p.engine b).relayDropped, by rw [stopReported_other hstate]⟩

theorem stopReported_opens (h : (p.switch b).state = .draining) : ((stopReported b p).switch b).state = .opening := by
  rw [stopReported_draining h, moveOpen_switch, setSwitch_switch]
  rfl

/-! ## The end of the turnaround (R5, R11, R25) -/

section

variable {x : Exchange} (hphase : (p.engine b).phase = .turnaround) (hx : (p.engine b).exch = some x)
  (hcode : x.endCode = none)

include hphase hx hcode

theorem turnaroundEnd_eq : turnaroundEnd b p = if (p.engine b).state = .stopping then
      stopReported b (enterStopped b (modEngine b Engine.rested p)) else goOn b (modEngine b Engine.rested p) := by
  unfold turnaroundEnd
  extract_lets g p1 p2
  have hp1 : p1 = p := by simp only [p1, g, hx, hcode, Option.bind_some]
  have hp2 : p2 = modEngine b Engine.rested p := by
    rw [← hp1]
    rfl
  rw [if_pos hphase, hp2]

theorem turnaroundEnd_stops (hstate : (p.engine b).state = .stopping) : turnaroundEnd b p =
    stopReported b (enterStopped b (modEngine b Engine.rested p)) := by
  rw [turnaroundEnd_eq hphase hx hcode, if_pos hstate]

/-- After a visit the visits go on (R10, R11). -/
theorem turnaroundEnd_visit {y : VisitItem} (hstate : (p.engine b).state = .rounds)
    (hpart : (p.engine b).roundPart = .visits) (hvisit : (p.engine b).visiting = some y) (hleft : y.left = false) :
    turnaroundEnd b p = runVisits b (finishRound b) (p.engine b).order (modEngine b (Engine.visited y) p) := by
  have hrest : modEngine b Engine.rested p = modEngine b (Engine.visited y) p := by
    simp only [modEngine, Engine.rested_visit hvisit hleft]
  rw [turnaroundEnd_eq hphase hx hcode, if_neg (by simp [hstate]), hrest]
  simp only [goOn, engine_modEngine_self, Engine.visited, hstate, hpart]

theorem turnaroundEnd_sweep (hstate : (p.engine b).state = .rounds) (hpart : (p.engine b).roundPart = .sweep)
    (hvisit : (p.engine b).visiting = none) :
    turnaroundEnd b p = listenSlot b (finishRound b) (modEngine b Engine.between p) := by
  have hrest : modEngine b Engine.rested p = modEngine b Engine.between p := by
    simp only [modEngine, Engine.rested_none hvisit]
  rw [turnaroundEnd_eq hphase hx hcode, if_neg (by simp [hstate]), hrest]
  simp only [goOn, engine_modEngine_self, Engine.between, hstate, hpart]

theorem turnaroundEnd_initial (hstate : (p.engine b).state = .initialSweep) (hvisit : (p.engine b).visiting = none) :
    turnaroundEnd b p = runInitial b (stationNumbers.filter fun n => (p.engine b).initNext ≤ n.val)
      (modEngine b Engine.between p) := by
  have hrest : modEngine b Engine.rested p = modEngine b Engine.between p := by
    simp only [modEngine, Engine.rested_none hvisit]
  rw [turnaroundEnd_eq hphase hx hcode, if_neg (by simp [hstate]), hrest]
  simp only [goOn, engine_modEngine_self, Engine.between, hstate]

end

end

end Part

namespace Part

section

variable {p : Part} {b : Branch} {fin : Part → Part} {z : VisitItem} {r : List VisitItem}

/-! ## The visits that follow, the engine's changes gathered -/

theorem runVisits_sending {e : TxEntry} (F : Engine → Engine) (hstray : (F (p.engine b)).strayRun = none)
    (hleft : z.left = false) (hz : z.station ≠ 63)
    (h : (F (p.engine b)).queue.find? (fun e => e.target = z.station) = some e) :
    runVisits b fin (z :: r) (modEngine b F p) = modEngine b
      (Engine.sending (p.branchSetup b) .send e (p.station b z.station).txSeq ∘ visit z r ∘ F) p := by
  have htarget : e.target = z.station := by simpa using List.find?_some h
  rw [runVisits_sends hleft (by simpa using h), modEngine_modEngine, beginSend_station (by rw [htarget]; exact hz)
    (by simpa [visit] using hstray), modEngine_modEngine, htarget]
  rfl

theorem runVisits_polling (F : Engine → Engine) (hstray : (F (p.engine b)).strayRun = none)
    (hreserved : (F (p.engine b)).reservation.isSome = true) (hleft : z.left = false)
    (h : ∀ e ∈ (F (p.engine b)).queue, e.target ≠ z.station) :
    runVisits b fin (z :: r) (modEngine b F p) =
      modEngine b (Engine.polling (p.branchSetup b) .poll z.station ∘ visit z r ∘ F) p := by
  refine runVisits_polls hleft (by simpa using h) ?_
  rw [modEngine_modEngine, beginPoll_held (by simpa [visit] using hreserved) (by simpa [visit] using hstray),
    modEngine_modEngine]
  rfl

theorem runVisits_taking {buf : BufNo} {rest : List BufNo} (F : Engine → Engine)
    (hstray : (F (p.engine b)).strayRun = none) (hreserved : (F (p.engine b)).reservation = none)
    (hfree : p.pool.free = buf :: rest) (hleft : z.left = false) (h : ∀ e ∈ (F (p.engine b)).queue, e.target ≠ z.station) :
    runVisits b fin (z :: r) (modEngine b F p) = modEngine b (Engine.polling (p.branchSetup b) .poll z.station ∘
      fun g => { g with reservation := some buf }) (modEngine b (visit z r ∘ F) p).takeHead := by
  refine runVisits_polls hleft (by simpa using h) ?_
  rw [modEngine_modEngine, beginPoll_takes (by simpa [visit] using hreserved) (by simpa using hfree)
    (by simpa [visit] using hstray)]
  rfl

theorem runVisits_skipping (F : Engine → Engine) (hreserved : (F (p.engine b)).reservation = none)
    (hfree : p.pool.free = []) (hleft : z.left = false) (h : ∀ e ∈ (F (p.engine b)).queue, e.target ≠ z.station) :
    runVisits b fin (z :: r) (modEngine b F p) = runVisits b fin r (modEngine b (Engine.skipping z r ∘ F) p) := by
  rw [runVisits_skips hleft (by simpa using h)
    (beginPoll_none (by simpa [visit] using hreserved) (by simpa using hfree))]
  simp only [skipPoll, modEngine_modEngine, Engine.afterVisit_present hleft]
  rfl

/-! ## The end of a round (R10) -/

theorem trialRound_engine (b c : Branch) (p : Part) : (trialRound b p).engine c = p.engine c := by
  unfold trialRound
  extract_lets w p1
  split
  · split <;> simp [p1]
  · rfl

theorem reportRound_engine (b : Branch) (p : Part) :
    (reportRound b p).engine b = { p.engine b with phase := .none, round := wrapInc (p.engine b).round } := by
  simp only [reportRound, trialRound_engine, creditRound_views, engine_modEngine_self]

theorem finishRound_spoke (h : (p.engine b).spoke = true) :
    finishRound b p = beginRound b (startPadding b) (reportRound b p) := if_pos h

/-- The visits over, the sweep slot is decided (R10). -/
theorem runVisits_over (F : Engine → Engine) :
    runVisits b fin [] (modEngine b F p) = sweepSlot b fin (modEngine b ((fun g => { g with order := [] }) ∘ F) p) := by
  rw [runVisits_nil, modEngine_modEngine]

end

end Part

/-- An engine that has begun an exchange carries it with the values in force (R5). -/
theorem Engine.commence_begins (x : BranchSetup) (kind : ExchKind) (n : StationNo) (entry : Option BufNo) (seq : Bool)
    (sent : List (Byte × Bool)) (rd : Option TxRead) (g : Engine) :
    (g.commence x kind n entry seq sent rd).phase = .transmit ∧ (g.commence x kind n entry seq sent rd).sent = sent
    ∧ (g.commence x kind n entry seq sent rd).queue = g.queue
    ∧ ∃ w, (g.commence x kind n entry seq sent rd).exch = some w ∧ w.kind = kind ∧ w.station = n ∧ w.entry = entry
      ∧ w.seq = seq ∧ w.replyWindow = x.replyWindow ∧ w.gapLimit = x.gapLimit ∧ w.deglitch = x.deglitch
      ∧ w.void = false ∧ w.endCode = none :=
  ⟨rfl, rfl, rfl, _, rfl, rfl, rfl, rfl, rfl, rfl, rfl, rfl, rfl, rfl⟩

/-- Settles O41: the part of the round that follows, by the state of the engine and the poll list. -/
theorem turnaroundEndGoesOn : Obligations.TurnaroundEndGoesOn := by
  intro s b x hheld g u c hphase hx hcode
  have hexec : ∀ {q}, Part.turnaroundEnd b s.part = q → exec c s = .next (s.withPart q) := onPart_awake_eq hheld
  refine ⟨fun hstate => ?stops, fun hstray => ?goesOn⟩
  case stops =>
    let p : Part := Part.modEngine b Engine.rested s.part
    have hp : p.engine b = g.rested := Part.engine_modEngine_self ..
    obtain ⟨hreserved, hquiet, _⟩ := Engine.rested_keeps g
    have hhalted : (Part.enterStopped b p).engine b = g.rested.halted := by rw [Part.enterStopped_engine, hp]
    obtain ⟨l, n, hengine⟩ := Part.stopReported_engine (p := Part.enterStopped b p) (b := b) (by rw [hhalted]; rfl)
    rw [hhalted] at hengine
    have hswitch : (Part.enterStopped b p).switch b = s.part.switch b := by simp [p]
    have hfreed : ∀ buf, g.reservation = some buf → buf ∈ (Part.stopReported b (Part.enterStopped b p)).pool.free :=
      fun buf hbuf => Part.stopReported_free b (Part.enterStopped_free (by rw [hp, hquiet]; decide)
        (by rw [hp, hreserved]; exact hbuf))
    refine ⟨_, hexec (Part.turnaroundEnd_stops hphase hx hcode hstate), congrArg Engine.state hengine,
      congrArg Engine.phase hengine, congrArg Engine.exch hengine, (congrArg Engine.reservation hengine).trans ?_, rfl,
      hfreed, fun hdrains => Part.stopReported_opens (by rw [hswitch]; exact hdrains)⟩
    simp [Engine.halted, hquiet]
  case goesOn =>
    intro setup engineOnly begins polls sends sweeps absent listens
    have honly : ∀ F, Part.turnaroundEnd b s.part = Part.modEngine b F s.part →
        engineOnly (s.withPart (Part.modEngine b F s.part)) := by
      intro F h
      refine ⟨hexec h, ?_⟩
      rw [State.withPart_part, Part.engine_modEngine_self]
      rfl
    have hpolls : ∀ (t : Part) (kind : ExchKind) (n : StationNo) (h : Engine), t.engine b = h.polling setup kind n →
        h.queue = g.queue → polls (s.withPart t) kind n := by
      intro t kind n h ht hq
      obtain ⟨h1, h2, h3, h4⟩ := h.commence_begins setup kind n none false [ctlChar .poll n] none
      refine ⟨?_, ?_⟩
      · show (t.engine b).phase = _ ∧ (t.engine b).sent = _ ∧ (t.engine b).queue = _ ∧ ∃ w, (t.engine b).exch = some w ∧ _
        rw [ht, ← hq]
        exact ⟨h1, h2, h3, h4⟩
      · rw [State.withPart_part, ht]
        rfl
    have hsends : ∀ (t : Part) (kind : ExchKind) (e : TxEntry) (seq : Bool) (h : Engine),
        t.engine b = h.sending setup kind e seq → h.queue = g.queue → sends (s.withPart t) kind e seq := by
      intro t kind e seq h ht hq
      obtain ⟨h1, h2, h3, h4⟩ := h.commence_begins setup kind e.target (some e.buf) seq [ctlChar .send e.target]
        (some { buf := e.buf, ctl := ctlByte seq e.first e.last, got := [] })
      refine ⟨?_, ?_⟩
      · show (t.engine b).phase = _ ∧ (t.engine b).sent = _ ∧ (t.engine b).queue = _ ∧ ∃ w, (t.engine b).exch = some w ∧ _
        rw [ht, ← hq]
        exact ⟨h1, h2, h3, h4⟩
      · rw [State.withPart_part, ht]
        rfl
    have hlistens : ∀ (p : Part) (h : Engine),
        (Part.openGate b (Part.modEngine b (Engine.listening setup.listenMs) p)).engine b = Engine.listening setup.listenMs h →
        p.sup b = u → listens (s.withPart (Part.openGate b (Part.modEngine b (Engine.listening setup.listenMs) p))) := by
      intro p h hengine hu
      refine ⟨congrArg Engine.phase hengine, congrArg Engine.listen hengine, congrArg Engine.spoke hengine, ?_⟩
      rw [State.withPart_part, Part.openGate, Part.sup_modSup_self]
      exact congrArg (fun u : Supervisor => { u with gate := { isOpen := true, edges := 0, chars := [], complete := 0 } }) hu
    refine ⟨fun y hstate hpart hvisit hleft => ?visits, fun hstate hpart hvisit => ?sweep, fun hstate hvisit => ?initial⟩
    case visits =>
      intro next
      have hturn := Part.turnaroundEnd_visit hphase hx hcode hstate hpart hvisit hleft
      refine ⟨fun z r horder hz => ?order, fun horder hsweeps => ?slot, fun horder hrests hspoke e he => ?ends⟩
      case order =>
        intro at_
        rw [show (s.part.engine b).order = z :: r from horder] at hturn
        refine ⟨fun e he hnumber => ?_, fun hnone => ⟨fun buf hbuf => ?_, fun buf rest hbuf hfree => ?_,
          fun z' r' e hbuf hfree hr hz' hnumber he => ?_⟩⟩
        · have hnext := hturn.trans (Part.runVisits_sending (Engine.visited y) hstray hz hnumber he)
          have hengine := Part.engine_modEngine_self b
            (Engine.sending setup .send e (s.part.station b z.station).txSeq ∘ Part.visit z r ∘ Engine.visited y) s.part
          exact ⟨_, honly _ hnext, ⟨(congrArg Engine.state hengine).trans hstate, congrArg Engine.order hengine,
            congrArg Engine.visiting hengine, congrArg Engine.cursor hengine⟩, hsends _ _ _ _ _ hengine rfl⟩
        · have hnext := hturn.trans (Part.runVisits_polling (Engine.visited y) hstray
            (by show g.reservation.isSome = true; rw [hbuf]; rfl) hz hnone)
          have hengine := Part.engine_modEngine_self b
            (Engine.polling setup .poll z.station ∘ Part.visit z r ∘ Engine.visited y) s.part
          exact ⟨_, honly _ hnext, ⟨(congrArg Engine.state hengine).trans hstate, congrArg Engine.order hengine,
            congrArg Engine.visiting hengine, congrArg Engine.cursor hengine⟩, hpolls _ _ _ _ hengine rfl⟩
        · have hnext := hturn.trans (Part.runVisits_taking (Engine.visited y) hstray hbuf hfree hz hnone)
          have hhead := Part.takeHead_eq (p := Part.modEngine b (Part.visit z r ∘ Engine.visited y) s.part) hfree
          have hfreed : (Part.takeHead (Part.modEngine b (Part.visit z r ∘ Engine.visited y) s.part)).pool.free = rest := by
            rw [hhead]
          have hlatches : (Part.takeHead (Part.modEngine b (Part.visit z r ∘ Engine.visited y) s.part)).notices.latches
              = if rest.length + 1 = s.part.setup.reserve then s.part.notices.latches ||| 0x1000
                else s.part.notices.latches := by
            rw [hhead]
            rfl
          have htaken : (Part.takeHead (Part.modEngine b (Part.visit z r ∘ Engine.visited y) s.part)).engine b
              = Part.visit z r (Engine.visited y g) := by
            rw [hhead]
            exact Part.engine_modEngine_self ..
          generalize Part.takeHead (Part.modEngine b (Part.visit z r ∘ Engine.visited y) s.part) = q at *
          have hengine := Part.engine_modEngine_self b
            (Engine.polling setup .poll z.station ∘ fun g => { g with reservation := some buf }) q
          rw [htaken] at hengine
          exact ⟨_, hexec hnext, ⟨(congrArg Engine.state hengine).trans hstate, congrArg Engine.order hengine,
            congrArg Engine.visiting hengine, congrArg Engine.cursor hengine⟩, hpolls _ _ _ _ hengine rfl,
            congrArg Engine.reservation hengine, hfreed, hlatches⟩
        · rw [hr] at hturn
          have hnext := hturn.trans (Part.runVisits_skipping (Engine.visited y) hbuf hfree hz hnone)
          have hsent := hnext.trans (Part.runVisits_sending (Engine.skipping z (z' :: r') ∘ Engine.visited y) hstray hz' hnumber he)
          have hengine := Part.engine_modEngine_self b (Engine.sending setup .send e (s.part.station b z'.station).txSeq ∘
            Part.visit z' r' ∘ Engine.skipping z (z' :: r') ∘ Engine.visited y) s.part
          exact ⟨_, honly _ hsent, hsends _ _ _ _ _ hengine rfl, congrArg Engine.visiting hengine,
            congrArg Engine.cursor hengine, congrArg Engine.pollSkipped hengine⟩
      all_goals
        rw [show (s.part.engine b).order = [] from horder] at hturn
        have hslot := hturn.trans (Part.runVisits_over (Engine.visited y))
        let F : Engine → Engine := (fun g => { g with order := [] }) ∘ Engine.visited y
        let p : Part := Part.modEngine b F s.part
        have hp : p.engine b = F g := Part.engine_modEngine_self ..
        have hpstray : (p.engine b).strayRun = none := by rw [hp]; exact hstray
        have hiff : (p.engine b).round % (p.branchSetup b).sweepInterval = 0 ∨ (p.engine b).pollList = [] ↔ sweeps := by
          rw [hp]
          rfl
      case slot =>
        refine ⟨fun n buf hbuf hcursor hn hnear => ?_, fun hms hnone => ?_, fun hms hsome hbuf hfree => ?_⟩
        · have hnext : p.nextAbsent b = some n :=
            Part.nextAbsent_nearest (by rw [hp]; exact hcursor) hn (by rw [hp]; exact hnear)
          have hpolled := hslot.trans (Part.sweepSlot_polls (p := p) (hiff.mpr hsweeps) hnext
            (by rw [hp]; show g.reservation.isSome = true; rw [hbuf]; rfl) hpstray)
          rw [Part.modEngine_modEngine] at hpolled
          have hengine := Part.engine_modEngine_self b ((Engine.polling setup .sweep n ∘ fun g =>
            { g with sweepCursor := n.val, roundPart := .sweep }) ∘ F) s.part
          exact ⟨_, honly _ hpolled, hpolls _ _ _ _ hengine rfl, congrArg Engine.sweepCursor hengine,
            congrArg Engine.roundPart hengine⟩
        · have hopened := hslot.trans ((Part.sweepSlot_noNumber (p := p) (hiff.mpr hsweeps) (Part.nextAbsent_none hnone)).trans
            (Part.listenSlot_opens hms hpstray))
          have hengine : (Part.openGate b (Part.modEngine b (Engine.listening (p.branchSetup b).listenMs) p)).engine b
              = Engine.listening setup.listenMs (F g) := by
            rw [← hp]
            exact Part.engine_modEngine_self ..
          exact ⟨_, hexec hopened, hlistens p _ hengine rfl, (congrArg Engine.pollSkipped hengine :)⟩
        · obtain ⟨n, hn⟩ := hsome
          obtain ⟨m, hm⟩ := Part.nextAbsent_isSome (p := p) hn
          have hskipped := hslot.trans ((Part.sweepSlot_noBuffer (p := p) (hiff.mpr hsweeps) hm
            (Part.reserve_none (by rw [hp]; exact hbuf) hfree)).trans (Part.listenSlot_opens (p := Part.skipPoll b p) hms
              (by simpa [Part.skipPoll] using hpstray)))
          have hengine : (Part.openGate b (Part.modEngine b (Engine.listening setup.listenMs) (Part.skipPoll b p))).engine b
              = Engine.listening setup.listenMs { F g with pollSkipped := satInc 65535 g.pollSkipped } := by
            have hq : (Part.skipPoll b p).engine b = { F g with pollSkipped := satInc 65535 g.pollSkipped } := by
              rw [Part.skipPoll, Part.engine_modEngine_self, hp]
              rfl
            rw [← hq]
            exact Part.engine_modEngine_self ..
          exact ⟨_, hexec hskipped, hlistens (Part.skipPoll b p) _ hengine rfl, (congrArg Engine.sweepCursor hengine :),
            congrArg Engine.pollSkipped hengine⟩
      case ends =>
        have hrest := hslot.trans ((Part.sweepSlot_rests (p := p) (mt hiff.mp hrests)).trans
          (Part.finishRound_spoke (by rw [hp]; exact hspoke)))
        have hq := Part.reportRound_engine b p
        have hset : (Part.reportRound b p).branchSetup b = setup := by
          rw [Part.branchSetup_def, ((Confined.refl b p).reportRound).setup]
          rfl
        rw [hp] at hq
        generalize Part.reportRound b p = q at *
        have hfind : (q.engine b).queue.find? (fun e => e.target = 63) = some e := by rw [hq]; exact he
        have hsent := hrest.trans ((Part.beginRound_broadcast hfind).trans (Part.beginSend_broadcast
          (by simpa using List.find?_some he) (by rw [Part.engine_modEngine_self, hq]; exact hstray)))
        rw [Part.modEngine_modEngine, show (Part.modEngine b _ q).branchSetup b = setup from hset] at hsent
        have hengine := Part.engine_modEngine_self b (Engine.sending setup .broadcast e false ∘ fun g =>
          { g with phase := .none, spoke := false, roundPart := .broadcast }) q
        rw [hq] at hengine
        exact ⟨_, hexec hsent, hsends _ _ _ _ _ hengine rfl, congrArg Engine.roundPart hengine, congrArg Engine.round hengine⟩
    case sweep =>
      have hturn := Part.turnaroundEnd_sweep hphase hx hcode hstate hpart hvisit
      let p : Part := Part.modEngine b Engine.between s.part
      have hp : p.engine b = g.between := Part.engine_modEngine_self ..
      have hpstray : (p.engine b).strayRun = none := by rw [hp]; exact hstray
      refine ⟨fun hms => ?_, fun hms hspoke => ?_⟩
      · have hopened := hturn.trans (Part.listenSlot_opens (p := p) hms hpstray)
        have hengine : (Part.openGate b (Part.modEngine b (Engine.listening setup.listenMs) p)).engine b
            = Engine.listening setup.listenMs g.between := by
          rw [← hp]
          exact Part.engine_modEngine_self ..
        refine ⟨_, hlistens p _ hengine rfl, hexec hopened, ?_⟩
        rw [State.withPart_part, hengine, Part.openGate, Part.sup_modSup_self]
        simp only [p, Part.modSup, Part.modEngine_modEngine]
        rfl
      · have hended := hturn.trans ((Part.listenSlot_none (p := p) hms).trans (Part.finishRound_spoke (by rw [hp]; exact hspoke)))
        have hq := Part.reportRound_engine b p
        have hcourse := (Courses.refl b (Part.reportRound b p)).beginRoundPadding
        rw [hp] at hq
        exact ⟨_, hexec hended, hcourse.round.trans (congrArg Engine.round hq :)⟩
    case initial =>
      have hturn := Part.turnaroundEnd_initial hphase hx hcode hstate hvisit
      let p : Part := Part.modEngine b Engine.between s.part
      have hp : p.engine b = g.between := Part.engine_modEngine_self ..
      have hpstray : (p.engine b).strayRun = none := by rw [hp]; exact hstray
      refine ⟨fun n buf hbuf hn hnext hfirst => ?_, fun hnone => ?_⟩
      · have hpolled := hturn.trans (Part.runInitial_first (p := p) (n := n) (stationNumbers_sorted.filter _)
          (List.mem_filter.mpr ⟨mem_stationNumbers.mpr ⟨hn.1, hn.2.1⟩, by simpa using hnext⟩) hn.2.2
          (fun m hm habs => ?_) (by rw [hp]; show g.reservation.isSome = true; rw [hbuf]; rfl) hpstray)
        · rw [Part.modEngine_modEngine] at hpolled
          have hengine := Part.engine_modEngine_self b (Engine.discovering setup n ∘ Engine.between) s.part
          exact ⟨_, honly _ hpolled, hpolls _ _ _ _ hengine rfl, (congrArg Engine.state hengine).trans hstate,
            congrArg Engine.initNext hengine, (congrArg Engine.sweepCursor hengine :), (congrArg Engine.round hengine :)⟩
        · obtain ⟨hm, hle⟩ := List.mem_filter.mp hm
          obtain ⟨h0, h63⟩ := mem_stationNumbers.mp hm
          exact hfirst m ⟨h0, h63, habs⟩ (by simpa using hle)
      · have hleft : ∀ m ∈ stationNumbers.filter (fun n => g.initNext ≤ n.val), (p.station b m).state ≠ .absent := by
          intro m hm habs
          obtain ⟨hm, hle⟩ := List.mem_filter.mp hm
          obtain ⟨h0, h63⟩ := mem_stationNumbers.mp hm
          have hlt := hnone m ⟨h0, h63, habs⟩
          have hle' : g.initNext ≤ m.val := by simpa using hle
          omega
        obtain ⟨k, hk⟩ := Part.runInitial_none hleft
        have hbegun := hturn.trans hk
        let q : Part := Part.modEngine b (fun g => { g with state := .rounds, initNext := k }) p
        have hq : q.engine b = { g.between with state := .rounds, initNext := k } := by
          rw [← hp]
          exact Part.engine_modEngine_self ..
        have hcourse := (Courses.refl b q).beginRoundPadding
        have hquiet := hcourse.quiet (by rw [hq]; exact hstray)
        exact ⟨_, hexec hbegun, hquiet.state.trans (congrArg Engine.state hq),
          hcourse.round.trans (congrArg Engine.round hq :)⟩

end Sys2Proof.Machine
end

section
/-! PROOF. The end of a listen slot and of a padding (O42). -/

namespace Sys2Proof.Machine

/-! ## The isolation test on a score (R132) -/

/-- The isolation that an error of kind number `k` asks for at a score. -/
def isoTest (x : BranchSetup) (st : SwitchState) (k score : Nat) : Option IsoReason :=
  if st ≠ .inService ∧ st ≠ .onTrial then none
  else if x.immediateMask.getLsbD k then some .immediate
  else if st = .inService ∧ x.ti ≤ score then some .score
  else if st = .onTrial ∧ x.tw ≤ score then some .trialFailed
  else none

theorem isoTest_other {x : BranchSetup} {st : SwitchState} {k score : Nat} (h : st.running = false) :
    isoTest x st k score = none := by
  cases st <;> first | rfl | exact nomatch h

theorem running_of_isoTest {x : BranchSetup} {st : SwitchState} {k score : Nat} {r : IsoReason}
    (h : isoTest x st k score = some r) : st.running = true := by
  cases hrun : st.running
  · rw [isoTest_other hrun] at h
    exact nomatch h
  · rfl

/-- A lower score asks for nothing more, and neither does a return to service with TW below TI. -/
theorem isoTest_mono {x : BranchSetup} {st st' : SwitchState} {k score score' : Nat} (htw : x.tw < x.ti)
    (hst : st' = st ∨ (st = .onTrial ∧ st' = .inService)) (hscore : score' ≤ score)
    (h : isoTest x st k score = none) : isoTest x st' k score' = none := by
  rcases hst with rfl | ⟨rfl, rfl⟩
  · unfold isoTest at h ⊢
    split at h
    · rw [if_pos ‹_›]
    split at h
    · exact nomatch h
    split at h
    · exact nomatch h
    split at h
    · exact nomatch h
    rw [if_neg ‹_›, if_neg ‹_›, if_neg fun hh => ‹¬ (st' = .inService ∧ x.ti ≤ score)› ⟨hh.1, Nat.le_trans hh.2 hscore⟩,
      if_neg fun hh => ‹¬ (st' = .onTrial ∧ x.tw ≤ score)› ⟨hh.1, Nat.le_trans hh.2 hscore⟩]
  · simp only [isoTest, reduceCtorEq, ne_eq, not_true_eq_false, not_false_eq_true, and_false, if_false, false_and,
      true_and, and_true] at h ⊢
    split at h
    · exact nomatch h
    · next hmask =>
      split at h
      · exact nomatch h
      · next hlow => rw [if_neg hmask, if_neg (by omega)]

/-! ## Several errors, one after another -/

/-- A supervisor after several errors have been scored. -/
def Supervisor.scoringAll (x : BranchSetup) (l : List ErrorReport) (u : Supervisor) : Supervisor :=
  l.foldl (fun u r => u.scoring x r) u

/-- The first isolation that several errors ask for. -/
def firstIso (x : BranchSetup) (st : SwitchState) : List ErrorReport → Supervisor → Option IsoReason
  | [], _ => none
  | r :: l, u => (isoTest x st r.kind.number.val (u.scoring x r).score).orElse fun _ => firstIso x st l (u.scoring x r)

/-- Of a supervisor only the score decides what several errors ask for. -/
theorem firstIso_score {x : BranchSetup} {st : SwitchState} (l : List ErrorReport) : ∀ {u u' : Supervisor},
    u'.score = u.score → firstIso x st l u' = firstIso x st l u := by
  induction l with
  | nil => exact fun _ => rfl
  | cons r l ih =>
    intro u u' h
    have hnext : (u'.scoring x r).score = (u.scoring x r).score := by simp only [Supervisor.scoring, h]
    simp only [firstIso, hnext, ih hnext]

theorem firstIso_other {x : BranchSetup} {st : SwitchState} (h : st.running = false) (l : List ErrorReport) :
    ∀ u : Supervisor, firstIso x st l u = none := by
  induction l with
  | nil => exact fun _ => rfl
  | cons r l ih =>
    intro u
    simp only [firstIso, isoTest_other h, ih]
    rfl

theorem firstIso_cons_none {x : BranchSetup} {st : SwitchState} {r : ErrorReport} {l : List ErrorReport}
    {u : Supervisor} : firstIso x st (r :: l) u = none ↔
      isoTest x st r.kind.number.val (u.scoring x r).score = none ∧ firstIso x st l (u.scoring x r) = none := by
  simp [firstIso]

theorem firstIso_mono {x : BranchSetup} {st st' : SwitchState} (htw : x.tw < x.ti)
    (hst : st' = st ∨ (st = .onTrial ∧ st' = .inService)) (l : List ErrorReport) : ∀ {u u' : Supervisor},
    u'.score ≤ u.score → firstIso x st l u = none → firstIso x st' l u' = none := by
  induction l with
  | nil => exact fun _ _ => rfl
  | cons r l ih =>
    intro u u' hscore h
    obtain ⟨htest, hrest⟩ := firstIso_cons_none.mp h
    have hnext : (u'.scoring x r).score ≤ (u.scoring x r).score := by
      simp only [Supervisor.scoring]
      omega
    exact firstIso_cons_none.mpr ⟨isoTest_mono htw hst hnext htest, ih hnext hrest⟩

/-- The warn flag has no part in the scoring. -/
theorem Supervisor.scoringAll_warn (x : BranchSetup) (l : List ErrorReport) : ∀ (u : Supervisor) (w : Bool),
    ({ u with warn := w } : Supervisor).scoringAll x l = { u.scoringAll x l with warn := w } := by
  induction l with
  | nil => exact fun _ _ => rfl
  | cons r l ih => exact fun u w => ih (u.scoring x r) w

namespace Part

section

variable {p : Part} {b : Branch}

/-- The isolation test of an error (R132). -/
theorem isolationTest_eq (b : Branch) (k : ErrorKind) (p : Part) : isolationTest b k p =
    match isoTest (p.branchSetup b) (p.switch b).state k.number.val (p.sup b).score with
    | some r => requestIsolation b r .isolated p
    | none => p := by
  by_cases hserves : (p.switch b).state = .inService
  · have hrun : (p.switch b).state.running = true := by rw [hserves]; rfl
    cases himm : inMask (p.branchSetup b).immediateMask k
    · rw [isolationTest_inService hserves himm]
      have hmask : (p.branchSetup b).immediateMask.getLsbD k.number.val = false := himm
      by_cases hscore : (p.branchSetup b).ti ≤ (p.sup b).score
      · rw [if_pos hscore]
        simp [isoTest, hserves, -BitVec.getLsbD_eq_getElem, hmask, hscore]
      · rw [if_neg hscore]
        simp [isoTest, hserves, -BitVec.getLsbD_eq_getElem, hmask, if_neg hscore]
    · have hmask : (p.branchSetup b).immediateMask.getLsbD k.number.val = true := himm
      rw [isolationTest_immediate hrun himm]
      simp [isoTest, hserves, -BitVec.getLsbD_eq_getElem, hmask]
  by_cases htrial : (p.switch b).state = .onTrial
  · have hrun : (p.switch b).state.running = true := by rw [htrial]; rfl
    cases himm : inMask (p.branchSetup b).immediateMask k
    · rw [isolationTest_onTrial htrial himm]
      have hmask : (p.branchSetup b).immediateMask.getLsbD k.number.val = false := himm
      by_cases hscore : (p.branchSetup b).tw ≤ (p.sup b).score
      · rw [if_pos hscore]
        simp [isoTest, htrial, -BitVec.getLsbD_eq_getElem, hmask, hscore]
      · rw [if_neg hscore]
        simp [isoTest, htrial, -BitVec.getLsbD_eq_getElem, hmask, if_neg hscore]
    · have hmask : (p.branchSetup b).immediateMask.getLsbD k.number.val = true := himm
      rw [isolationTest_immediate hrun himm]
      simp [isoTest, htrial, -BitVec.getLsbD_eq_getElem, hmask]
  · rw [isolationTest_other hserves htrial]
    simp [isoTest, hserves, htrial]

/-- The score of a scored error. -/
theorem scoreError_score (r : ErrorReport) (p : Part) :
    ((scoreError b r p).sup b).score = ((p.sup b).scoring (p.branchSetup b) r).score := by
  obtain ⟨w, hw⟩ := scoreError_sup b r p
  rw [hw]

/-- Handling an error: it is scored, and what the test asks for is requested. -/
theorem handleError_eq (r : ErrorReport) (p : Part) : handleError b r p =
    match isoTest (p.branchSetup b) (p.switch b).state r.kind.number.val
      ((p.sup b).scoring (p.branchSetup b) r).score with
    | some reason => requestIsolation b reason .isolated (scoreError b r p)
    | none => scoreError b r p := by
  rw [handleError, isolationTest_eq, scoreError_score]
  simp only [scoreError_views]

theorem handleAll_cons (r : ErrorReport) (l : List ErrorReport) (p : Part) :
    handleAll b (r :: l) p = handleAll b l (handleError b r p) := rfl

theorem scoreAll_cons (r : ErrorReport) (l : List ErrorReport) (p : Part) :
    scoreAll b (r :: l) p = scoreAll b l (scoreError b r p) := rfl

theorem scoreAll_sup (l : List ErrorReport) (p : Part) :
    ∃ w, (scoreAll b l p).sup b = { (p.sup b).scoringAll (p.branchSetup b) l with warn := w } := by
  induction l generalizing p with
  | nil => exact ⟨(p.sup b).warn, rfl⟩
  | cons r l ih =>
    obtain ⟨w, hw⟩ := scoreError_sup b r p
    obtain ⟨v, hv⟩ := ih (scoreError b r p)
    refine ⟨v, ?_⟩
    have hsetup : (scoreError b r p).branchSetup b = p.branchSetup b := by simp
    rw [scoreAll_cons, hv, hw, hsetup, Supervisor.scoringAll_warn]
    rfl

/-- Errors that ask for nothing are scored. -/
theorem handleAll_calm (l : List ErrorReport) : ∀ {p : Part},
    firstIso (p.branchSetup b) (p.switch b).state l (p.sup b) = none → handleAll b l p = scoreAll b l p := by
  induction l with
  | nil => exact fun _ => rfl
  | cons r l ih =>
    intro p h
    obtain ⟨htest, hrest⟩ := firstIso_cons_none.mp h
    rw [handleAll_cons, scoreAll_cons, handleError_eq, htest]
    refine ih ?_
    have hscore := firstIso_score (x := p.branchSetup b) (st := (p.switch b).state) l (scoreError_score (b := b) r p)
    have hsetup : (scoreError b r p).branchSetup b = p.branchSetup b := by simp
    have hswitch : (scoreError b r p).switch b = p.switch b := by simp
    rw [hsetup, hswitch, hscore, hrest]

/-- An isolation between two exchanges stops the engine at once (R25, R144). -/
theorem requestIsolation_stops {r : IsoReason} {d : Destination} (h : (p.switch b).state.running = true)
    (hrun : (p.engine b).state.running = true) (hphase : (p.engine b).phase.inExchange = false)
    (hlisten : (p.engine b).phase ≠ .listen) : ((requestIsolation b r d p).engine b).state = .stopped := by
  let q : Part := setSwitch b .draining (modSwitch b (isolating r d) p)
  have hq : q.engine b = p.engine b := by simp [q]
  rw [requestIsolation_running h]
  change ((stopRequest b q).engine b).state = .stopped
  clear_value q
  rw [stopRequest_between (by rw [hq, hrun]) (by rw [hq, hphase]) (by rw [hq]; exact hlisten)]
  have hkept : ((stopReported b (enterStopped b q)).engine b).state = ((enterStopped b q).engine b).state :=
    (congrArg Engine.state (stopReported_unqueued b (enterStopped b q)) :)
  rw [hkept, enterStopped_engine]
  rfl

/-- The first of several errors that asks for an isolation gets it; the others are scored. -/
theorem handleAll_isolates {reason : IsoReason} (l : List ErrorReport) : ∀ {p : Part},
    firstIso (p.branchSetup b) (p.switch b).state l (p.sup b) = some reason →
    (p.engine b).state.running = true → (p.engine b).phase.inExchange = false → (p.engine b).phase ≠ .listen →
    (p.engine b).strayRun = none →
    ((handleAll b l p).switch b).reason = some reason ∧ ((handleAll b l p).engine b).state = .stopped
      ∧ ∃ w, (handleAll b l p).sup b = { (p.sup b).scoringAll (p.branchSetup b) l with warn := w } := by
  induction l with
  | nil => exact fun h => nomatch h
  | cons r l ih =>
    intro p h hrun hphase hlisten hstray
    obtain ⟨w, hw⟩ := scoreError_sup b r p
    have hsetup : (scoreError b r p).branchSetup b = p.branchSetup b := by simp
    have hswitch : (scoreError b r p).switch b = p.switch b := by simp
    have hengine : (scoreError b r p).engine b = p.engine b := by simp
    have hcons : ∀ v, { ({ (p.sup b).scoring (p.branchSetup b) r with warn := w } : Supervisor).scoringAll
        (p.branchSetup b) l with warn := v } = { (p.sup b).scoringAll (p.branchSetup b) (r :: l) with warn := v } :=
      fun v => by rw [Supervisor.scoringAll_warn]; rfl
    rw [handleAll_cons, handleError_eq]
    simp only [firstIso] at h
    cases htest : isoTest (p.branchSetup b) (p.switch b).state r.kind.number.val
        ((p.sup b).scoring (p.branchSetup b) r).score with
    | some asked =>
      rw [htest] at h
      cases h
      have hserves : ((scoreError b r p).switch b).state.running = true := by rw [hswitch, running_of_isoTest htest]
      let q : Part := requestIsolation b reason .isolated (scoreError b r p)
      obtain ⟨hreason, _, hstate⟩ := requestIsolation_asked (r := reason) (d := .isolated) hserves
      have hsups : q.sups = (scoreError b r p).sups := requestIsolation_sups reason .isolated
        (by rw [hengine]; exact hlisten) (by rw [hengine, hstray])
      have hstopped : (q.engine b).state = .stopped := requestIsolation_stops hserves (by rw [hengine, hrun])
        (by rw [hengine, hphase]) (by rw [hengine]; exact hlisten)
      have hoff : (q.switch b).state.running = false := by
        rcases hstate with hstate | hstate <;> exact (congrArg SwitchState.running hstate :)
      have hqsetup : q.branchSetup b = p.branchSetup b := by simp [q]
      obtain ⟨v, hv⟩ := scoreAll_sup (b := b) l q
      have hscored : handleAll b l q = scoreAll b l q := handleAll_calm l (firstIso_other hoff l _)
      refine (?_ : ((handleAll b l q).switch b).reason = some reason ∧ ((handleAll b l q).engine b).state = .stopped
        ∧ ∃ w, (handleAll b l q).sup b = { (p.sup b).scoringAll (p.branchSetup b) (r :: l) with warn := w })
      have hqsup : q.sup b = { (p.sup b).scoring (p.branchSetup b) r with warn := w } := by rw [sup_def, hsups]; exact hw
      have hsame := scoreAll_views b l q
      rw [hqsup, hqsetup, hcons] at hv
      rw [hscored, hsame.1, hsame.2.1]
      exact ⟨hreason, hstopped, v, hv⟩
    | none =>
      rw [htest] at h
      have hrest : firstIso (p.branchSetup b) (p.switch b).state l ((p.sup b).scoring (p.branchSetup b) r) = some reason := h
      have hscore := firstIso_score (x := p.branchSetup b) (st := (p.switch b).state) l (scoreError_score (b := b) r p)
      obtain ⟨hreason, hstopped, v, hv⟩ := ih (p := scoreError b r p) (by rw [hsetup, hswitch, hscore, hrest])
        (by rw [hengine, hrun]) (by rw [hengine, hphase]) (by rw [hengine]; exact hlisten) (by rw [hengine, hstray])
      rw [hw, hsetup] at hv
      exact ⟨hreason, hstopped, v, hv.trans (hcons v)⟩

end

end Part

/-! ## The reports of a slot (R126) -/

theorem number_stray : ((4 : Fin 8) : Nat) = 4 := rfl

theorem number_noise : ((5 : Fin 8) : Nat) = 5 := rfl

/-- The errors of a judged slot: NOISE with the edges counted, STRAY with the characters seen. -/
def slotErrors (noise stray : Bool) (x : Gate) (stamp : Nat) : List ErrorReport :=
  (if noise then [{ kind := .noise, station := 0, chars := [], detail := x.edges, stamp := stamp }] else [])
  ++ if stray then [{ kind := .stray, station := 0, chars := x.chars, detail := 0, stamp := stamp }] else []

/-- The weights that a slot's errors add to the score. -/
def slotWeight (x : BranchSetup) (noise stray : Bool) : Nat :=
  (if noise then x.weights.get 5 else 0) + if stray then x.weights.get 4 else 0

/-- The isolation that a slot's errors ask for. -/
def slotRequest (x : BranchSetup) (st : SwitchState) (noise stray : Bool) (score : Nat) : Option IsoReason :=
  if noise ∧ (isoTest x st 5 (min 1023 (score + if noise then x.weights.get 5 else 0))).isSome then
    isoTest x st 5 (min 1023 (score + if noise then x.weights.get 5 else 0))
  else if stray then isoTest x st 4 (min 1023 (score + slotWeight x noise stray)) else none

theorem firstIso_slotErrors {x : BranchSetup} {st : SwitchState} (noise stray : Bool) (gate : Gate) (stamp : Nat)
    (u : Supervisor) : firstIso x st (slotErrors noise stray gate stamp) u = slotRequest x st noise stray u.score := by
  cases noise <;> cases stray
  · rfl
  · simp [slotErrors, slotRequest, slotWeight, firstIso, Supervisor.scoring, ErrorKind.number, number_stray, number_noise]
  · simp [slotErrors, slotRequest, firstIso, Supervisor.scoring, ErrorKind.number, number_stray, number_noise]
  · have hscore : min 1023 (min 1023 (u.score + x.weights.get 5) + x.weights.get 4) =
        min 1023 (u.score + (x.weights.get 5 + x.weights.get 4)) := by omega
    simp [slotErrors, slotRequest, slotWeight, firstIso, Supervisor.scoring, ErrorKind.number, number_stray, number_noise, hscore]
    cases isoTest x st 5 (min 1023 (u.score + x.weights.get 5)) <;> rfl

theorem slotErrors_score {x : BranchSetup} (noise stray : Bool) (gate : Gate) (stamp : Nat) {u : Supervisor}
    (h : (noise || stray) = true) : (u.scoringAll x (slotErrors noise stray gate stamp)).score =
      min 1023 (u.score + slotWeight x noise stray) := by
  cases noise <;> cases stray
  · exact nomatch h
  · simp [slotErrors, slotWeight, Supervisor.scoringAll, Supervisor.scoring, ErrorKind.number]
  · simp [slotErrors, slotWeight, Supervisor.scoringAll, Supervisor.scoring, ErrorKind.number]
  · simp [slotErrors, slotWeight, Supervisor.scoringAll, Supervisor.scoring, ErrorKind.number]
    omega

/-- What a slot's errors make of a supervisor besides the score. -/
structure SlotScored (x : BranchSetup) (noise stray : Bool) (gate : Gate) (stamp : Nat) (u v : Supervisor) : Prop where
  clean : v.clean = false
  noises : v.kinds.get 5 = if noise then satInc 65535 (u.kinds.get 5) else u.kinds.get 5
  strays : v.kinds.get 4 = if stray then satInc 65535 (u.kinds.get 4) else u.kinds.get 4
  capture : x.captureMask.getLsbD 5 = true → x.captureMask.getLsbD 4 = true → u.capture.valid = false →
    v.capture = if noise then
        { valid := true, kind := .noise, station := 0, stamp := stamp, chars := [], detail := gate.edges
          further := if stray then 1 else 0 }
      else
        { valid := true, kind := .stray, station := 0, stamp := stamp, chars := gate.chars.take 8, detail := 0
          further := 0 }

theorem slotErrors_scored {x : BranchSetup} (noise stray : Bool) (gate : Gate) (stamp : Nat) (u : Supervisor)
    (h : (noise || stray) = true) :
    SlotScored x noise stray gate stamp u (u.scoringAll x (slotErrors noise stray gate stamp)) := by
  have hnoises : ∀ (k : Nat), (put u.kinds 5 k).get 4 = u.kinds.get 4 := fun k => get_put_ne _ _ _ k (by decide)
  have hstrays : ∀ (k : Nat) (v : Vector Nat 8), (put v 4 k).get 5 = v.get 5 := fun k v => get_put_ne _ _ _ k (by decide)
  cases noise <;> cases stray
  · exact nomatch h
  · refine ⟨rfl, hstrays .., get_put_self .., fun _ hmask hvalid => ?_⟩
    simp [slotErrors, Supervisor.scoringAll, Supervisor.scoring, Capture.noting, inMask, ErrorKind.number, number_stray, number_noise, hvalid,
      -BitVec.getLsbD_eq_getElem, hmask]
  · refine ⟨rfl, get_put_self .., hnoises .., fun hmask _ hvalid => ?_⟩
    simp [slotErrors, Supervisor.scoringAll, Supervisor.scoring, Capture.noting, inMask, ErrorKind.number, number_stray, number_noise, hvalid,
      -BitVec.getLsbD_eq_getElem, hmask]
  · refine ⟨rfl, ?_, ?_, fun hnoise hstray hvalid => ?_⟩
    · exact (hstrays ..).trans (get_put_self ..)
    · exact (get_put_self ..).trans (congrArg (satInc 65535) (hnoises _))
    · simp [slotErrors, Supervisor.scoringAll, Supervisor.scoring, Capture.noting, inMask, ErrorKind.number, number_stray, number_noise, hvalid,
        -BitVec.getLsbD_eq_getElem, hnoise, hstray]

/-! ## The report of a round (R10, R130, R150) -/

/-- A supervisor's score as a round is credited (R130). -/
def Supervisor.credit (x : BranchSetup) (u : Supervisor) : Nat := if u.clean then u.score - x.c else u.score

theorem Supervisor.credit_le (x : BranchSetup) (u : Supervisor) : u.credit x ≤ u.score := by
  unfold Supervisor.credit
  split <;> omega

namespace Part

section

variable {p : Part} {b : Branch}

theorem gateReports_eq (b : Branch) (p : Part) : p.gateReports b =
    slotErrors (decide ((p.branchSetup b).noiseLimit < (p.sup b).gate.edges)) (decide (0 < (p.sup b).gate.complete))
      (p.sup b).gate (p.engine b).round := by
  simp [gateReports, slotErrors]

theorem creditRound_sup (b : Branch) (p : Part) : ∃ w, (creditRound b p).sup b =
    { p.sup b with score := (p.sup b).credit (p.branchSetup b), clean := true, warn := w } := by
  unfold creditRound
  extract_lets q
  obtain ⟨w, hw⟩ : ∃ w, q.sup b = { p.sup b with score := (p.sup b).credit (p.branchSetup b), warn := w } := by
    unfold q Supervisor.credit
    cases hclean : (p.sup b).clean
    · exact ⟨(p.sup b).warn, rfl⟩
    · obtain ⟨w, hw⟩ := warnTest_sup b (modSup b (fun s => { s with score := s.score - (p.branchSetup b).c }) p)
      exact ⟨w, hw.trans (by rw [sup_modSup_self]; simp [hclean])⟩
  exact ⟨w, by rw [sup_modSup_self, hw]⟩

theorem trialRound_other (h : (p.switch b).state ≠ .onTrial) : trialRound b p = p := if_neg h

theorem trialRound_counts (h : (p.switch b).state = .onTrial)
    (hmore : (p.switch b).trial + 1 < (p.branchSetup b).trialRounds) :
    trialRound b p = modSwitch b (fun w => { w with trial := w.trial + 1 }) p := by
  simp only [trialRound, h, if_true, if_neg (Nat.not_le.mpr hmore)]

theorem trialRound_restores (h : (p.switch b).state = .onTrial)
    (hlast : (p.branchSetup b).trialRounds ≤ (p.switch b).trial + 1) : trialRound b p =
      notify .restored (setSwitch b .inService (modSwitch b (fun w => { w with trial := w.trial + 1 }) p)) := by
  simp only [trialRound, h, if_true, if_pos hlast]

theorem trialRound_sup (b : Branch) (p : Part) : (trialRound b p).sup b = p.sup b := by
  by_cases htrial : (p.switch b).state = .onTrial
  · by_cases hmore : (p.switch b).trial + 1 < (p.branchSetup b).trialRounds
    · rw [trialRound_counts htrial hmore]
      simp
    · rw [trialRound_restores htrial (Nat.not_lt.mp hmore)]
      simp
  · rw [trialRound_other htrial]

/-- What the report of a round makes of the switch: on trial it counts a round, and the last one returns the branch to
service (R150). -/
structure Counts (x : BranchSetup) (w : Switch) (latches : BitVec 16) (v : Switch) : Prop where
  other : w.state ≠ .onTrial → v = w
  trial : w.state = .onTrial → v.trial = w.trial + 1
  stays : w.state = .onTrial → w.trial + 1 < x.trialRounds → v.state = .onTrial
  returns : w.state = .onTrial → x.trialRounds ≤ w.trial + 1 → v.state = .inService ∧ latches.getLsbD 2 = true

theorem trialRound_switch (b : Branch) (p : Part) :
    Counts (p.branchSetup b) (p.switch b) (trialRound b p).notices.latches ((trialRound b p).switch b) := by
  by_cases htrial : (p.switch b).state = .onTrial
  · by_cases hmore : (p.switch b).trial + 1 < (p.branchSetup b).trialRounds
    · rw [trialRound_counts htrial hmore]
      refine ⟨fun h => absurd htrial h, fun _ => by simp, fun _ _ => by simpa using htrial, fun _ h => absurd h ?_⟩
      omega
    · rw [trialRound_restores htrial (Nat.not_lt.mp hmore)]
      refine ⟨fun h => absurd htrial h, fun _ => ?_, fun _ h => absurd h hmore, fun _ _ => ⟨?_, ?_⟩⟩
      · simp [Switch.entering]
      · simp [Switch.entering]
      · simpa using .inr (by decide)
  · rw [trialRound_other htrial]
    exact ⟨fun _ => rfl, fun h => absurd h htrial, fun h => absurd h htrial, fun h => absurd h htrial⟩

theorem Counts.state {x : BranchSetup} {w v : Switch} {latches : BitVec 16} (h : Counts x w latches v) :
    v.state = w.state ∨ (w.state = .onTrial ∧ v.state = .inService) := by
  by_cases htrial : w.state = .onTrial
  · by_cases hmore : w.trial + 1 < x.trialRounds
    · exact .inl ((h.stays htrial hmore).trans htrial.symm)
    · exact .inr ⟨htrial, (h.returns htrial (Nat.not_lt.mp hmore)).1⟩
  · exact .inl (congrArg Switch.state (h.other htrial))

theorem reportRound_branchSetup (b : Branch) (p : Part) : (reportRound b p).branchSetup b = p.branchSetup b := by
  simp only [branchSetup, ((Confined.refl b p).reportRound).setup]

theorem reportRound_sup (b : Branch) (p : Part) : ∃ w, (reportRound b p).sup b =
    { p.sup b with score := (p.sup b).credit (p.branchSetup b), clean := true, warn := w } := by
  obtain ⟨w, hw⟩ := creditRound_sup b (modEngine b (fun g => { g with phase := .none, round := wrapInc g.round }) p)
  exact ⟨w, (trialRound_sup ..).trans hw⟩

theorem reportRound_switch (b : Branch) (p : Part) :
    Counts (p.branchSetup b) (p.switch b) (reportRound b p).notices.latches ((reportRound b p).switch b) := by
  let q : Part := creditRound b (modEngine b (fun g => { g with phase := .none, round := wrapInc g.round }) p)
  have hswitch : q.switch b = p.switch b := by simp [q]
  have hsetup : q.branchSetup b = p.branchSetup b := by simp [q]
  rw [← hswitch, ← hsetup]
  exact trialRound_switch b q

/-! ## What the end of a round leaves (R10) -/

/-- A part after the report of a round, as the next round has begun. -/
structure RoundEnded (b : Branch) (p t : Part) : Prop where
  round : (t.engine b).round = ((p.engine b).round + 1) % 65536
  counts : (p.engine b).strayRun = none → Counts (p.branchSetup b) (p.switch b) t.notices.latches (t.switch b)

theorem Counts.keeps {x : BranchSetup} {w v : Switch} {latches latches' : BitVec 16} (h : Counts x w latches v)
    (hl : ∃ y, latches' = latches ||| y) : Counts x w latches' v := by
  obtain ⟨y, rfl⟩ := hl
  refine ⟨h.other, h.trial, h.stays, fun htrial hlast => ?_⟩
  obtain ⟨hstate, hbit⟩ := h.returns htrial hlast
  exact ⟨hstate, by rw [BitVec.getLsbD_or, hbit, Bool.true_or]⟩

/-- The next round begins after errors have been scored. -/
theorem beginRound_ended (l : List ErrorReport) (p : Part) :
    RoundEnded b p (beginRound b (startPadding b) (scoreAll b l (reportRound b p))) := by
  let o : Part := scoreAll b l (reportRound b p)
  have hengine : o.engine b = { p.engine b with phase := .none, round := wrapInc (p.engine b).round } :=
    (scoreAll_views b l _).1 b |>.trans (reportRound_engine b p)
  have hswitch : o.switch b = (reportRound b p).switch b := (scoreAll_views b l _).2.1 b
  obtain ⟨hround, hquiet⟩ := (Courses.refl b o).beginRoundPadding
  refine ⟨hround.trans (congrArg Engine.round hengine), fun hstray => ?_⟩
  obtain ⟨_, _, hsame, _, hlatches, _⟩ := hquiet (by rw [hengine]; exact hstray)
  rw [hsame, hswitch]
  exact ((reportRound_switch b p).keeps (scoreAll_latches l _)).keeps hlatches

/-- The supervisor then is the one whose errors have been scored, its gate aside. -/
theorem beginRound_ended_sup (l : List ErrorReport) (p : Part) (hstray : (p.engine b).strayRun = none) : ∃ gate w,
    (beginRound b (startPadding b) (scoreAll b l (reportRound b p))).sup b =
      { ((reportRound b p).sup b).scoringAll (p.branchSetup b) l with gate := gate, warn := w } := by
  let o : Part := scoreAll b l (reportRound b p)
  have hengine : o.engine b = { p.engine b with phase := .none, round := wrapInc (p.engine b).round } :=
    (scoreAll_views b l _).1 b |>.trans (reportRound_engine b p)
  obtain ⟨_, _, _, ⟨gate, hsup⟩, _, _⟩ := (Courses.refl b o).beginRoundPadding.quiet (by rw [hengine]; exact hstray)
  obtain ⟨w, hw⟩ := scoreAll_sup (b := b) l (reportRound b p)
  rw [reportRound_branchSetup] at hw
  exact ⟨gate, w, hsup.trans (by rw [hw])⟩

/-! ## The end of a listen slot (R14, R126) -/

/-- The part as its slot is judged: the gate is closed and the engine between two parts of its round. -/
def slotClosed (b : Branch) (p : Part) : Part :=
  modEngine b (fun g => { g with phase := .none, listen := none, arriving := g.arriving.map ArriveIn.slotEnded })
    (closeGate b p)

theorem slotClosed_reports (b : Branch) (p : Part) : (slotClosed b p).gateReports b =
    slotErrors (decide ((p.branchSetup b).noiseLimit < (p.sup b).gate.edges)) (decide (0 < (p.sup b).gate.complete))
      { (p.sup b).gate with isOpen := false } (p.engine b).round := by
  rw [gateReports_eq]
  simp [slotClosed, closeGate]

/-- Where nothing stops the engine, the end of the round is taken before the slot's errors are scored. -/
theorem listenEnd_ends {l : List ErrorReport} (hphase : (p.engine b).phase = .listen)
    (hstate : (p.engine b).state = .rounds) (hl : (slotClosed b p).gateReports b = l)
    (hbefore : handleAll b l (slotClosed b p) = scoreAll b l (slotClosed b p))
    (hafter : handleAll b l (reportRound b (slotClosed b p)) = scoreAll b l (reportRound b (slotClosed b p))) :
    listenEnd b p = beginRound b (startPadding b) (scoreAll b l (reportRound b (slotClosed b p))) := by
  have h1 : ((handleAll b l (slotClosed b p)).engine b).state = .rounds := by
    rw [hbefore, (scoreAll_views b l _).1 b]
    simpa [slotClosed, closeGate] using hstate
  have h2 : ((handleAll b l (reportRound b (slotClosed b p))).engine b).state = .rounds := by
    rw [hafter, (scoreAll_views b l _).1 b, reportRound_engine]
    simpa [slotClosed, closeGate] using hstate
  unfold listenEnd
  rw [if_pos hphase]
  change (if ((handleAll b ((slotClosed b p).gateReports b) (slotClosed b p)).engine b).state = .rounds then
    if ((handleAll b ((slotClosed b p).gateReports b) (reportRound b (slotClosed b p))).engine b).state = .rounds then
      beginRound b (startPadding b) (handleAll b ((slotClosed b p).gateReports b) (reportRound b (slotClosed b p)))
    else handleAll b ((slotClosed b p).gateReports b) (reportRound b (slotClosed b p))
    else handleAll b ((slotClosed b p).gateReports b) (slotClosed b p)) = _
  rw [hl, if_pos h1, if_pos h2, hafter]

/-- Where an error stops the engine, the round does not end. -/
theorem listenEnd_stops {l : List ErrorReport} (hphase : (p.engine b).phase = .listen)
    (hl : (slotClosed b p).gateReports b = l) (hstops : ((handleAll b l (slotClosed b p)).engine b).state = .stopped) :
    listenEnd b p = handleAll b l (slotClosed b p) := by
  have hne : ((handleAll b l (slotClosed b p)).engine b).state ≠ .rounds := by rw [hstops]; decide
  unfold listenEnd
  rw [if_pos hphase]
  change (if ((handleAll b ((slotClosed b p).gateReports b) (slotClosed b p)).engine b).state = .rounds then _
    else handleAll b ((slotClosed b p).gateReports b) (slotClosed b p)) = _
  rw [hl, if_neg hne]

theorem listenEnd_other (h : (p.engine b).phase ≠ .listen) : listenEnd b p = p := if_neg h

theorem paddingEnd_ends (h : (p.engine b).phase = .padding) :
    paddingEnd b p = beginRound b (startPadding b) (scoreAll b [] (reportRound b p)) := if_pos h

theorem paddingEnd_other (h : (p.engine b).phase ≠ .padding) : paddingEnd b p = p := if_neg h

end

end Part

end Sys2Proof.Machine
end

section
/-! PROOF. The end of a listen slot and of a padding: the obligation (O42). -/

namespace Sys2Proof.Machine

/-- What the gate and the warn flag are has no part in the scoring of a slot's errors. -/
theorem SlotScored.regated {x : BranchSetup} {noise stray : Bool} {gate : Gate} {stamp : Nat} {u v : Supervisor}
    (h : SlotScored x noise stray gate stamp u v) (other : Gate) (w : Bool) :
    SlotScored x noise stray gate stamp u { v with gate := other, warn := w } :=
  ⟨h.clean, h.noises, h.strays, h.capture⟩

theorem Supervisor.scoringAll_gate (x : BranchSetup) (l : List ErrorReport) : ∀ u : Supervisor,
    (u.scoringAll x l).gate = u.gate := by
  induction l with
  | nil => exact fun _ => rfl
  | cons r l ih => exact fun u => ih (u.scoring x r)

/-- Settles O42: the slot's errors handled where one stops the engine, and scored after the report of the round where
none does. -/
theorem listenSlotsAndPaddingEndTheRound : Obligations.ListenSlotsAndPaddingEndTheRound := by
  intro s b hheld g u w set trials c credit counted credited noise stray first weight test request handled
  have hexec : ∀ {q}, Part.listenEnd b s.part = q → exec c s = .next (s.withPart q) := onPart_awake_eq hheld
  have hpadding : ∀ {q}, Part.paddingEnd b s.part = q → exec (.paddingEnd b) s = .next (s.withPart q) :=
    onPart_awake_eq hheld
  have hcounted : ∀ {p t : Part}, (p.engine b).round = g.round → (p.engine b).strayRun = g.strayRun →
      p.branchSetup b = set → p.switch b = w → Part.RoundEnded b p t → counted (s.withPart t) := by
    intro p t hround hstray hset hw h
    refine ⟨h.round.trans (by rw [hround]), rfl, fun hnone => ?_⟩
    obtain ⟨hother, htrial, hstays, hreturns⟩ := h.counts (hstray.trans hnone)
    rw [hset, hw] at hstays hreturns
    rw [hw] at hother htrial
    exact ⟨hother, fun ht => ⟨htrial ht, hstays ht, hreturns ht⟩⟩
  have hcredited : ∀ {p : Part}, (p.engine b).round = g.round → (p.engine b).strayRun = g.strayRun →
      p.branchSetup b = set → p.switch b = w → (p.sup b).clean = u.clean → (p.sup b).score = u.score →
      credited (s.withPart (Part.beginRound b (Part.startPadding b) (Part.scoreAll b [] (Part.reportRound b p)))) := by
    intro p hround hstray hset hw hclean hscore
    refine ⟨hcounted hround hstray hset hw (Part.beginRound_ended [] p), fun hnone => ?_⟩
    obtain ⟨gate, v, hsup⟩ := Part.beginRound_ended_sup [] p (hstray.trans hnone)
    obtain ⟨v', hreport⟩ := Part.reportRound_sup b p
    rw [hreport] at hsup
    refine ⟨(congrArg Supervisor.clean hsup :), (congrArg Supervisor.score hsup :).trans ?_⟩
    show (p.sup b).credit (p.branchSetup b) = credit
    simp only [Supervisor.credit, hclean, hscore, hset, credit]
  let closed : Gate := { u.gate with isOpen := false }
  let shut : Supervisor := { u with gate := closed }
  have hhandled : ∀ {u' : Supervisor} {t : Part}, u'.kinds = u.kinds → u'.capture = u.capture →
      (noise = true ∨ stray = true) → (∃ gate v, t.sup b =
        { u'.scoringAll set (slotErrors noise stray closed g.round) with gate := gate, warn := v }) →
      handled (s.withPart t) := by
    rintro u' t hkinds hcapture herror ⟨gate, v, ht⟩
    have hscored := slotErrors_scored (x := set) noise stray { u.gate with isOpen := false } g.round u'
      (by simpa using herror)
    obtain ⟨hclean, hnoises, hstrays, hcaptured⟩ := hscored.regated gate v
    rw [← ht, hkinds] at hnoises hstrays
    rw [← ht] at hclean
    rw [← ht, hcapture] at hcaptured
    exact ⟨hclean, rfl, hnoises, hstrays, hcaptured⟩
  refine ⟨fun hphase hstate => ?slot, fun hphase => ?pads, fun hphase => hpadding (Part.paddingEnd_other hphase),
    fun hphase => hexec (Part.listenEnd_other hphase)⟩
  case pads =>
    exact ⟨_, hpadding (Part.paddingEnd_ends hphase), hcredited rfl rfl rfl rfl rfl rfl⟩
  case slot =>
    have hreports : (Part.slotClosed b s.part).gateReports b = slotErrors noise stray closed g.round :=
      Part.slotClosed_reports b s.part
    have hengine : (Part.slotClosed b s.part).engine b = { g with
        phase := .none, listen := none, arriving := g.arriving.map Part.ArriveIn.slotEnded } := by
      simp [Part.slotClosed, Part.closeGate, g]
    have hsup : (Part.slotClosed b s.part).sup b = shut := by
      simp [Part.slotClosed, Part.closeGate, shut, closed, u]
    have hset : (Part.slotClosed b s.part).branchSetup b = set := by simp [Part.slotClosed, Part.closeGate, set]
    have hw : (Part.slotClosed b s.part).switch b = w := by simp [Part.slotClosed, Part.closeGate, w]
    have hround : ((Part.slotClosed b s.part).engine b).round = g.round := (congrArg Engine.round hengine :)
    have hkept : ((Part.slotClosed b s.part).engine b).strayRun = g.strayRun := (congrArg Engine.strayRun hengine :)
    have hrun : ((Part.slotClosed b s.part).engine b).state.running = true := by
      rw [(congrArg Engine.state hengine :), hstate]
      rfl
    have hrests : ((Part.slotClosed b s.part).engine b).phase = .none := congrArg Engine.phase hengine
    have hends := Part.listenEnd_ends hphase hstate hreports
    have hstops := Part.listenEnd_stops hphase hreports
    clear hengine
    generalize Part.slotClosed b s.part = q at *
    refine ⟨fun hnoise hstray => ?quiet, fun herror hnone => ⟨fun r hr => ?isolates, fun hr htw => ?scores⟩⟩
    case quiet =>
      rw [hnoise, hstray] at hends
      exact ⟨_, hexec (hends rfl rfl), hcredited hround hkept hset hw (congrArg Supervisor.clean hsup :)
        (congrArg Supervisor.score hsup :)⟩
    case isolates =>
      have hfirst : firstIso (q.branchSetup b) (q.switch b).state (slotErrors noise stray closed g.round) (q.sup b) =
          some r := by
        rw [firstIso_slotErrors, hset, hw, hsup]
        exact hr
      obtain ⟨hreason, hstopped, v, hv⟩ := Part.handleAll_isolates _ hfirst hrun (by rw [hrests]; rfl)
        (by rw [hrests]; decide) (hkept.trans hnone)
      rw [hset, hsup] at hv
      refine ⟨_, hexec (hstops hstopped), hhandled (u' := shut) rfl rfl herror ⟨_, v, hv⟩, ?_, ?_, hreason, hstopped,
        (Part.handleAll_round ..).trans hround⟩
      · rw [State.withPart_part, hv]
        exact (congrArg Gate.isOpen (Supervisor.scoringAll_gate ..) :)
      · rw [State.withPart_part, hv]
        exact slotErrors_score (u := shut) noise stray closed g.round (by simpa using herror)
    case scores =>
      have hbefore : firstIso (q.branchSetup b) (q.switch b).state (slotErrors noise stray closed g.round) (q.sup b) =
          none := by
        rw [firstIso_slotErrors, hset, hw, hsup]
        exact hr
      have hafter : firstIso ((Part.reportRound b q).branchSetup b) ((Part.reportRound b q).switch b).state
          (slotErrors noise stray closed g.round) ((Part.reportRound b q).sup b) = none := by
        obtain ⟨v, hv⟩ := Part.reportRound_sup b q
        rw [Part.reportRound_branchSetup, hv]
        refine firstIso_mono (by rw [hset]; exact htw) ?_ _ ?_ hbefore
        · exact (Part.reportRound_switch b q).state
        · exact Supervisor.credit_le ..
      have ht := hends (Part.handleAll_calm _ hbefore) (Part.handleAll_calm _ hafter)
      obtain ⟨gate, v, hv⟩ := Part.beginRound_ended_sup (slotErrors noise stray closed g.round) q (hkept.trans hnone)
      obtain ⟨v', hreport⟩ := Part.reportRound_sup b q
      rw [hset] at hv
      refine ⟨_, hexec ht, hhandled ?_ ?_ herror ⟨gate, v, hv⟩, hcounted hround hkept hset hw (Part.beginRound_ended _ q), ?_⟩
      · rw [hreport, hsup]
      · rw [hreport, hsup]
      · rw [State.withPart_part, hv]
        refine (slotErrors_score noise stray closed g.round (by simpa using herror)).trans ?_
        rw [hreport, hset, hsup]
        rfl

end Sys2Proof.Machine
end

section
/-! PROOF. The end of a relay movement (O45). -/

namespace Sys2Proof.Machine

/-- A switch as its isolation has settled, the probe and the entry aside. -/
def Switch.settled (w : Switch) : Switch :=
  { w with dest := none, isolations := if w.dest = some .lockedOut then w.isolations else satInc 7 w.isolations }

namespace Part

section

variable {p : Part} {b : Branch}

/-! ## The initial sweep's first POLL (R9) -/

theorem beginPoll_begins {kind : ExchKind} {n : StationNo} (hstray : (p.engine b).strayRun = none)
    (hfree : p.pool.free ≠ []) : ∃ t, beginPoll b kind n p = some t ∧ Quiet b p t
      ∧ (t.engine b).phase = .transmit ∧ (t.engine b).sent = [ctlChar .poll n] := by
  cases hreserved : (p.engine b).reservation with
  | some buf =>
    have ht := beginPoll_held (kind := kind) (n := n) (by rw [hreserved]; rfl) hstray
    refine ⟨_, ht, ((Courses.refl b p).beginPoll ht).quiet hstray, ?_, ?_⟩ <;> rw [engine_modEngine_self] <;> rfl
  | none =>
    obtain ⟨buf, rest, hpool⟩ := List.exists_cons_of_ne_nil hfree
    have ht := beginPoll_takes (kind := kind) (n := n) hreserved hpool hstray
    refine ⟨_, ht, ((Courses.refl b p).beginPoll ht).quiet hstray, ?_, ?_⟩ <;> rw [engine_modEngine_self] <;> rfl

/-- A stopped engine that is started sweeps station 1 first, where it is ABSENT. -/
theorem startEngine_polls (hstate : (p.engine b).state = .stopped) (hstray : (p.engine b).strayRun = none)
    (habsent : (p.station b 1).state = .absent) (hfree : p.pool.free ≠ []) :
    ((startEngine b p).engine b).state = .initialSweep ∧ ((startEngine b p).engine b).phase = .transmit
      ∧ ((startEngine b p).engine b).sent = [ctlChar .poll 1] ∧ (startEngine b p).switch b = p.switch b
      ∧ (∃ gate, (startEngine b p).sup b = { p.sup b with gate := gate }) ∧ (startEngine b p).sense = p.sense := by
  have hone : ∃ r, stationNumbers = (1 : StationNo) :: r := ⟨_, rfl⟩
  obtain ⟨r, hr⟩ := hone
  let q : Part := modEngine b (fun g => { g with initNext := (1 : StationNo).val + 1 })
    (modEngine b (fun g => { g with state := .initialSweep, phase := .none, initNext := 1 }) p)
  obtain ⟨t, ht, hquiet, hphase, hsent⟩ := beginPoll_begins (kind := .sweep) (n := 1) (p := q) (b := b)
    (by simpa [q] using hstray) hfree
  have hstart : startEngine b p = t := by
    simp only [q] at ht
    simp only [startEngine, hstate, if_true, hr, runInitial, modEngine_views, habsent, ht]
  obtain ⟨_, hkept, hswitch, hsup, _, hsense⟩ := hquiet
  rw [hstart]
  exact ⟨hkept.trans (by simp [q]), hphase, hsent, hswitch, hsup, hsense⟩

/-! ## The arrival at LINE (R143, R148, R150) -/

theorem relaySettle_rest {r : RelayRest} (h : (p.switch b).relay = .at r) : relaySettle b p = p := by
  simp only [relaySettle, h]

theorem undecided_iff : p.undecided b = true ↔ ¬ ∀ o ∈ p.router.offers, o.branch ≠ b := by
  simp [undecided]

theorem relaySettle_waits {ms : Nat} (h : (p.switch b).relay = .moving .line ms) (hoffer : p.undecided b = true) :
    relaySettle b p = p := by
  simp only [relaySettle, h, hoffer, decide_true, Bool.and_self, if_true]

theorem relaySettle_line {ms : Nat} (h : (p.switch b).relay = .moving .line ms) (hoffer : p.undecided b = false) :
    relaySettle b p = lineReached b (modSwitch b (fun w => { w with relay := .at .line }) p) := by
  simp only [relaySettle, h, hoffer, decide_true, Bool.and_false, Bool.false_eq_true, if_false]

theorem relaySettle_probe {ms : Nat} (h : (p.switch b).relay = .moving .probe ms) :
    relaySettle b p = probeReached b (modSwitch b (fun w => { w with relay := .at .probe }) p) := by
  simp only [relaySettle, h, reduceCtorEq, decide_false, Bool.false_and, Bool.false_eq_true, if_false]

/-- The first run of a branch is its next one (R138). -/
def firstRun (b : Branch) : Part → Part := modSense fun q => { q with firstRun := put q.firstRun b true }

theorem lineReached_enables (hstate : (p.switch b).state = .closing) (hdest : (p.switch b).dest ≠ some .disabled)
    (hfor : (p.switch b).closingFor = .enable) :
    lineReached b p = startEngine b (zeroScore b (setSwitch b .inService (firstRun b p))) := by
  simp only [lineReached, hstate, hdest, if_true, if_false, beginRunning, modSense_views, hfor]
  rfl

theorem lineReached_restores (hstate : (p.switch b).state = .closing) (hdest : (p.switch b).dest ≠ some .disabled)
    (hfor : (p.switch b).closingFor = .restore) : lineReached b p =
      startEngine b (trialScore b (setSwitch b .onTrial (modSwitch b (fun w => { w with trial := 0 }) (firstRun b p)))) := by
  simp only [lineReached, hstate, hdest, if_true, if_false, beginRunning, modSense_views, hfor]
  rfl

theorem lineReached_disables (hstate : (p.switch b).state = .closing) (hdest : (p.switch b).dest = some .disabled) :
    lineReached b p = stopRequest b (setSwitch b .draining p) := by
  simp only [lineReached, hstate, hdest, if_true]

/-- On entry to ON_TRIAL the score is TC, which raises no warning below TW (R127, R131). -/
theorem trialScore_sup (h : (p.branchSetup b).tc < (p.branchSetup b).tw) : (trialScore b p).sup b =
    { p.sup b with score := (p.branchSetup b).tc, warn := false } := by
  let q : Part := modSup b (fun s => { s with score := (p.branchSetup b).tc }) p
  have hq : q.sup b = { p.sup b with score := (p.branchSetup b).tc } := sup_modSup_self ..
  have hsetup : q.branchSetup b = p.branchSetup b := rfl
  change (warnTest b q).sup b = _
  cases hwarn : (q.sup b).warn
  · rw [warnTest_standing, hq]
    · rw [hq] at hwarn
      rw [← hwarn]
    · rintro ⟨_, hup⟩
      rw [hq, hsetup] at hup
      exact absurd hup (Nat.not_le.mpr h)
    · rintro ⟨hdown, _⟩
      rw [hwarn] at hdown
      exact nomatch hdown
  · rw [warnTest_cleared hwarn (Nat.le_of_eq (by rw [hq, hsetup])), sup_modSup_self, hq]

/-! ## The settling of an isolation (R146) -/

theorem openReached_opening (h : (p.switch b).state = .opening) : openReached b p = settleIsolation b p := by
  simp only [openReached, h]

theorem settleIsolation_disables (h : (p.switch b).dest = some .disabled) : settleIsolation b p = disabledEntry b p := by
  simp only [settleIsolation, h, if_true]

/-- The switch stays isolated, its restore timer begun. -/
theorem settleIsolation_isolates (hdest : (p.switch b).dest = some .isolated)
    (hlimit : satInc 7 (p.switch b).isolations < (p.branchSetup b).restoreLimit)
    (hauto : (p.branchSetup b).autoProbe = false) : settleIsolation b p =
      notify .isolated (startRestoreTimer b (setSwitch b .isolated (modSwitch b Switch.settled p))) := by
  have hlow : ¬ (p.branchSetup b).restoreLimit ≤ satInc 7 (p.switch b).isolations := Nat.not_le.mpr hlimit
  simp only [settleIsolation, hdest, hlow, hauto, reduceCtorEq, Option.some.injEq, decide_false, Bool.or_self,
    Bool.false_eq_true, if_false]
  rfl

/-- The switch is locked out: by its destination, or at its restore limit. -/
theorem settleIsolation_locks (hdest : (p.switch b).dest ≠ some .disabled)
    (hout : (p.switch b).dest = some .lockedOut ∨ (p.branchSetup b).restoreLimit ≤ satInc 7 (p.switch b).isolations) :
    settleIsolation b p = if (p.branchSetup b).autoProbe then
        askProbe b .lockedOut false (notify .isolated (setSwitch b .lockedOut (modSwitch b Switch.settled p)))
      else notify .isolated (setSwitch b .lockedOut (modSwitch b Switch.settled p)) := by
  have hlocks : (decide ((p.switch b).dest = some .lockedOut) ||
      decide ((p.branchSetup b).restoreLimit ≤ satInc 7 (p.switch b).isolations)) = true := by simpa using hout
  simp only [settleIsolation, hdest, hlocks, if_false, if_true]
  rfl

end

end Part

end Sys2Proof.Machine
end

section
/-! PROOF. The entry to DISABLED, and the ends of the relay movements (O45). -/

namespace Sys2Proof.Machine

/-- A switch as it enters DISABLED (R148). -/
def Switch.disabling (w : Switch) : Switch :=
  { w.entering .disabled with restore := none, check := false, isolations := 0, verdict := .none, dest := none
                              back := none, byHost := false }

/-- A switch as a pending enable begins at once (R143). -/
def Switch.enabling (ms : Nat) (w : Switch) : Switch :=
  { ({ w with enablePending := false, closingFor := .enable, isolations := 0, verdict := .none } : Switch).entering
      .closing with rline := true, rprobe := false, relay := .moving .line ms }

namespace Part

section

variable {p : Part} {b : Branch}

/-! ## The stations of a disabled branch (R40) -/

/-- A PRESENT record leaves. -/
def departPresent (b : Branch) (n : StationNo) (p : Part) : Part :=
  if (p.station b n).state = .present then leaveFor b n .absent (fun st => { st with miss := 0 }) p else p

theorem disableStations_eq (b : Branch) (p : Part) : disableStations b p = each stationNumbers (departPresent b) p := rfl

/-- A record's departure leaves the others as they stand. -/
theorem leaveFor_standing_ne {n m : StationNo} (new : StationState) (f : Station → Station) (p : Part) (h : m ≠ n) :
    ((leaveFor b n new f p).station b m).standing = (p.station b m).standing := by
  unfold leaveFor
  extract_lets was p1 p2
  have hp1 : p1.station b m = p.station b m := by
    simp only [p1, changeStation, toTrunkEvent_views, notify_views]
    exact station_updStation_ne _ _ _ _ _ _ (by simp [h])
  have hp2 : (p2.station b m).standing = (p1.station b m).standing := by
    unfold p2
    split
    · exact completeWhere_standing ..
    · rfl
  rw [abortAssemblingOf_standing, hp2, hp1]

theorem departPresent_self (b : Branch) (n : StationNo) (p : Part) :
    ((departPresent b n p).station b n).state ≠ .present := by
  unfold departPresent
  split
  · have h := congrArg Prod.fst (leaveFor_standing b n .absent (fun st => { st with miss := 0 }) p)
    simp only [Station.standing] at h
    rw [h]
    decide
  · assumption

theorem departPresent_stays {m : StationNo} (n : StationNo) {p : Part} (h : (p.station b m).state ≠ .present) :
    ((departPresent b n p).station b m).state ≠ .present := by
  by_cases hmn : m = n
  · rw [hmn]
    exact departPresent_self b n p
  · unfold departPresent
    split
    · have hsame := congrArg Prod.fst (leaveFor_standing_ne (b := b) .absent (fun st => { st with miss := 0 }) p hmn)
      simp only [Station.standing] at hsame
      rwa [hsame]
    · exact h

theorem departAll_present {m : StationNo} (l : List StationNo) : ∀ p : Part,
    m ∈ l ∨ (p.station b m).state ≠ .present → ((each l (departPresent b) p).station b m).state ≠ .present := by
  induction l with
  | nil => exact fun _ h => h.resolve_left fun hm => nomatch hm
  | cons n r ih =>
    intro p h
    rw [each_cons]
    refine ih _ ?_
    rcases h with h | h
    · rcases List.mem_cons.mp h with rfl | h
      · exact .inr (departPresent_self b _ p)
      · exact .inl h
    · exact .inr (departPresent_stays n h)

theorem disableStations_present {n : StationNo} (p : Part) (h0 : n ≠ 0) (h63 : n ≠ 63) :
    ((disableStations b p).station b n).state ≠ .present :=
  departAll_present stationNumbers p (.inl (mem_stationNumbers.mpr ⟨h0, h63⟩))

/-! ## The entry to DISABLED (R148) -/

/-- The part as a branch is disabled, a pending enable aside. -/
def disabledPart (b : Branch) (p : Part) : Part :=
  releaseCapture b (zeroScore b (disableStations b (modSwitch b (fun w =>
    { w with restore := none, check := false, isolations := 0, verdict := .none, dest := none, back := none
             byHost := false }) (setSwitch b .disabled p))))

@[simp] theorem disabledPart_switch (b : Branch) (p : Part) : (disabledPart b p).switch b = (p.switch b).disabling := by
  simp [disabledPart, Switch.disabling]

theorem disabledPart_sup (b : Branch) (p : Part) : (disabledPart b p).sup b =
    { p.sup b with score := 0, warn := false, capture := Capture.blank } := by
  simp [disabledPart, releaseCapture, zeroScore, writeCapture]

theorem disabledPart_branchSetup (b : Branch) (p : Part) : (disabledPart b p).branchSetup b = p.branchSetup b := by
  simp [disabledPart]

theorem disabledPart_present {n : StationNo} (p : Part) (h0 : n ≠ 0) (h63 : n ≠ 63) :
    ((disabledPart b p).station b n).state ≠ .present := by
  simpa [disabledPart] using disableStations_present (b := b) _ h0 h63

theorem disabledEntry_eq (b : Branch) (p : Part) : disabledEntry b p =
    if (p.switch b).enablePending then
      beginEnable b (modSwitch b (fun w => { w with enablePending := false }) (disabledPart b p))
    else disabledPart b p := by
  have h : disabledEntry b p = if ((disabledPart b p).switch b).enablePending then
      beginEnable b (modSwitch b (fun w => { w with enablePending := false }) (disabledPart b p))
    else disabledPart b p := rfl
  rw [h, disabledPart_switch]
  rfl

theorem beginEnable_high (h : (p.switch b).rflt = false) : beginEnable b p = modSwitch b (fun w =>
    { w with rline := true, rprobe := false, relay := .moving .line (p.branchSetup b).settleMs })
      (setSwitch b .closing (modSwitch b (fun w => { w with closingFor := .enable, isolations := 0, verdict := .none }) p)) := by
  unfold beginEnable
  rw [assertLine_high]
  · simp
  · simpa [Switch.entering] using h

theorem disabledEntry_stays (h : (p.switch b).enablePending = false) : disabledEntry b p = disabledPart b p := by
  rw [disabledEntry_eq, h]
  rfl

/-- A pending enable begins at once: the switch closes, and the rest of the branch is as the disable left it. -/
theorem disabledEntry_enables (h : (p.switch b).enablePending = true) (hfault : (p.switch b).rflt = false) :
    (disabledEntry b p).switch b = (p.switch b).disabling.enabling (p.branchSetup b).settleMs
      ∧ (disabledEntry b p).sup b = (disabledPart b p).sup b
      ∧ ∀ n, (disabledEntry b p).station b n = (disabledPart b p).station b n := by
  have hlow : ((modSwitch b (fun w => { w with enablePending := false }) (disabledPart b p)).switch b).rflt = false := by
    simpa [Switch.disabling, Switch.entering] using hfault
  have hw := disabledPart_switch b p
  have hset := disabledPart_branchSetup b p
  rw [disabledEntry_eq, if_pos h, beginEnable_high hlow]
  generalize disabledPart b p = q at *
  exact ⟨by simp [hw, hset, Switch.enabling], by simp, fun n => by simp⟩

end

end Part

/-- Settles O45: the movement's end by its target, and by what the switch was doing. -/
theorem relayMovementsEnd : Obligations.RelayMovementsEnd := by
  intro s b hheld w x decided
  have hexec : ∀ {q}, Part.relaySettle b s.part = q → exec (.relaySettle b) s = .next (s.withPart q) :=
    onPart_awake_eq hheld
  have hdecided : decided → s.part.undecided b = false := fun h =>
    Bool.eq_false_iff.mpr fun hu => Part.undecided_iff.mp hu h
  have hline : ∀ {ms q}, w.relay = .moving .line ms → decided → Part.lineReached b (Part.modSwitch b (fun w =>
      { w with relay := .at .line }) s.part) = q → exec (.relaySettle b) s = .next (s.withPart q) :=
    fun hrelay hd hq => hexec ((Part.relaySettle_line hrelay (hdecided hd)).trans hq)
  have hopen : ∀ {ms q}, w.relay = .moving .open ms → w.state = .opening → Part.settleIsolation b (Part.modSwitch b (fun w =>
      { w with relay := .at .open }) s.part) = q → exec (.relaySettle b) s = .next (s.withPart q) :=
    fun hrelay hstate hq => hexec ((Part.relaySettle_open hrelay).trans
      ((Part.openReached_opening (by simpa using hstate)).trans hq))
  refine ⟨fun r h => hexec (Part.relaySettle_rest h), fun ms hrelay hu => hexec (Part.relaySettle_waits hrelay
    (Part.undecided_iff.mpr hu)), ?enable, ?restore, fun ms hrelay hstate hauto => ⟨?isolated, ?limit, ?locked⟩, ?auto,
    ?probe, ?disable, ?disabled⟩
  case enable =>
    intro ms hrelay hd hstate hdest hfor hstopped hstray habsent hfree
    let o : Part := Part.modSwitch b (fun w => { w with relay := .at .line }) s.part
    let q : Part := Part.zeroScore b (Part.setSwitch b .inService (Part.firstRun b o))
    have hw : q.switch b = ({ w with relay := .at .line } : Switch).entering .inService := by
      simp [q, o, w, Part.zeroScore, Part.firstRun]
    have hsup : q.sup b = { s.part.sup b with score := 0, warn := false } := by
      simp [q, o, Part.zeroScore, Part.firstRun]
    have hsense : q.sense.firstRun.get b = true := by
      have hfirst : (Part.setSwitch b .inService (Part.firstRun b o)).sense = (Part.firstRun b o).sense :=
        Part.setSwitch_sense _ (by simp [o, Part.firstRun, show (s.part.switch b).state = _ from hstate])
      have hkept : q.sense = (Part.setSwitch b .inService (Part.firstRun b o)).sense := by
        simp only [q, Part.zeroScore, Part.modSup_keeps]
      rw [hkept, hfirst]
      exact get_put_self ..
    have hnext : exec (.relaySettle b) s = .next (s.withPart (Part.startEngine b q)) := hline hrelay hd (Part.lineReached_enables (by simpa using hstate) (by simpa using hdest)
      (by simpa using hfor))
    obtain ⟨hengine, hphase, hsent, hswitch, ⟨gate, hsup'⟩, hsense'⟩ := Part.startEngine_polls (p := q) (b := b)
      (by simpa [q, o, Part.zeroScore, Part.firstRun] using hstopped)
      (by simpa [q, o, Part.zeroScore, Part.firstRun] using hstray)
      (by simpa [q, o, Part.zeroScore, Part.firstRun] using habsent)
      (by simpa [q, o, Part.zeroScore, Part.firstRun] using hfree)
    rw [hw] at hswitch
    rw [hsup] at hsup'
    generalize Part.startEngine b q = t at *
    exact ⟨_, hnext, congrArg Switch.state hswitch, congrArg Switch.relay hswitch, congrArg Supervisor.score hsup',
      congrArg Supervisor.warn hsup', hsense' ▸ hsense, hengine, hphase, hsent⟩
  case restore =>
    intro ms hrelay hd hstate hdest hfor hstopped hstray habsent hfree htc
    let o : Part := Part.modSwitch b (fun w => { w with relay := .at .line }) s.part
    let o' : Part := Part.setSwitch b .onTrial (Part.modSwitch b (fun w => { w with trial := 0 }) (Part.firstRun b o))
    let q : Part := Part.trialScore b o'
    have hw : q.switch b = ({ w with relay := .at .line, trial := 0 } : Switch).entering .onTrial := by
      simp [q, o', o, w, Part.firstRun]
    have hset : o'.branchSetup b = x := by simp [o', o, x, Part.firstRun]
    have hsup : q.sup b = { o'.sup b with score := x.tc, warn := false } := hset ▸ Part.trialScore_sup (by rw [hset]; exact htc)
    have hnext : exec (.relaySettle b) s = .next (s.withPart (Part.startEngine b q)) := hline hrelay hd (Part.lineReached_restores (by simpa using hstate) (by simpa using hdest)
      (by simpa using hfor))
    obtain ⟨hengine, _, _, hswitch, ⟨gate, hsup'⟩, _⟩ := Part.startEngine_polls (p := q) (b := b)
      (by simpa [q, o', o, Part.firstRun] using hstopped) (by simpa [q, o', o, Part.firstRun] using hstray)
      (by simpa [q, o', o, Part.firstRun] using habsent) (by simpa [q, o', o, Part.firstRun] using hfree)
    rw [hw] at hswitch
    rw [hsup] at hsup'
    generalize Part.startEngine b q = t at *
    exact ⟨_, hnext, congrArg Switch.state hswitch, congrArg Switch.relay hswitch, congrArg Switch.trial hswitch,
      congrArg Supervisor.score hsup', congrArg Supervisor.warn hsup', hengine⟩
  case isolated =>
    intro hdest hseven hlimit
    have hinc : satInc 7 w.isolations = w.isolations + 1 := if_pos hseven
    refine ⟨_, hopen hrelay hstate (Part.settleIsolation_isolates (by simpa using hdest)
      (by simpa [w, x, hinc] using hlimit) (by simpa using hauto)), ?_, ?_, ?_, ?_, ?_, ?_⟩
    · simp [Part.startRestoreTimer, Switch.entering]
    · simp [Part.startRestoreTimer, Switch.entering, Switch.settled]
    · simp [Part.startRestoreTimer, Switch.entering, Switch.settled]
    · simp [Part.startRestoreTimer, Switch.entering, Switch.settled, show (s.part.switch b).dest = _ from hdest]
      exact hinc
    · simp [Part.startRestoreTimer, x]
    · simp [Part.startRestoreTimer]
      rfl
  case limit =>
    intro hdest hlimit
    have hnext := hopen hrelay hstate (Part.settleIsolation_locks (by simp [show (s.part.switch b).dest = _ from hdest])
      (.inr (by simpa [w, x] using hlimit)))
    rw [if_neg (by simpa using hauto)] at hnext
    refine ⟨_, hnext, ?_, ?_, ?_, ?_⟩
    · simp [Switch.entering]
    · simp [Switch.entering, Switch.settled]
    · simp [Switch.entering, Switch.settled, show (s.part.switch b).dest = _ from hdest, w]
    · simp
      rfl
  case locked =>
    intro hdest
    have hnext := hopen hrelay hstate (Part.settleIsolation_locks (by simp [show (s.part.switch b).dest = _ from hdest])
      (.inl (by simpa using hdest)))
    rw [if_neg (by simpa using hauto)] at hnext
    refine ⟨_, hnext, ?_, ?_, ?_, ?_⟩
    · simp [Switch.entering]
    · simp [Switch.entering, Switch.settled]
    · simp [Switch.entering, Switch.settled, show (s.part.switch b).dest = _ from hdest, w]
    · simp
      rfl
  case auto =>
    intro ms hrelay hstate hauto hdest
    have hnext := hopen hrelay hstate (Part.settleIsolation_locks (by simp [show (s.part.switch b).dest = _ from hdest])
      (.inl (by simpa using hdest)))
    rw [if_pos (by simpa using hauto)] at hnext
    refine ⟨_, hnext, ?_, ?_, ?_, ?_⟩
    · simp [Part.askProbe, Switch.entering]
    · simp [Part.askProbe, Switch.entering]
    · simp [Part.askProbe, Switch.entering]
    · simp [Part.askProbe]
  case probe =>
    intro ms r hrelay hprobe hqueue
    refine hexec ((Part.relaySettle_probe hrelay).trans ?_)
    have hserved : (Part.modSwitch b (fun w => { w with relay := .at .probe }) s.part).probed b = true := by
      simp [Part.probed, hprobe, hqueue]
    rw [Part.probeReached, if_pos hserved]
    rfl
  case disable =>
    intro ms hrelay hd hstate hdest hstopped
    let q : Part := Part.setSwitch b .draining (Part.modSwitch b (fun w => { w with relay := .at .line }) s.part)
    have hw : q.switch b = ({ w with relay := .at .line } : Switch).entering .draining := by simp [q, w]
    have hset : q.branchSetup b = x := by simp [q, x]
    have hengine : (q.engine b).state = .stopped := by simpa [q] using hstopped
    have hnext : exec (.relaySettle b) s = .next (s.withPart (Part.stopReported b q)) :=
      hline hrelay hd ((Part.lineReached_disables (by simpa using hstate) (by simpa using hdest)).trans
        (Part.stopRequest_stopped hengine))
    have hkept : ((Part.stopReported b q).engine b).state = (q.engine b).state :=
      (congrArg Engine.state (Part.stopReported_unqueued b q) :)
    have hstate' := Part.stopReported_opens (p := q) (b := b) (by rw [hw]; rfl)
    have hopens := Part.stopReported_switch b q
    generalize Part.stopReported b q = t at *
    rw [hw, hset] at hopens
    obtain hsame | ⟨_, hopens⟩ := hopens
    · rw [hsame] at hstate'
      exact nomatch hstate'
    · exact ⟨_, hnext, congrArg Switch.state hopens, (congrArg Switch.dest hopens).trans hdest, congrArg Switch.relay hopens,
        congrArg Switch.rline hopens, hkept.trans hengine⟩
  case disabled =>
    intro ms hrelay hstate hdest hpending
    let q : Part := Part.modSwitch b (fun w => { w with relay := .at .open }) s.part
    have hw : q.switch b = { w with relay := .at .open } := Part.switch_modSwitch_self ..
    have hset : q.branchSetup b = x := rfl
    have hnext : exec (.relaySettle b) s = .next (s.withPart (Part.disabledEntry b q)) :=
      hopen hrelay hstate (Part.settleIsolation_disables (by simpa using hdest))
    have hsup := Part.disabledPart_sup b q
    have hgone := fun n h0 h63 => Part.disabledPart_present (n := n) (b := b) q h0 h63
    cases hwait : w.enablePending with
    | false =>
      have hentry := Part.disabledEntry_stays (p := q) (b := b) (by rw [hw]; exact hwait)
      have hswitch := Part.disabledPart_switch b q
      rw [hentry] at hnext
      rw [hw] at hswitch
      generalize Part.disabledPart b q = t at *
      exact ⟨_, hnext, congrArg Switch.dest hswitch, congrArg Switch.isolations hswitch, congrArg Switch.verdict hswitch,
        congrArg Switch.restore hswitch, congrArg Switch.check hswitch, (congrArg Switch.enablePending hswitch).trans hwait,
        congrArg Supervisor.score hsup, congrArg Supervisor.warn hsup, congrArg (fun u => u.capture.valid) hsup, hgone,
        fun _ => ⟨congrArg Switch.state hswitch, congrArg Switch.relay hswitch⟩, fun h => nomatch h⟩
    | true =>
      have hfault : w.rflt = false := hpending.resolve_left (by simp [hwait])
      obtain ⟨hswitch, hsame, hstations⟩ := Part.disabledEntry_enables (p := q) (b := b) (by rw [hw]; exact hwait)
        (by rw [hw]; exact hfault)
      rw [hw, hset] at hswitch
      rw [← hsame] at hsup
      have hgone' : ∀ n : StationNo, n ≠ 0 → n ≠ 63 → ((Part.disabledEntry b q).station b n).state ≠ .present :=
        fun n h0 h63 => by rw [hstations]; exact hgone n h0 h63
      generalize Part.disabledEntry b q = t at *
      exact ⟨_, hnext, congrArg Switch.dest hswitch, congrArg Switch.isolations hswitch, congrArg Switch.verdict hswitch,
        congrArg Switch.restore hswitch, congrArg Switch.check hswitch, congrArg Switch.enablePending hswitch,
        congrArg Supervisor.score hsup, congrArg Supervisor.warn hsup, congrArg (fun u => u.capture.valid) hsup, hgone',
        fun h => (nomatch h), fun _ => ⟨congrArg Switch.state hswitch, congrArg Switch.rline hswitch,
          congrArg Switch.relay hswitch⟩⟩

end Sys2Proof.Machine
end

section
/-! PROOF. The situation of a printer port: its conditions stand through its decisions, and what a decision that brings
trouble or ends it makes of the port and its job (O52). -/

namespace Sys2Proof.Machine

/-- The filtered conditions of a port (R100). -/
def PrinterPort.conditions (t : PrinterPort) : Bool × Bool × Bool := (t.deselected, t.paperOut, t.fault)

/-- A port as it enters a trouble state, its byte in handshake still to be given up (R101, R103, R106). -/
def PrinterPort.entering (new : PortState) (redirectS : Nat) (t : PrinterPort) : PrinterPort :=
  { t with state := new, stall := none, fetched := none, stalled := new == .stalled
           redirect := if t.state.trouble then t.redirect else if redirectS = 0 then none else some redirectS }

/-- A port that gives up its byte in handshake (R99, R105). -/
def PrinterPort.abandoning (t : PrinterPort) : PrinterPort :=
  { t with handshake := none, abandoned := t.abandoned || t.handshake.isSome
           overdue := t.overdue && t.handshake.isNone, fetched := none }

/-- A port as it enters IDLE or BUSY (R103, R105, R108). -/
def PrinterPort.running (new : PortState) (stallS : Nat) (t : PrinterPort) : PrinterPort :=
  { t with state := new, redirect := none, redirected := false, stalled := false, fetched := none
           stall := if new = .busy then some stallS else none }

/-- A port whose condition `c` has taken a level (R100). -/
def PrinterPort.levelled (c : PrinterCondition) (on : Bool) (t : PrinterPort) : PrinterPort :=
  { t with deselected := if c = .deselected then on else t.deselected
           paperOut := if c = .paperOut then on else t.paperOut
           fault := if c = .fault then on else t.fault }

namespace Part

section

variable {p : Part} {k : Port}

/-! ## The conditions of a port stand through its decisions (R100) -/

theorem modPort_conditions {f : PrinterPort → PrinterPort} (hf : ∀ t, (f t).conditions = t.conditions) (k i : Port)
    (p : Part) : ((modPort k f p).port i).conditions = (p.port i).conditions := by
  by_cases h : i = k
  · rw [h, port_modPort_self, hf]
  · rw [port_modPort_ne _ _ _ _ h]

theorem giveUp_self (k : Port) (p : Part) : (giveUp k p).port k = (p.port k).abandoning := by
  rw [giveUp, port_modPort_self, PrinterPort.abandoning]
  cases (p.port k).handshake <;> simp

theorem giveUp_conditions (k i : Port) (p : Part) : ((giveUp k p).port i).conditions = (p.port i).conditions :=
  modPort_conditions (fun t => by split <;> rfl) k i p

theorem enterTrouble_conditions (k i : Port) (old new : PortState) (p : Part) :
    ((enterTrouble k old new p).port i).conditions = (p.port i).conditions := by
  unfold enterTrouble
  extract_lets rs p1 p2
  have hp1 : (p1.port i).conditions = (p.port i).conditions := by
    simp only [p1, notify_views]
    exact modPort_conditions (by exact fun _ => rfl) k i p
  have hp2 : (p2.port i).conditions = (p.port i).conditions := by
    unfold p2
    split
    · exact hp1
    · exact (giveUp_conditions k i p1).trans hp1
  split
  · exact hp2
  · split
    · unfold detach
      extract_lets ss
      refine (modPort_conditions (by exact fun _ => rfl) k i _).trans ?_
      rw [giveUp_conditions]
      simpa using hp2
    · simpa using hp2

theorem enterRunning_conditions (k i : Port) (new : PortState) (p : Part) :
    ((enterRunning k new p).port i).conditions = (p.port i).conditions := by
  have hrun : ((runningPort k new p).port i).conditions = (p.port i).conditions := by
    have hmod : ((modPort k (PrinterPort.running new (p.printerSetup k).stallS) p).port i).conditions =
        (p.port i).conditions := modPort_conditions (by exact fun _ => rfl) k i p
    unfold runningPort
    extract_lets q
    split
    · rw [(submitEvent_views q).2.2.2.2.1]
      exact hmod
    · exact hmod
  cases hjob : (p.port k).job with
  | none => rw [enterRunning_noJob new hjob, hrun]
  | some j =>
    rw [enterRunning_job new hjob]
    simpa using hrun

theorem decidePort_conditions (k i : Port) (p : Part) :
    ((decidePort k p).port i).conditions = (p.port i).conditions := by
  unfold decidePort
  extract_lets old new
  split
  · rfl
  · split
    · exact enterTrouble_conditions ..
    · exact enterRunning_conditions ..

theorem startLoad_conditions (k i : Port) (p : Part) : ((startLoad k p).port i).conditions = (p.port i).conditions :=
  modPort_conditions (fun t => by split <;> rfl) k i p

theorem idleLoad_conditions (k i : Port) (p : Part) : ((idleLoad k p).port i).conditions = (p.port i).conditions := by
  unfold idleLoad
  extract_lets t
  split
  · exact startLoad_conditions ..
  · rfl

theorem grantJob_conditions (k i : Port) (j : JobNo) (p : Part) :
    ((grantJob k j p).port i).conditions = (p.port i).conditions := by
  unfold grantJob
  extract_lets p1
  have hp1 : p1.port i = p.port i := by simp [p1]
  split
  · simp [hp1]
  · rw [decidePort_conditions]
    exact (modPort_conditions (by exact fun _ => rfl) k i p1).trans (congrArg _ hp1)

theorem grantOnce_conditions {q : Part} (i : Port) (h : grantOnce k p = some q) :
    (q.port i).conditions = (p.port i).conditions := by
  unfold grantOnce at h
  extract_lets t at h
  split at h
  · split at h
    · exact nomatch h
    · split at h
      · cases h
        exact startLoad_conditions ..
      · cases h
        exact grantJob_conditions ..
      · cases h
        rw [grantJob_conditions]
        split
        · rw [startLoad_conditions]
          exact modPort_conditions (by exact fun _ => rfl) k i p
        · exact modPort_conditions (by exact fun _ => rfl) k i p
  · exact nomatch h

theorem grantLoop_conditions (k i : Port) (n : Nat) :
    ∀ p : Part, ((grantLoop k n p).port i).conditions = (p.port i).conditions := by
  induction n with
  | zero => exact fun _ => rfl
  | succ n ih =>
    intro p
    unfold grantLoop
    split
    · rfl
    · next q hq => rw [ih q, grantOnce_conditions i hq]

theorem servePort_conditions (k i : Port) (p : Part) : ((servePort k p).port i).conditions = (p.port i).conditions :=
  (idleLoad_conditions ..).trans (grantLoop_conditions ..)

theorem redecide_conditions (k i : Port) (p : Part) : ((redecide k p).port i).conditions = (p.port i).conditions :=
  (servePort_conditions ..).trans (decidePort_conditions ..)

/-! ## A decision that brings trouble (R101, R105, R106) -/

/-- The part as a port enters a trouble state, its job aside. -/
def troubledPort (k : Port) (new : PortState) (p : Part) : Part :=
  let q := notify .printer (modPort k (PrinterPort.entering new (p.printerSetup k).redirectS) p)
  if new = .stalled then q else giveUp k q

theorem troubledPort_port {new : PortState} (h : new ≠ .stalled) : (troubledPort k new p).port k =
    ((p.port k).entering new (p.printerSetup k).redirectS).abandoning := by
  simp only [troubledPort, h, if_false, giveUp_self, notify_views, port_modPort_self]

theorem troubledPort_stalled : (troubledPort k .stalled p).port k =
    (p.port k).entering .stalled (p.printerSetup k).redirectS := by
  simp [troubledPort]

theorem troubledPort_job (k : Port) (new : PortState) (p : Part) :
    ((troubledPort k new p).port k).job = (p.port k).job := by
  by_cases h : new = .stalled
  · rw [h, troubledPort_stalled]
    rfl
  · rw [troubledPort_port h]
    rfl

@[simp] theorem troubledPort_keeps (k : Port) (new : PortState) (p : Part) :
    (troubledPort k new p).jobs = p.jobs ∧ (troubledPort k new p).queues = p.queues ∧
    (troubledPort k new p).pool = p.pool ∧ (troubledPort k new p).setup = p.setup ∧
    (troubledPort k new p).notices.latches = p.notices.latches ||| Notice.printer.bit := by
  unfold troubledPort
  extract_lets q
  split <;> simp [q]

theorem enterTrouble_eq (k : Port) (new : PortState) (p : Part) : enterTrouble k (p.port k).state new p =
    match (p.port k).job with
    | none => troubledPort k new p
    | some j =>
      if ((troubledPort k new p).job j).abortPending then detach k (abortJob j .abortedByRequest (troubledPort k new p))
      else updJob j (fun x => { x with state := .held, hold := new.holdReason }) 0 (troubledPort k new p) := by
  have h : enterTrouble k (p.port k).state new p = match ((troubledPort k new p).port k).job with
    | none => troubledPort k new p
    | some j =>
      if ((troubledPort k new p).job j).abortPending then detach k (abortJob j .abortedByRequest (troubledPort k new p))
      else updJob j (fun x => { x with state := .held, hold := new.holdReason }) 0 (troubledPort k new p) := rfl
  rw [h, troubledPort_job]

theorem decidePort_trouble {new : PortState} (hdecide : (p.port k).decide (p.printerSetup k).enable = new)
    (htrouble : new.trouble = true) (hne : (p.port k).state ≠ new) :
    decidePort k p = enterTrouble k (p.port k).state new p := by
  simp only [decidePort, hdecide, hne.symm, if_false, htrouble, if_true]

/-- A port that comes into trouble holds its job (R105). -/
theorem redecide_holds {new : PortState} {j : JobNo} (hdecide : (p.port k).decide (p.printerSetup k).enable = new)
    (htrouble : new.trouble = true) (hne : (p.port k).state ≠ new) (hjob : (p.port k).job = some j)
    (habort : (p.job j).abortPending = false) : redecide k p =
      updJob j (fun x => { x with state := .held, hold := new.holdReason }) 0 (troubledPort k new p) := by
  have hkept : ((troubledPort k new p).job j).abortPending = false := by simpa [job] using habort
  have henter : decidePort k p = updJob j (fun x => { x with state := .held, hold := new.holdReason }) 0
      (troubledPort k new p) := by
    rw [decidePort_trouble hdecide htrouble hne, enterTrouble_eq, hjob]
    simp only [hkept, Bool.false_eq_true, if_false]
  have hport : (updJob j (fun x => { x with state := .held, hold := new.holdReason }) 0 (troubledPort k new p)).port k =
      (troubledPort k new p).port k := by simp
  have hstate : ((troubledPort k new p).port k).state = new := by
    by_cases h : new = .stalled
    · rw [h, troubledPort_stalled]
      rfl
    · rw [troubledPort_port h]
      rfl
  rw [redecide, henter, servePort_notIdle, idleLoad_waits]
  · rw [hport, troubledPort_job, hjob]
    exact .inl rfl
  · rw [hport, hstate]
    rintro rfl
    exact nomatch htrouble

theorem redecide_troubles {new : PortState} (hdecide : (p.port k).decide (p.printerSetup k).enable = new)
    (htrouble : new.trouble = true) (hne : (p.port k).state ≠ new) (hjob : (p.port k).job = none)
    (hpending : (p.port k).loadPending = false) : redecide k p = troubledPort k new p := by
  have hstate : ((troubledPort k new p).port k).state = new ∧ ((troubledPort k new p).port k).loadPending = false := by
    by_cases h : new = .stalled
    · rw [h, troubledPort_stalled]
      exact ⟨rfl, hpending⟩
    · rw [troubledPort_port h]
      exact ⟨rfl, hpending⟩
  obtain ⟨hstate, hload⟩ := hstate
  rw [redecide, decidePort_trouble hdecide htrouble hne, enterTrouble_eq, hjob, servePort_notIdle, idleLoad_notPending hload]
  rw [hstate]
  rintro rfl
  exact nomatch htrouble

/-! ## A decision that ends it (R103, R108) -/

/-- A chain whose first entry is not empty is left as it is (R98). -/
theorem reach_stands (h : ∀ j, (p.port k).job = some j → ∀ e ∈ (p.job j).chain.head?, e.fill ≠ 0) : reach k p = p := by
  unfold reach
  extract_lets t
  split
  · next j hj =>
    have hempty : (p.job j).chain.takeWhile (fun e => e.fill == 0) = [] := by
      cases hchain : (p.job j).chain with
      | nil => rfl
      | cons e r =>
        have he : e.fill ≠ 0 := h j hj e (by simp [hchain])
        simp [he]
    split
    · exact if_pos hempty
    · rfl
  · rfl

/-- A port that is BUSY again prints its job (R103, R104). -/
theorem redecide_prints {j : JobNo} (hdecide : (p.port k).decide (p.printerSetup k).enable = .busy)
    (hne : (p.port k).state ≠ .busy) (hjob : (p.port k).job = some j)
    (hchain : ∀ e ∈ (p.job j).chain.head?, e.fill ≠ 0) :
    redecide k p = updJob j (fun x => { x with state := .printing, hold := none }) 0 (runningPort k .busy p) := by
  have henter : decidePort k p = updJob j (fun x => { x with state := .printing, hold := none }) 0
      (runningPort k .busy p) := by
    rw [decidePort_running (by rw [hdecide]; exact hne.symm) (by rw [hdecide]; rfl), hdecide, enterRunning_job _ hjob]
    refine reach_stands fun i hi e he => ?_
    have hij : i = j := by simpa [hjob] using hi.symm
    subst hij
    exact hchain e (by simpa using he)
  rw [redecide, henter, servePort_notIdle (by simp), idleLoad_waits (.inl (by simp [hjob]))]

/-- A port that is IDLE again, with an empty queue (R103, R108). -/
theorem redecide_rests (hdecide : (p.port k).decide (p.printerSetup k).enable = .idle) (hne : (p.port k).state ≠ .idle)
    (hjob : (p.port k).job = none) (hqueue : p.queue k = []) : redecide k p = idleLoad k (runningPort k .idle p) := by
  rw [redecide, decidePort_running (by rw [hdecide]; exact hne.symm) (by rw [hdecide]; rfl), hdecide,
    enterRunning_noJob _ hjob, servePort_empty (by simpa using hqueue)]

/-! ## A condition takes a new level (R100, R101) -/

theorem conditionChange_eq (k : Port) (c : PrinterCondition) (on : Bool) (p : Part) : conditionChange k c on p =
    if (p.port k).state = .disabled then modPort k (PrinterPort.levelled c on) p
    else redecide k (modPort k (PrinterPort.levelled c on) p) := by
  have hstate : ((modPort k (PrinterPort.levelled c on) p).port k).state = (p.port k).state := by
    rw [port_modPort_self]
    rfl
  rw [← hstate]
  cases c <;> rfl

end

end Part

/-- Settles O52: the state by the situation in its order, the conditions kept by every decision, and the decision that
brings trouble or ends it. -/
theorem conditionsHoldAndResumeTheJob : Obligations.ConditionsHoldAndResumeTheJob := by
  refine ⟨fun t enabled => ?decide, fun s k c on => ?levels, fun s k on hstate => ?disabled, fun s k c on => ?changes⟩
  case decide =>
    refine ⟨fun h => by simp [PrinterPort.decide, h], fun h hf => by simp [PrinterPort.decide, h, hf],
      fun h hf hp => by simp [PrinterPort.decide, h, hf, hp], fun h hf hp hd => by simp [PrinterPort.decide, h, hf, hp, hd],
      fun h hf hp hd => ⟨fun hs => by simp [PrinterPort.decide, h, hf, hp, hd, hs],
        fun hs hj => by simp [PrinterPort.decide, h, hf, hp, hd, hs, hj],
        fun hs hj => by simp [PrinterPort.decide, h, hf, hp, hd, hs, hj]⟩⟩
  case levels =>
    have hkept : ((Part.conditionChange k c on s.part).port k).conditions =
        ((s.part.port k).levelled c on).conditions := by
      rw [Part.conditionChange_eq]
      split
      · rw [Part.port_modPort_self]
      · rw [Part.redecide_conditions, Part.port_modPort_self]
    obtain ⟨hdeselected, hrest⟩ := Prod.mk.inj hkept
    obtain ⟨hpaper, hfault⟩ := Prod.mk.inj hrest
    exact ⟨_, rfl, hdeselected, hpaper, hfault⟩
  case disabled =>
    intro t
    have hexec : ∀ c, exec (.printerConditionChange k c on) s =
        .next (s.withPart (Part.modPort k (PrinterPort.levelled c on) s.part)) := fun c =>
      congrArg (fun q => Host.Outcome.next (s.withPart q)) ((Part.conditionChange_eq k c on s.part).trans (if_pos hstate))
    exact ⟨hexec .deselected, hexec .paperOut, hexec .fault⟩
  case changes =>
    intro t set t' trouble enters hon hstate
    let q : Part := Part.modPort k (PrinterPort.levelled c on) s.part
    have hq : q.port k = t' := Part.port_modPort_self ..
    have hset : q.printerSetup k = set := rfl
    have hexec : ∀ {r}, Part.redecide k q = r → exec (.printerConditionChange k c on) s = .next (s.withPart r) := fun h =>
      congrArg (fun q => Host.Outcome.next (s.withPart q))
        (((Part.conditionChange_eq k c on s.part).trans (if_neg hstate)).trans h)
    have hdecided : ∀ {st}, t'.decide true = st → (q.port k).decide (q.printerSetup k).enable = st := fun h => by
      rw [hq, hset, hon, h]
    have hentered : ∀ {st : PortState} {r : Part}, st ≠ .stalled → r.port k = (Part.troubledPort k st q).port k →
        r.notices.latches = s.part.notices.latches ||| Notice.printer.bit → enters st (s.withPart r) := by
      intro st r hst hport hlatches
      rw [Part.troubledPort_port hst, hq, hset] at hport
      have htrouble : t.state.trouble = trouble := by cases h : t.state <;> simp [trouble, h, PortState.trouble]
      exact ⟨(congrArg PrinterPort.state hport :), (congrArg PrinterPort.job hport :), (congrArg PrinterPort.handshake hport :),
        (congrArg PrinterPort.abandoned hport :), (congrArg PrinterPort.overdue hport :),
        (congrArg PrinterPort.redirect hport :).trans (by rw [← htrouble]; rfl), hlatches, rfl⟩
    refine ⟨fun st r hst hdecide hne => ?_, fun j hjob hdecide hne hchain => ?_, fun hjob hdecide hne hload hqueue => ?_⟩
    · obtain ⟨htrouble, hnot, hreason⟩ : st.trouble = true ∧ st ≠ .stalled ∧ st.holdReason = some r := by
        rcases hst with ⟨rfl, rfl⟩ | ⟨rfl, rfl⟩ | ⟨rfl, rfl⟩ <;> exact ⟨rfl, by decide, rfl⟩
      refine ⟨fun j hjob habort => ?_, fun hjob hload => ?_⟩
      · have hholds := Part.redecide_holds (hdecided hdecide) htrouble (by rw [hq]; exact hne) (by rw [hq]; exact hjob)
          (show (q.job j).abortPending = false from habort)
        refine ⟨_, hexec hholds, hentered hnot (by simp) ?_, ?_⟩
        · simp [q]
        · rw [State.withPart_part, Part.job_updJob_self, hreason]
          simp [Part.job, q]
      · have htroubles := Part.redecide_troubles (hdecided hdecide) htrouble (by rw [hq]; exact hne)
          (by rw [hq]; exact hjob) (by rw [hq]; exact hload)
        exact ⟨_, hexec htroubles, hentered hnot rfl (by simp [q]), by simp [q]⟩
    · have hprints := Part.redecide_prints (hdecided hdecide) (by rw [hq]; exact hne) (by rw [hq]; exact hjob)
        (show ∀ e ∈ (q.job j).chain.head?, e.fill ≠ 0 from fun e he => hchain e (List.mem_of_mem_head? he))
      refine ⟨_, hexec hprints, ?_, ?_, ?_, ?_, ?_, ?_, rfl⟩
      · simp
      · simp
      · simp
      · simpa [hq] using hjob
      · simp [hset]
      · simp [q]
    · have hrests := Part.redecide_rests (hdecided hdecide) (by rw [hq]; exact hne) (by rw [hq]; exact hjob)
        (show q.queue k = [] from hqueue)
      obtain ⟨l, hl⟩ := Part.idleLoad_port k (Part.runningPort k .idle q)
      refine ⟨_, hexec hrests, ?_, ?_, ?_, ?_, rfl⟩
      · simp [hl]
      · simp [hl]
      · simp [hl]
      · simp [q]

end Sys2Proof.Machine
end

section
/-! PROOF. The presentation of bytes, their time limits and the stall (O53). -/

namespace Sys2Proof.Machine

namespace Part

section

variable {p : Part} {k : Port}

/-! ## The presentation of a byte and its time limit (R102) -/

theorem presentByte_presents {j : JobNo} {v : Byte} (hstate : (p.port k).state = .busy) (hjob : (p.port k).job = some j)
    (hhandshake : (p.port k).handshake = none) (hfetched : (p.port k).fetched = some v)
    (hclear : (p.port k).abandoned = false) (habort : (p.job j).abortPending = false) : presentByte k p =
      modPort k (fun t => { t with data := v, strobe := true, handshake := some v, fetched := none }) p := by
  simp only [presentByte, hjob, hfetched, hstate, hhandshake, hclear, habort, Bool.false_eq_true, not_false_eq_true,
    and_self, if_true]

/-- Nothing is presented outside BUSY, with a byte in handshake, or while an acknowledge is owed. -/
theorem presentByte_waits (h : (p.port k).state ≠ .busy ∨ (p.port k).handshake.isSome = true
    ∨ (p.port k).abandoned = true) : presentByte k p = p := by
  unfold presentByte
  extract_lets t
  split
  · refine if_neg fun ⟨hstate, hhandshake, hclear, _⟩ => ?_
    rcases h with h | h | h
    · exact h hstate
    · rw [show (p.port k).handshake = none from hhandshake] at h
      exact nomatch h
    · exact hclear h
  · rfl

theorem abandonedTimeout_clear (h : (p.port k).abandoned = false) : abandonedTimeout k p = p := by
  simp only [abandonedTimeout, h, Bool.not_false, if_true]

theorem abandonedTimeout_marked (h : (p.port k).abandoned = true) : abandonedTimeout k p =
    if atStepFour (p.port k) then clearAbandoned k p else modPort k (fun t => { t with overdue := true }) p := by
  simp only [abandonedTimeout, h, Bool.not_true, Bool.false_eq_true, if_false]

theorem atStepFour_iff (t : PrinterPort) : atStepFour t = true ↔
    t.state = .busy ∧ t.job.isSome = true ∧ t.handshake = none ∧ t.fetched.isSome = true := by
  simp [atStepFour, and_assoc]

/-! ## The stall (R103, R104) -/

theorem stallExpiry_stopped (h : (p.port k).stall = none) : stallExpiry k p = p := if_pos h

theorem stallExpiry_busy (hstall : (p.port k).stall.isSome = true) (hstate : (p.port k).state = .busy) :
    stallExpiry k p = redecide k (modPort k (fun t => { t with stalled := true, stall := none }) p) := by
  have hne : (p.port k).stall ≠ none := Option.isSome_iff_ne_none.mp hstall
  simp only [stallExpiry, hne, if_false, hstate]

theorem stallExpiry_stalled (hstall : (p.port k).stall.isSome = true) (hstate : (p.port k).state = .stalled)
    (hjob : (p.port k).job = none) :
    stallExpiry k p = redecide k (modPort k (fun t => { t with stalled := false, stall := none }) p) := by
  have hne : (p.port k).stall ≠ none := Option.isSome_iff_ne_none.mp hstall
  simp only [stallExpiry, hne, if_false, hstate, hjob, if_true]

theorem stallEndBusyLow_ends (hstate : (p.port k).state = .stalled) (hjob : (p.port k).job.isSome = true)
    (hhandshake : (p.port k).handshake = none) :
    stallEndBusyLow k p = redecide k (modPort k (fun t => { t with stalled := false }) p) :=
  if_pos ⟨hstate, hjob, hhandshake⟩

theorem stallEndBusyLow_other (h : (p.port k).state ≠ .stalled ∨ (p.port k).job = none
    ∨ (p.port k).handshake.isSome = true) : stallEndBusyLow k p = p := by
  refine if_neg fun ⟨hstate, hjob, hhandshake⟩ => ?_
  rcases h with h | h | h
  · exact h hstate
  · rw [show (p.port k).job = none from h] at hjob
    exact nomatch hjob
  · rw [show (p.port k).handshake = none from hhandshake] at h
    exact nomatch h

end

end Part

/-- A port with no condition, by what stalls it and by its job (R101). -/
theorem PrinterPort.decide_calm {t : PrinterPort} (hfault : t.fault = false) (hpaper : t.paperOut = false)
    (hdeselected : t.deselected = false) :
    t.decide true = if t.stalled then .stalled else if t.job.isSome then .busy else .idle := by
  simp [PrinterPort.decide, hfault, hpaper, hdeselected]

/-- Settles O53: the presentation and the time limit by their equations, the stall by the decision it asks for. -/
theorem bytesArePresentedAndStallsEnd : Obligations.BytesArePresentedAndStallsEnd := by
  refine ⟨fun s k hheld => ?bytes, fun s k hheld hon => ?stalls⟩
  case bytes =>
    intro t
    have hpresent : ∀ {q}, Part.presentByte k s.part = q → exec (.bytePresent k) s = .next (s.withPart q) :=
      onPart_awake_eq hheld
    have htimeout : ∀ {q}, Part.abandonedTimeout k s.part = q → exec (.abandonedByteTimeout k) s = .next (s.withPart q) :=
      onPart_awake_eq hheld
    refine ⟨fun j v hstate hjob hhandshake hfetched habort => ⟨fun hclear => hpresent
        (Part.presentByte_presents hstate hjob hhandshake hfetched hclear habort),
        fun habandoned => hpresent (Part.presentByte_waits (.inr (.inr habandoned)))⟩,
      fun h => hpresent (Part.presentByte_waits (.inr (.inl h))), fun h => hpresent (Part.presentByte_waits (.inl h)),
      onPart_awake_eq hheld rfl, fun h => htimeout (Part.abandonedTimeout_clear h), fun habandoned => ⟨?_, ?_⟩⟩
    · intro hstate hjob hhandshake hfetched
      exact htimeout ((Part.abandonedTimeout_marked habandoned).trans
        (if_pos ((Part.atStepFour_iff t).mpr ⟨hstate, hjob, hhandshake, hfetched⟩)))
    · intro h
      refine htimeout ((Part.abandonedTimeout_marked habandoned).trans (if_neg fun hfour => ?_))
      obtain ⟨hstate, hjob, hhandshake, hfetched⟩ := (Part.atStepFour_iff _).mp hfour
      rcases h with h | h | h | h
      · exact h hstate
      · rw [show (s.part.port k).job = none from h] at hjob
        exact nomatch hjob
      · rw [show t.handshake = none from hhandshake] at h
        exact nomatch h
      · rw [show (s.part.port k).fetched = none from h] at hfetched
        exact nomatch hfetched
  case stalls =>
    intro t
    have hexpiry : ∀ {q}, Part.stallExpiry k s.part = q → exec (.stallTimerExpiry k) s = .next (s.withPart q) :=
      onPart_awake_eq hheld
    have hlow : ∀ {q}, Part.stallEndBusyLow k s.part = q → exec (.stallEndBusyLow k) s = .next (s.withPart q) :=
      onPart_awake_eq hheld
    refine ⟨fun h => hexpiry (Part.stallExpiry_stopped h), fun hfault hpaper hdeselected => ⟨?stalls, ?rests, ?ends⟩,
      fun h => hlow (Part.stallEndBusyLow_other h)⟩
    case stalls =>
      intro j hstate hstall hjob habort hload
      let q : Part := Part.modPort k (fun t => { t with stalled := true, stall := none }) s.part
      have hq : q.port k = { t with stalled := true, stall := none } := Part.port_modPort_self ..
      have hdecide : (q.port k).decide (q.printerSetup k).enable = .stalled := by
        rw [hq, show (q.printerSetup k).enable = true from hon]
        exact PrinterPort.decide_calm hfault hpaper hdeselected
      have hholds := Part.redecide_holds hdecide rfl (by rw [hq, hstate]; decide) (by rw [hq]; exact hjob)
        (show (q.job j).abortPending = false from habort)
      have hport := Part.troubledPort_stalled (p := q) (k := k)
      rw [hq] at hport
      refine ⟨_, hexpiry ((Part.stallExpiry_busy hstall hstate).trans hholds), ?_, ?_, ?_, ?_, ?_, ?_, rfl⟩
      · simp [hport, PrinterPort.entering]
      · simp [hport, PrinterPort.entering]
      · simpa [hport, PrinterPort.entering] using hjob
      · simp [hport, PrinterPort.entering]
      · simp [Part.job, q, PortState.holdReason]
      · simp [q]
        rfl
    case rests =>
      intro hstate hstall hjob hqueue
      let q : Part := Part.modPort k (fun t => { t with stalled := false, stall := none }) s.part
      have hq : q.port k = { t with stalled := false, stall := none } := Part.port_modPort_self ..
      have hdecide : (q.port k).decide (q.printerSetup k).enable = .idle := by
        rw [hq, show (q.printerSetup k).enable = true from hon]
        exact (PrinterPort.decide_calm (by exact hfault) (by exact hpaper) (by exact hdeselected)).trans (by simp [hjob])
      have hrests := Part.redecide_rests hdecide (by rw [hq, hstate]; decide) (by rw [hq]; exact hjob)
        (show q.queue k = [] from hqueue)
      obtain ⟨l, hl⟩ := Part.idleLoad_port k (Part.runningPort k .idle q)
      refine ⟨_, hexpiry ((Part.stallExpiry_stalled hstall hstate hjob).trans hrests), ?_, ?_, ?_, ?_, rfl⟩
      · simp [hl]
      · simpa [hl, hq] using hjob
      · simp [hl]
      · simp [q]
    case ends =>
      intro j hstate hjob hhandshake hchain
      let q : Part := Part.modPort k (fun t => { t with stalled := false }) s.part
      have hq : q.port k = { t with stalled := false } := Part.port_modPort_self ..
      have hdecide : (q.port k).decide (q.printerSetup k).enable = .busy := by
        rw [hq, show (q.printerSetup k).enable = true from hon]
        exact (PrinterPort.decide_calm (by exact hfault) (by exact hpaper) (by exact hdeselected)).trans (by simp [hjob])
      have hprints := Part.redecide_prints hdecide (by rw [hq, hstate]; decide) (by rw [hq]; exact hjob)
        (show ∀ e ∈ (q.job j).chain.head?, e.fill ≠ 0 from fun e he => hchain e (List.mem_of_mem_head? he))
      refine ⟨_, hlow ((Part.stallEndBusyLow_ends hstate (by simp [show (s.part.port k).job = _ from hjob]) hhandshake).trans hprints), ?_, ?_, ?_, ?_, rfl⟩
      · simp
      · simpa [hq] using hjob
      · simp [q]
      · simp [q]

end Sys2Proof.Machine
end

section
/-! PROOF. The redirect timer (O55). -/

namespace Sys2Proof.Machine

namespace Part

section

variable {p : Part} {j : JobNo} {k a : Port}

/-! ## The alternate of a port (R107) -/

theorem alternateOf_eq (halt : (p.printerSetup k).alternate = a.val) (hne : a ≠ k)
    (hon : (p.printerSetup a).enable = true) : p.alternateOf k = some a := by
  have hlt : (p.printerSetup k).alternate < 3 := by omega
  have ha : (⟨(p.printerSetup k).alternate, hlt⟩ : Port) = a := Fin.ext halt
  unfold alternateOf
  rw [dif_pos hlt]
  simp only [ha]
  exact if_pos ⟨hne, hon⟩

theorem alternateOf_none (h : 3 ≤ (p.printerSetup k).alternate ∨ (p.printerSetup k).alternate = k.val
    ∨ ∀ a : Port, (p.printerSetup k).alternate = a.val → (p.printerSetup a).enable = false) : p.alternateOf k = none := by
  unfold alternateOf
  split
  · next hlt =>
    refine if_neg fun ⟨hne, hon⟩ => ?_
    rcases h with h | h | h
    · omega
    · exact hne (Fin.ext h)
    · rw [h _ rfl] at hon
      exact nomatch hon
  · rfl

/-! ## The expiry (R107) -/

/-- The part as the redirect timer of a port has expired, before any job moves. -/
def redirecting (k : Port) (p : Part) : Part :=
  submitEvent (notify .printer (modPort k (fun t => { t with redirect := none, redirected := true }) p))

theorem redirecting_port (k i : Port) (p : Part) : (redirecting k p).port i =
    (modPort k (fun t => { t with redirect := none, redirected := true }) p).port i := by simp [redirecting]

theorem redirectExpiry_stopped (h : (p.port k).redirect = none) : redirectExpiry k p = p := if_pos h

theorem redirectExpiry_alone (h : (p.port k).redirect.isSome = true) (halt : p.alternateOf k = none) :
    redirectExpiry k p = redirecting k p := by
  have hne : (p.port k).redirect ≠ none := Option.isSome_iff_ne_none.mp h
  have halt' : (redirecting k p).alternateOf k = none := halt
  have hmatch : redirectExpiry k p = match (redirecting k p).alternateOf k with
      | none => redirecting k p
      | some a => idleLoad k (each ((redirecting k p).queue k) (fun j q =>
          if !(q.job j).moved && q.hasRoom a then moveWaiting j k a q else q) (redirecting k p)) := if_neg hne
  rw [hmatch, halt']

/-- With one job queued, the expiry moves it where it has not moved yet and the alternate has room. -/
theorem redirectExpiry_single (h : (p.port k).redirect.isSome = true) (halt : p.alternateOf k = some a)
    (hqueue : p.queue k = [j]) : redirectExpiry k p = idleLoad k
      (if !(p.job j).moved && p.hasRoom a then moveWaiting j k a (redirecting k p) else redirecting k p) := by
  have hne : (p.port k).redirect ≠ none := Option.isSome_iff_ne_none.mp h
  have halt' : (redirecting k p).alternateOf k = some a := halt
  have hqueue' : (redirecting k p).queue k = [j] := by simpa [redirecting] using hqueue
  have hmatch : redirectExpiry k p = match (redirecting k p).alternateOf k with
      | none => redirecting k p
      | some a => idleLoad k (each ((redirecting k p).queue k) (fun j q =>
          if !(q.job j).moved && q.hasRoom a then moveWaiting j k a q else q) (redirecting k p)) := if_neg hne
  rw [hmatch, halt']
  simp only [hqueue', each, List.foldl_cons, List.foldl_nil]
  rfl

/-- A job that moves to a port that is not IDLE waits in its queue (R107). -/
theorem moveWaiting_notIdle (h : (p.port a).state ≠ .idle) : moveWaiting j k a p =
    modQueue a (fun l => l ++ [j]) (updJob j (fun x => { x with printer := a, moved := true }) 0 (leaveQueue j k p)) :=
  joinQueue_notIdle j (by simpa using h)

end

end Part

/-- Settles O55: the expiry by the alternate, its room and the job. -/
theorem redirectMovesTheWaitingJobs : Obligations.RedirectMovesTheWaitingJobs := by
  intro s k hheld t alt
  have hexec : ∀ {q}, Part.redirectExpiry k s.part = q → exec (.redirectTimerExpiry k) s = .next (s.withPart q) :=
    onPart_awake_eq hheld
  refine ⟨fun h => hexec (Part.redirectExpiry_stopped h), fun hrun => ⟨fun halt => ?alone, ?alternate⟩⟩
  case alone => exact hexec (Part.redirectExpiry_alone hrun (Part.alternateOf_none halt))
  case alternate =>
    intro a j halt hne hon hqueue hstate
    have hsingle := Part.redirectExpiry_single hrun (Part.alternateOf_eq halt hne hon) hqueue
    let q : Part := Part.redirecting k s.part
    have hself : q.port k = { t with redirect := none, redirected := true } :=
      (Part.redirecting_port k k s.part).trans (Part.port_modPort_self ..)
    have hother : q.port a = s.part.port a :=
      (Part.redirecting_port k a s.part).trans (Part.port_modPort_ne _ _ _ _ hne)
    refine ⟨fun hmoved hroom => ?_, fun hstays => ?_⟩
    · have hmoves : (!(s.part.job j).moved && s.part.hasRoom a) = true := by
        simp only [hmoved, Bool.not_false, Bool.true_and]
        exact decide_eq_true hroom
      rw [if_pos hmoves, Part.moveWaiting_notIdle (by rw [hother]; exact hstate)] at hsingle
      let q' : Part := Part.modQueue a (fun l => l ++ [j])
        (Part.updJob j (fun x => { x with printer := a, moved := true }) 0 (Part.leaveQueue j k q))
      have hport : q'.port k = { t with redirect := none, redirected := true } := by simpa [q'] using hself
      obtain ⟨l, hl⟩ := Part.idleLoad_port k q'
      rw [hport] at hl
      have hqueues : ∀ i, (Part.idleLoad k q').queue i = q'.queue i := by simp only [Part.idleLoad_views, implies_true]
      have hjobs : ∀ i, (Part.idleLoad k q').job i = q'.job i := by simp only [Part.idleLoad_views, implies_true]
      refine ⟨_, hexec hsingle, ?_, ?_, ?_, ?_, ?_, rfl⟩
      · refine (hqueues k).trans ((Part.queue_modQueue_ne _ _ _ _ hne.symm).trans ?_)
        simp [q, Part.redirecting, hqueue]
      · refine (hqueues a).trans ((Part.queue_modQueue_self ..).trans ?_)
        simp [q, Part.redirecting, Part.queue_leaveQueue_ne _ _ hne]
      · refine (hjobs j).trans ?_
        simp [q', q, Part.redirecting]
      · exact (congrArg PrinterPort.redirected hl :)
      · exact (congrArg PrinterPort.state hl :)
    · have hnot : (!(s.part.job j).moved && s.part.hasRoom a) = false := by
        rcases hstays with h | h
        · rw [h]
          rfl
        · have hfull : s.part.hasRoom a = false := decide_eq_false (Nat.not_lt.mpr h)
          rw [hfull, Bool.and_false]
      rw [if_neg (by simp [hnot]), Part.idleLoad_queued (by simp [Part.redirecting, hqueue])] at hsingle
      refine ⟨_, hexec hsingle, ?_, ?_, ?_, ?_, rfl⟩
      · simp [Part.redirecting]
      · simp [Part.redirecting]
      · exact congrArg PrinterPort.redirected hself
      · exact congrArg PrinterPort.redirect hself

end Sys2Proof.Machine
end

section
/-! PROOF. The acknowledges of a printer (O54). -/

namespace Sys2Proof.Machine

namespace Part

section

variable {p : Part} {j : JobNo} {k : Port}

/-! ## A byte is counted (R98, R102) -/

/-- The part with the byte in handshake counted: a buffer whose last byte it was is freed. -/
def counted (k : Port) (j : JobNo) (p : Part) : Part :=
  let q := modPort k (fun t => { t with handshake := none, fetched := none }) p
  match (p.job j).chain with
  | [] => updJob j (fun x => { x with printed := (p.job j).printed + 1 }) 0 q
  | e :: r =>
    if (p.job j).freed + e.fill ≤ (p.job j).printed + 1 then
      freeBuffer e.buf (updJob j (fun x => { x with
        printed := (p.job j).printed + 1, chain := r, freed := x.freed + e.fill }) 0 q)
    else updJob j (fun x => { x with printed := (p.job j).printed + 1 }) 0 q

theorem countByte_eq (k : Port) (j : JobNo) (p : Part) : countByte k j p =
    if (p.job j).abortPending then
      modPort k (fun t => { t with job := none }) (abortJob j .abortedByRequest (counted k j p))
    else if (p.job j).queuedBytes ≤ (p.job j).printed + 1 then
      modPort k (fun t => { t with job := none }) (finishJob j (counted k j p))
    else counted k j p := rfl

theorem counted_port (k : Port) (j : JobNo) (p : Part) :
    (counted k j p).port k = { p.port k with handshake := none, fetched := none } := by
  simp only [counted]
  split
  · simp
  · split <;> simp

@[simp] theorem counted_keeps (k : Port) (j : JobNo) (p : Part) :
    (counted k j p).queues = p.queues ∧ (counted k j p).setup = p.setup := by
  simp only [counted]
  split
  · simp
  · split <;> simp

/-- A byte inside a buffer is counted. -/
theorem counted_inside {e : ChainEntry} {r : List ChainEntry} (hchain : (p.job j).chain = e :: r)
    (hmore : (p.job j).printed + 1 < (p.job j).freed + e.fill) : counted k j p =
      updJob j (fun x => { x with printed := (p.job j).printed + 1 }) 0
        (modPort k (fun t => { t with handshake := none, fetched := none }) p) := by
  simp only [counted, hchain, if_neg (Nat.not_le.mpr hmore)]

/-- The job and the buffers after a byte has been counted: what has been freed is the front of the chain. -/
theorem counted_frees (k : Port) (j : JobNo) (p : Part) : ∃ freed rest n, (p.job j).chain = freed ++ rest
    ∧ (counted k j p).job j = { p.job j with printed := (p.job j).printed + 1, chain := rest, freed := n }
    ∧ (counted k j p).pool.free = p.pool.free ++ freed.map fun e => e.buf := by
  cases h : (p.job j).chain with
  | nil => exact ⟨[], [], (p.job j).freed, rfl, by simp [counted, h], by simp [counted, h]⟩
  | cons e r =>
    by_cases hlast : (p.job j).freed + e.fill ≤ (p.job j).printed + 1
    · exact ⟨[e], r, (p.job j).freed + e.fill, rfl, by simp [counted, h, hlast], by simp [counted, h, hlast]⟩
    · exact ⟨[], e :: r, (p.job j).freed, rfl, by simp [counted, h, hlast], by simp [counted, h, hlast]⟩

/-! ## What an acknowledge does (R101, R102, R104) -/

/-- The part after an acknowledge has been counted, before the port state is decided again. -/
def acked (k : Port) (j : JobNo) (p : Part) : Part :=
  modPort k (fun t =>
    { t with stalled := false, stall := if t.job.isSome then some (p.printerSetup k).stallS else none }) (countByte k j p)

theorem countingAck_eq (k : Port) (j : JobNo) (p : Part) : countingAck k j p = redecide k (reach k (acked k j p)) := rfl

theorem acknowledge_counts {v : Byte} (hstate : (p.port k).state = .busy ∨ (p.port k).state = .stalled)
    (hjob : (p.port k).job = some j) (hhandshake : (p.port k).handshake = some v) :
    acknowledge k p = countingAck k j p := by
  rcases hstate with hstate | hstate <;> simp only [acknowledge, hstate, hjob, hhandshake]

theorem acknowledge_unawaited (hstate : (p.port k).state = .busy) (hhandshake : (p.port k).handshake = none) :
    acknowledge k p = p := by
  cases hjob : (p.port k).job <;> simp only [acknowledge, hstate, hjob, hhandshake]

theorem acknowledge_stalled (hstate : (p.port k).state = .stalled) (hjob : (p.port k).job.isSome = true)
    (hhandshake : (p.port k).handshake = none) : acknowledge k p = p := by
  obtain ⟨j, hj⟩ := Option.isSome_iff_exists.mp hjob
  simp only [acknowledge, hstate, hj, hhandshake]

theorem acknowledge_ends (hstate : (p.port k).state = .stalled) (hjob : (p.port k).job = none) :
    acknowledge k p = redecide k (clearAbandoned k (modPort k (fun t => { t with stalled := false }) p)) := by
  cases hhandshake : (p.port k).handshake <;> simp only [acknowledge, hstate, hjob, hhandshake]

theorem acknowledge_clears (h : (p.port k).state = .idle ∨ (p.port k).state = .disabled ∨ (p.port k).state = .paperOut
    ∨ (p.port k).state = .offline ∨ (p.port k).state = .fault) : acknowledge k p = clearAbandoned k p := by
  rcases h with h | h | h | h | h <;> simp only [acknowledge, h]

/-- A counted byte that is not the last of its job, and no abort pending: the port goes on with its job. -/
theorem acked_goesOn {e : ChainEntry} {r : List ChainEntry} (hjob : (p.port k).job = some j)
    (hchain : (p.job j).chain = e :: r) (habort : (p.job j).abortPending = false)
    (hmore : (p.job j).printed + 1 < (p.job j).freed + e.fill) (hbytes : (p.job j).printed + 1 < (p.job j).queuedBytes) :
    (acked k j p).port k = { p.port k with
        handshake := none, fetched := none, stalled := false, stall := some (p.printerSetup k).stallS }
      ∧ (acked k j p).job j = { p.job j with printed := (p.job j).printed + 1 } ∧ (acked k j p).pool = p.pool
      ∧ (acked k j p).setup = p.setup := by
  have hcount : countByte k j p = counted k j p := by
    rw [countByte_eq, habort, if_neg (by simp), if_neg (Nat.not_le.mpr hbytes)]
  have hport := counted_port k j p
  have hin := counted_inside (k := k) hchain hmore
  have hcounted : (counted k j p).job j = { p.job j with printed := (p.job j).printed + 1 }
      ∧ (counted k j p).pool = p.pool ∧ (counted k j p).setup = p.setup := by
    rw [hin]
    simp
  obtain ⟨hj, hpool, hset⟩ := hcounted
  rw [acked, hcount]
  generalize counted k j p = q at *
  exact ⟨by simp [hport, hjob], by simpa using hj, by simpa using hpool, by simpa using hset⟩

/-- A counted byte that ends its job: the port has no job and no byte. -/
theorem acked_over {q : Part} (hcount : countByte k j p = modPort k (fun t => { t with job := none }) q)
    (hport : q.port k = { p.port k with handshake := none, fetched := none }) :
    (acked k j p).port k = { p.port k with
        job := none, handshake := none, fetched := none, stalled := false, stall := none }
      ∧ (acked k j p).jobs = q.jobs ∧ (acked k j p).pool = q.pool ∧ (acked k j p).setup = q.setup
      ∧ (acked k j p).queues = q.queues := by
  rw [acked, hcount]
  exact ⟨by simp [hport], rfl, rfl, rfl, rfl⟩

theorem reach_noJob (h : (p.port k).job = none) : reach k p = p := by
  simp only [reach, h]

theorem finishJob_free (j : JobNo) (p : Part) :
    (finishJob j p).pool.free = p.pool.free ++ (p.job j).chain.map fun e => e.buf := by
  simp [finishJob]

/-- A port whose job has ended, with an empty queue and no load, comes to rest (R98, R101). -/
theorem redecide_over {t : PrinterPort}
    (hport : p.port k = { t with job := none, handshake := none, fetched := none, stalled := false, stall := none })
    (hdecide : ({ t with stalled := false, job := none } : PrinterPort).decide (p.printerSetup k).enable = .idle)
    (hstate : t.state ≠ .idle) (hqueue : p.queue k = []) (hload : t.loadPending = false) :
    redecide k (reach k p) = runningPort k .idle p := by
  rw [reach_noJob (by rw [hport]), redecide_rests (by rw [hport]; exact hdecide) (by rw [hport]; exact hstate)
    (by rw [hport]) hqueue]
  exact idleLoad_notPending (by simpa [hport] using hload)

end

end Part

/-- A BUSY port is not stalled (R101). -/
theorem PrinterPort.stalled_of_busy {t : PrinterPort} {on : Bool} (h : t.decide on = .busy) : t.stalled = false := by
  unfold PrinterPort.decide at h
  (repeat' split at h) <;> simp_all

/-- Settles O54: the acknowledge by the state of the port, and a counted byte by what it leaves of its job. -/
theorem acknowledgesCountTheByte : Obligations.AcknowledgesCountTheByte := by
  intro s k hheld t c
  have hexec : ∀ {q}, Part.acknowledge k s.part = q → exec c s = .next (s.withPart q) := onPart_awake_eq hheld
  refine ⟨fun hstate hhandshake => hexec (Part.acknowledge_unawaited hstate hhandshake),
    fun h => hexec (Part.acknowledge_clears h), fun hstate hjob hhandshake => hexec (Part.acknowledge_stalled hstate hjob hhandshake),
    ?ends, ?resumes, ?aborts, ?counts⟩
  case ends =>
    intro hstate hjob hload hqueue hdecide
    let q : Part := Part.clearAbandoned k (Part.modPort k (fun t => { t with stalled := false }) s.part)
    have hq : q.port k = { t with stalled := false, abandoned := false, overdue := false } := by
      simp [q, Part.clearAbandoned, t]
    have hrests := Part.redecide_rests (p := q) (k := k) (by rw [hq]; exact hdecide) (by rw [hq, hstate]; decide)
      (by rw [hq]; exact hjob) (show q.queue k = [] from hqueue)
    rw [Part.idleLoad_notPending (by simpa [hq] using hload)] at hrests
    refine ⟨_, hexec ((Part.acknowledge_ends hstate hjob).trans hrests), ?_, ?_, ?_, rfl⟩
    · rw [State.withPart_part, Part.runningPort_port, hq]
      rfl
    · simp [q, Part.clearAbandoned]
    · simp [q, Part.clearAbandoned]
  case resumes =>
    intro j v e r x hstate hjob hhandshake hchain habort hdecide hmore hbytes hfill
    obtain ⟨hport, hj, hpool, hset⟩ := Part.acked_goesOn (p := s.part) hjob hchain habort hmore hbytes
    have hack := (Part.acknowledge_counts (.inr hstate) hjob hhandshake).trans (Part.countingAck_eq k j s.part)
    have hreach := Part.reach_stands (p := Part.acked k j s.part) (k := k) fun i hi f hf => by
      rw [hport] at hi
      obtain rfl : j = i := Option.some.inj (hjob.symm.trans hi)
      rw [hj, show (s.part.job j).chain = _ from hchain] at hf
      obtain rfl : e = f := Option.some.inj hf
      exact hfill
    rw [hreach] at hack
    generalize Part.acked k j s.part = q at *
    have hprinter : q.printerSetup k = s.part.printerSetup k := by simp only [Part.printerSetup, hset]
    have hbusy : (q.port k).decide (q.printerSetup k).enable = .busy := by
      rw [hport, hprinter]
      exact hdecide
    have hprints := Part.redecide_prints hbusy (by rw [hport, show (s.part.port k).state = _ from hstate]; decide)
      (by rw [hport]; exact hjob) (fun f hf => by
        rw [hj, show (s.part.job j).chain = _ from hchain] at hf
        obtain rfl : e = f := Option.some.inj hf
        exact hfill)
    refine ⟨_, hexec (hack.trans hprints), ?_, ?_, ?_, rfl⟩
    · simp [hj, x]
    · simp [hport, hprinter, t]
    · simp [hpool]
  case aborts =>
    intro j v x hstate hjob hhandshake habort hlive hload hqueue hdecide
    have hack := (Part.acknowledge_counts hstate hjob hhandshake).trans (Part.countingAck_eq k j s.part)
    obtain ⟨freed, rest, n, hchain, hj, hfree⟩ := Part.counted_frees k j s.part
    have hport := Part.counted_port k j s.part
    have hcount := Part.countByte_eq k j s.part
    rw [if_pos habort] at hcount
    have hkept := Part.counted_keeps k j s.part
    obtain ⟨hqueues, hset⟩ := hkept
    have hover := Part.acked_over hcount (by simpa using hport)
    generalize Part.counted k j s.part = q at *
    have hstate' : (q.job j).state.live = true ∧ (q.job j).state ≠ .waiting := by
      rw [hj]
      rcases hlive with h | h <;> simp [show (s.part.job j).state = _ from h, JobState.live]
    obtain ⟨hlive', hnot⟩ := hstate'
    have hpool := Part.abortJob_pool .abortedByRequest hlive'
    have hjob' := Part.abortJob_job_self .abortedByRequest hlive'
    have hqueues' := Part.abortJob_queues .abortedByRequest hnot
    obtain ⟨hackport, hackjobs, hackpool, hackset, hackqueues⟩ := hover
    have hjobs : (Part.acked k j s.part).job j = _ := (congrArg (Vector.get · j) hackjobs).trans hjob'
    have hempty : (Part.acked k j s.part).queue k = [] := by
      rw [Part.queue, hackqueues, hqueues', hqueues]
      exact hqueue
    have hprinter : (Part.acked k j s.part).printerSetup k = s.part.printerSetup k := by
      simp only [Part.printerSetup, hackset, Part.abortJob_keeps, hset]
    rw [Part.redecide_over hackport (by rw [hprinter]; exact hdecide) (by rcases hstate with h | h <;> rw [h] <;> decide)
      hempty hload] at hack
    generalize Part.acked k j s.part = r at *
    refine ⟨_, hexec hack, ?_, ?_, ?_, ?_, ?_, ?_, ?_, ?_, ?_, ?_, rfl⟩
    · simp [hjobs]
    · simp [hjobs]
    · simp [hjobs, hj, x]
    · simp [hjobs]
    · simp [hjobs]
    · simp [hackpool, hpool, hfree, hj, x, hchain]
    · simp [hackport]
    · simp
    · simp [hackport]
    · simp
  case counts =>
    intro j v e r x hstate hjob hhandshake hchain habort hdecide
    have hstalled : t.stalled = false := PrinterPort.stalled_of_busy hdecide
    have hack := (Part.acknowledge_counts (.inl hstate) hjob hhandshake).trans (Part.countingAck_eq k j s.part)
    refine ⟨fun hmore hbytes hfill => ?_, fun hr hlast hbytes hqueue hload => ?_⟩
    · obtain ⟨hport, hj, hpool, hset⟩ := Part.acked_goesOn (p := s.part) hjob hchain habort hmore hbytes
      have hreach := Part.reach_stands (p := Part.acked k j s.part) (k := k) fun i hi f hf => by
        rw [hport] at hi
        obtain rfl : j = i := Option.some.inj (hjob.symm.trans hi)
        rw [hj, show (s.part.job j).chain = _ from hchain] at hf
        obtain rfl : e = f := Option.some.inj hf
        exact hfill
      rw [hreach] at hack
      have hprinter : (Part.acked k j s.part).printerSetup k = s.part.printerSetup k := by
        simp only [Part.printerSetup, hset]
      generalize Part.acked k j s.part = q at *
      rw [show (false : Bool) = t.stalled from hstalled.symm] at hport
      have hsame : (q.port k).decide (q.printerSetup k).enable = (q.port k).state := by
        rw [hport, hprinter]
        exact hdecide.trans hstate.symm
      have hdone : Part.redecide k q = q := by
        rw [Part.redecide, Part.decidePort_same hsame, Part.servePort_notIdle (by rw [hport, show (s.part.port k).state = _ from hstate]; decide),
          Part.idleLoad_waits (.inl (by simp [hport, show (s.part.port k).job = _ from hjob]))]
      exact ⟨_, hexec (hack.trans hdone), hj, hport, hpool, rfl⟩
    · obtain ⟨freed, rest, n, hparts, hj, hfree⟩ := Part.counted_frees k j s.part
      have hport := Part.counted_port k j s.part
      have hcount := Part.countByte_eq k j s.part
      rw [habort, if_neg (by simp), if_pos (Nat.le_of_eq hbytes)] at hcount
      obtain ⟨hqueues, hset⟩ := Part.counted_keeps k j s.part
      have hover := Part.acked_over hcount (by simpa using hport)
      generalize Part.counted k j s.part = q at *
      obtain ⟨hqueuesKept, hjob'⟩ := Part.finishJob_queue_job j q
      have hpool := Part.finishJob_free j q
      obtain ⟨hackport, hackjobs, hackpool, hackset, hackqueues⟩ := hover
      have hjobs : (Part.acked k j s.part).job j = _ := (congrArg (Vector.get · j) hackjobs).trans hjob'
      have hempty : (Part.acked k j s.part).queue k = [] := by
        rw [Part.queue, hackqueues, ← Part.queue, hqueuesKept, Part.queue, hqueues]
        exact hqueue
      have hprinter : (Part.acked k j s.part).printerSetup k = s.part.printerSetup k := by
        simp only [Part.printerSetup, hackset, Part.finishJob_keeps, hset]
      have hidle : ({ t with stalled := false, job := none } : PrinterPort).decide (s.part.printerSetup k).enable = .idle := by
        rw [show (false : Bool) = t.stalled from hstalled.symm]
        exact PrinterPort.decide_noJob hdecide
      rw [Part.redecide_over hackport (by rw [hprinter]; exact hidle) (by rw [hstate]; decide) hempty hload] at hack
      generalize Part.acked k j s.part = r at *
      refine ⟨_, hexec hack, ?_, ?_, ?_, ?_, ?_, ?_, ?_, ?_, rfl⟩
      · simp [hjobs]
      · simp [hjobs]
      · simp [hjobs, hj, x]
      · simp [hjobs]
      · simp only [State.withPart_part, Part.runningPort_keeps, hackpool, hpool, hfree, hj, List.append_assoc, ← List.map_append,
          ← hparts]
        rw [show (s.part.job j).chain = _ from hchain, hr]
        rfl
      · simp [hackport]
      · simp
      · simp [hackport]

end Sys2Proof.Machine
end

section
/-! PROOF. The fields of a setup block as a commit reads them (O15, O16). -/

namespace Sys2Proof.Machine

/-! ## Numbers and ranges (R178, R191) -/

theorem clamp_eq {lo hi : Nat} (h : lo ≤ hi) (n : Nat) : clamp lo hi n = max lo (min hi n) := by
  unfold clamp
  split
  · omega
  · split <;> omega

theorem numAt_one (l : List Byte) (i : Nat) : numAt l i 1 = (l.getD i 0).toNat := by
  simp [numAt, byteAt]

theorem numAt_two (l : List Byte) (i : Nat) : numAt l i 2 = (l.getD i 0).toNat + 256 * (l.getD (i + 1) 0).toNat := by
  simp [numAt, byteAt]

theorem ofNat_two_bytes (a b : Byte) : BitVec.ofNat 16 (a.toNat + 256 * b.toNat) = b ++ a := by
  apply BitVec.eq_of_toNat_eq
  have ha := a.isLt
  have hb := b.isLt
  rw [BitVec.toNat_ofNat, BitVec.toNat_append, Nat.mod_eq_of_lt (by omega), Nat.shiftLeft_eq,
    ← Nat.shiftLeft_eq, ← Nat.shiftLeft_add_eq_or_of_lt ha, Nat.shiftLeft_eq]
  omega

/-! ## The derived addresses (R45, R46) -/

theorem hasPrefix_iff (pre : Vector Byte 4) (a : NodeAddr) :
    hasPrefix pre a = true ↔ ∀ k : Fin 4, a.get (k.castLE (by omega)) = pre.get k := by
  rw [hasPrefix, beq_iff_eq]
  constructor
  · intro h k
    have hk := congrArg (fun l => l[k.val]?) h
    have hlt : k.val < 4 := k.isLt
    simpa [Vector.get, hlt, show k.val < 6 by omega] using hk
  · intro h
    refine List.ext_getElem (by simp) fun i h1 h2 => ?_
    have hi : i < 4 := by simpa using h2
    simpa [Vector.get] using h ⟨i, hi⟩

theorem acceptPrefix_taken {old new : Vector Byte 4} {assigned : List NodeAddr}
    (h : ∃ a ∈ assigned, ∀ k : Fin 4, a.get (k.castLE (by omega)) = new.get k) : acceptPrefix old new assigned = old := by
  obtain ⟨a, ha, hk⟩ := h
  have hany : assigned.any (hasPrefix new) = true := List.any_eq_true.mpr ⟨a, ha, (hasPrefix_iff new a).mpr hk⟩
  rw [acceptPrefix, if_pos hany, ite_self]

theorem acceptPrefix_free {old new : Vector Byte 4} {assigned : List NodeAddr}
    (h : ∀ a ∈ assigned, ∃ k : Fin 4, a.get (k.castLE (by omega)) ≠ new.get k) : acceptPrefix old new assigned = new := by
  have hany : ¬ assigned.any (hasPrefix new) = true := by
    rw [List.any_eq_true]
    rintro ⟨a, ha, hp⟩
    obtain ⟨k, hk⟩ := h a ha
    exact hk ((hasPrefix_iff new a).mp hp k)
  rw [acceptPrefix, if_neg hany]
  split
  · next hsame => exact hsame.symm
  · rfl

/-! ## The groups of the block (R178) -/

theorem readPrinterSetup_fields (l : List Byte) :
    let f := readPrinterSetup l
    f.enable = decide ((l.getD 0 0).toNat ≠ 0) ∧ f.stallS = max 1 (l.getD 1 0).toNat ∧ f.redirectS = (l.getD 2 0).toNat
      ∧ f.alternate = min 3 (l.getD 3 0).toNat := by
  have hlt : (l.getD 1 0).toNat < 256 := (l.getD 1 0).isLt
  refine ⟨?_, ?_, ?_, ?_⟩
  · simp only [readPrinterSetup, numAt_one]
  · simp only [readPrinterSetup, numAt_one, clamp_eq (show 1 ≤ 255 by omega)]
    omega
  · simp only [readPrinterSetup, numAt_one]
  · simp only [readPrinterSetup, numAt_one, clamp_eq (show 0 ≤ 3 by omega)]
    omega

/-- The thresholds of a branch, each clamped against what the one before was given (R133). -/
theorem readBranchSetup_triple (l : List Byte) :
    let f := readBranchSetup l
    let w (i : Nat) : Nat := (l.getD i 0).toNat + 256 * (l.getD (i + 1) 0).toNat
    f.ti = max 2 (min 1023 (w 0x14)) ∧ f.tw = max 1 (min (f.ti - 1) (w 0x16)) ∧ f.tc = min (f.tw - 1) (w 0x18)
      ∧ f.tc < f.tw ∧ f.tw < f.ti ∧ f.ti ≤ 1023 := by
  intro f w
  have hti : f.ti = max 2 (min 1023 (w 0x14)) := by
    simp only [f, w, readBranchSetup, numAt_two, clamp_eq (show 2 ≤ 1023 by omega)]
  have htw : f.tw = max 1 (min (f.ti - 1) (w 0x16)) := by
    have hle : 1 ≤ f.ti - 1 := by omega
    exact (clamp_eq hle _).trans (by rw [numAt_two])
  have htc : f.tc = min (f.tw - 1) (w 0x18) := by
    have hle : 0 ≤ f.tw - 1 := by omega
    exact (clamp_eq hle _).trans (by rw [numAt_two, Nat.zero_max])
  exact ⟨hti, htw, htc, readBranchSetup_thresholds l⟩

theorem readBranchSetup_rows : ∀ row ∈ [(640, 256, 128, 640, 256, 128), (700, 900, 950, 700, 699, 698), (1, 1, 1, 2, 1, 0),
    (1500, 300, 300, 1023, 300, 299)],
      let (ti, tw, tc, ti', tw', tc') := row
      let f := readBranchSetup (zeros 0x14 ++ le16 ti ++ le16 tw ++ le16 tc)
      f.ti = ti' ∧ f.tw = tw' ∧ f.tc = tc' := by
  decide

/-- The other fields of a branch, each in its range. -/
theorem readBranchSetup_fields (l : List Byte) :
    let f := readBranchSetup l
    let b (i : Nat) : Nat := (l.getD i 0).toNat
    f.replyWindow = max 2 (min 64 (b 0)) ∧ f.gapLimit = max 1 (min 8 (b 1)) ∧ f.missLimit = max 1 (min 15 (b 2))
    ∧ f.conflictLimit = max 1 (min 15 (b 3)) ∧ f.sweepInterval = max 1 (b 4) ∧ f.holdLimit = max 1 (b 5)
    ∧ f.listenMs = min 16 (b 6) ∧ f.noiseLimit = b 7 ∧ f.deglitch = min 2 (b 8)
    ∧ f.immediateMask = l.getD 9 0 ||| 0x80 ∧ f.captureMask = l.getD 10 0
    ∧ f.autoProbe = decide (b 0x0B ≠ 0)
    ∧ f.d = b 0x1A ∧ f.decayPeriod = max 1 (b 0x1B) ∧ f.c = min 15 (b 0x1C) ∧ f.settleMs = max 5 (b 0x1D)
    ∧ f.restoreDelay = b 0x1E ∧ f.restoreLimit = max 1 (min 7 (b 0x1F)) ∧ f.trialRounds = max 1 (b 0x20)
    ∧ f.probeCount = max 1 (min 8 (b 0x21)) ∧ f.blankTicks = b 0x22 ∧ f.zeroOffset = b 0x23
    ∧ f.k = max 1 (min 2047 (b 0x24 + 256 * b 0x25))
    ∧ f.expectedLength = max 1 (min 2000 (b 0x26 + 256 * b 0x27)) ∧ f.tolerance = max 1 (b 0x28)
    ∧ ∀ k : Fin 8, f.weights.get k = b (0x0C + k.val) := by
  intro f b
  have hlt : ∀ i, b i < 256 := fun i => (l.getD i 0).isLt
  have hbyte : ∀ {lo i}, lo ≤ 255 → clamp lo 255 (numAt l i 1) = max lo (b i) := fun {lo i} hlo => by
    have hi : (l.getD i 0).toNat ≤ 255 := Nat.le_of_lt_succ (hlt i)
    rw [numAt_one, clamp_eq hlo, Nat.min_eq_right hi]
  have hwithin : ∀ {lo hi i}, lo ≤ hi → clamp lo hi (numAt l i 1) = max lo (min hi (b i)) := fun {lo hi i} hle => by
    rw [numAt_one, clamp_eq hle]
  have hzero : ∀ {hi i}, clamp 0 hi (numAt l i 1) = min hi (b i) := fun {hi i} => by
    rw [numAt_one, clamp_eq (Nat.zero_le hi), Nat.zero_max]
  have hword : ∀ {lo hi i}, lo ≤ hi → clamp lo hi (numAt l i 2) = max lo (min hi (b i + 256 * b (i + 1))) :=
    fun {lo hi i} hle => by rw [numAt_two, clamp_eq hle]
  refine ⟨hwithin (by omega), hwithin (by omega), hwithin (by omega), hwithin (by omega), hbyte (by omega), hbyte (by omega),
    hzero, numAt_one .., hzero, rfl, rfl, ?_, numAt_one .., hbyte (by omega), hzero, hbyte (by omega), numAt_one ..,
    hwithin (by omega), hbyte (by omega), hwithin (by omega), numAt_one .., numAt_one .., hword (by omega),
    hword (by omega), hbyte (by omega), fun k => ?_⟩
  · simp only [f, readBranchSetup, numAt_one, b]
  · exact (get_ofFn ..).trans (numAt_one ..)

/-- The block as a whole, with the derived addresses apart. -/
theorem readSetup_fields (old : Vector Byte 4) (assigned : List NodeAddr) (l : List Byte) :
    let next := readSetup old assigned l
    next.branchEnable = (l.getD 0 0).truncate 4 ∧ next.noticeEnable = (l.getD 12 0) ++ (l.getD 11 0)
      ∧ next.sensePeriod = (l.getD 8 0).toNat ∧ next.reserve = min 128 (l.getD 5 0).toNat
      ∧ next.jobBufferLimit = max 1 (min 128 (l.getD 6 0).toNat)
      ∧ next.stationJobLimit = max 1 (min 8 (l.getD 7 0).toNat) ∧ next.shortLimit = min 254 (l.getD 9 0).toNat
      ∧ next.openLimit = max (next.shortLimit + 1) (l.getD 10 0).toNat := by
  intro next
  have hshort : next.shortLimit = min 254 (l.getD 9 0).toNat := by
    simp only [next, readSetup, numAt_one, clamp_eq (Nat.zero_le 254), Nat.zero_max]
  have hlt : (l.getD 10 0).toNat < 256 := (l.getD 10 0).isLt
  refine ⟨rfl, ?_, ?_, ?_, ?_, ?_, hshort, ?_⟩
  · exact (congrArg (BitVec.ofNat 16) (numAt_two l 11)).trans (ofNat_two_bytes ..)
  · exact numAt_one ..
  · simp only [next, readSetup, numAt_one, clamp_eq (Nat.zero_le 128), Nat.zero_max]
  · simp only [next, readSetup, numAt_one, clamp_eq (show 1 ≤ 128 by omega)]
  · simp only [next, readSetup, numAt_one, clamp_eq (show 1 ≤ 8 by omega)]
  · have hle : next.shortLimit + 1 ≤ 255 := by omega
    exact (clamp_eq hle _).trans (by rw [numAt_one]; omega)

/-- The groups of a block are read each from its own bytes. -/
theorem readSetup_groups (old : Vector Byte 4) (assigned : List NodeAddr) (l : List Byte) :
    (∀ b : Branch, (readSetup old assigned l).branch.get b = readBranchSetup ((l.drop (0x20 + 0x60 * b.val)).take 0x60))
      ∧ ∀ k : Port, (readSetup old assigned l).printer.get k = readPrinterSetup ((l.drop (0x1A0 + 8 * k.val)).take 8) :=
  ⟨fun _ => get_ofFn .., fun _ => get_ofFn ..⟩

end Sys2Proof.Machine
end

section
/-! PROOF. What an act for one branch, or for a printer, leaves of another branch: its engine, the standing of its
stations, and its place in the probe unit (O15, O16). -/

namespace Sys2Proof.Machine

namespace Part

/-- What an act elsewhere leaves of a branch besides its supervision. -/
def aside (p : Part) (b : Branch) : Engine × (StationNo → StationState × Option NodeAddr × Nat × Nat) × Bool :=
  (p.engine b, fun n => (p.station b n).standing, p.probed b)

theorem aside_of {p q : Part} {b : Branch} (hengine : q.engine b = p.engine b)
    (hstations : ∀ n, (q.station b n).standing = (p.station b n).standing) (hprobe : q.probe = p.probe) :
    q.aside b = p.aside b := by
  simp only [aside, hengine, hstations, probed, hprobe]

theorem aside_same {p q : Part} (b : Branch) (hengines : q.engines = p.engines) (hstations : q.stations = p.stations)
    (hprobe : q.probe = p.probe) : q.aside b = p.aside b :=
  aside_of (by rw [engine, hengines]; rfl) (fun n => by rw [station, hstations]; rfl) hprobe

section

variable {p : Part} {b c : Branch}

/-! ## Acts for another branch -/

theorem completeEntry_engine_ne (h : b ≠ c) (e : TxEntry) (code : TxCode) (p : Part) :
    (completeEntry c e code p).engine b = p.engine b := by
  unfold completeEntry
  extract_lets p1 p2 p3
  have hp1 : p1.engine b = p.engine b := engine_modEngine_ne _ _ _ _ h
  have hp2 : p2.engine b = p.engine b := by
    unfold p2
    split
    · exact hp1
    · simpa using hp1
  have hp3 : p3.engine b = p.engine b := by
    unfold p3
    split
    · simpa [doneSlot] using hp2
    · split
      · exact (engine_modEngine_ne _ _ _ _ h).trans hp2
      · exact hp2
  simpa using hp3

theorem completeWhere_aside (h : b ≠ c) (code : TxCode) (w : TxEntry → Bool) (p : Part) :
    (completeWhere c code w p).aside b = p.aside b := by
  refine aside_of ?_ (fun n => completeWhere_standing ..) (by simp)
  exact each_keeps_view (fun q => q.engine b) _ _ (fun e q => by
    split
    · exact engine_modEngine_ne _ _ _ _ h
    · exact completeEntry_engine_ne h e code q) p

theorem abortJob_aside (b : Branch) (j : JobNo) (r : JobResult) (p : Part) : (abortJob j r p).aside b = p.aside b :=
  aside_of (by simp) (fun n => abortJob_standing ..) (by simp)

theorem switchFlush_aside (h : b ≠ c) (p : Part) : (switchFlush c p).aside b = p.aside b := by
  refine Eq.trans (b := (flushQueue c p).aside b) ?_ (completeWhere_aside h ..)
  refine aside_of (by simp [switchFlush]) (fun n => ?_) (by simp [switchFlush])
  exact each_keeps_view (fun q => (q.station b n).standing) _ _ (fun j q => by
    split
    · split
      · exact abortJob_standing ..
      · rfl
    · rfl) (flushQueue c p)

theorem haltEngine_aside (h : b ≠ c) (p : Part) : (haltEngine c p).aside b = p.aside b :=
  aside_of (haltEngine_engine_ne p h) (fun n => by simp) (by simp)

theorem probed_iff : p.probed b = true ↔ p.probe.state ≠ .idle ∧ p.probe.queue.head? = some b := by
  simp [probed]

/-- The unit gives up another branch: the branch that it serves stays at the head of its queue (R154). -/
theorem abandonProbe_probed (h : b ≠ c) (p : Part) : (abandonProbe c p).probed b = p.probed b := by
  by_cases hserved : p.probe.state ≠ .idle ∧ p.probe.queue.head? = some c
  · have hidle : (abandonProbe c p).probe = { ProbeUnit.blank with queue := p.probe.queue.tail } := by
      simp only [abandonProbe, modProbe, hserved, ne_eq, not_false_eq_true, and_self, if_true]
    have hnot : p.probed b = false := by
      simp [probed, hserved.2, h.symm]
    rw [hnot, probed, hidle]
    rfl
  · have hfilter : (abandonProbe c p).probe = { p.probe with queue := p.probe.queue.filter fun x => x != c } := by
      simp only [abandonProbe, modProbe, hserved, if_false]
    rw [Bool.eq_iff_iff, probed_iff, probed_iff, hfilter]
    refine and_congr_right fun hstate => ?_
    cases hqueue : p.probe.queue with
    | nil => rfl
    | cons x r =>
      have hx : x ≠ c := fun e => hserved ⟨hstate, by rw [hqueue, e]; rfl⟩
      simp [hx]

theorem abandonProbe_aside (h : b ≠ c) (p : Part) : (abandonProbe c p).aside b = p.aside b := by
  have hprobed := abandonProbe_probed h p
  have hengine : (abandonProbe c p).engine b = p.engine b := by simp
  have hstation : ∀ n, (abandonProbe c p).station b n = p.station b n := fun n => by simp
  simp only [aside, hengine, hstation, hprobed]

theorem departPresent_aside (h : b ≠ c) (n : StationNo) (p : Part) : (departPresent c n p).aside b = p.aside b := by
  unfold departPresent
  split
  · next hpresent =>
    unfold leaveFor
    extract_lets was p1 p2
    have hp1 : p1.aside b = p.aside b := by
      refine aside_of (by simp [p1]) (fun m => ?_) (by simp [p1])
      have hm : p1.station b m = p.station b m := by
        simp only [p1, changeStation, toTrunkEvent_views, notify_views]
        exact station_updStation_ne _ _ _ _ _ _ (by simp [h])
      rw [hm]
    have hp2 : p2.aside b = p.aside b := by
      unfold p2
      rw [if_pos hpresent]
      refine (completeWhere_aside h ..).trans (Eq.trans ?_ hp1)
      exact aside_of (engine_modEngine_ne _ _ _ _ h) (fun _ => rfl) rfl
    refine Eq.trans ?_ hp2
    exact aside_of (by simp) (fun m => abortAssemblingOf_standing ..) (by simp)
  · rfl

theorem disableStations_aside (h : b ≠ c) (p : Part) : (disableStations c p).aside b = p.aside b :=
  each_keeps_view (fun q => q.aside b) _ _ (fun n q => departPresent_aside h n q) p

theorem enterStopped_aside (h : b ≠ c) (p : Part) : (enterStopped c p).aside b = p.aside b := by
  refine Eq.trans ?_ (haltEngine_aside h p)
  exact aside_same b (by simp [enterStopped]) (by simp [enterStopped]) (by simp [enterStopped])

theorem setSwitch_aside (new : SwitchState) (p : Part) : (setSwitch c new p).aside b = p.aside b :=
  aside_same b (by simp) (by simp) (by simp)

theorem modSwitch_aside (f : Switch → Switch) (p : Part) : (modSwitch c f p).aside b = p.aside b := rfl

theorem moveOpen_aside (p : Part) : (moveOpen c p).aside b = p.aside b := rfl

theorem stopReported_aside (h : b ≠ c) (p : Part) : (stopReported c p).aside b = p.aside b := by
  by_cases hstate : (p.switch c).state = .draining
  · rw [stopReported_draining hstate]
    rw [moveOpen_aside, setSwitch_aside, switchFlush_aside h]
  · rw [stopReported_other hstate]

theorem stopRequest_aside (h : b ≠ c) (p : Part) : (stopRequest c p).aside b = p.aside b := by
  by_cases hstopped : (p.engine c).state = .stopped
  · rw [stopRequest_stopped hstopped, stopReported_aside h]
  by_cases hstopping : (p.engine c).state = .stopping
  · rw [stopRequest_stopping hstopping]
  have hrun := EngineState.running_of_ne hstopped hstopping
  by_cases hexchange : (p.engine c).phase.inExchange = true
  · rw [stopRequest_exchange hrun hexchange]
    exact aside_of (engine_modEngine_ne _ _ _ _ h) (fun _ => rfl) rfl
  by_cases hlisten : (p.engine c).phase = .listen
  · rw [stopRequest_listen hrun hlisten, stopReported_aside h, enterStopped_aside h]
    exact aside_same b (by simp [closeGate]) (by simp [closeGate]) (by simp [closeGate])
  · rw [stopRequest_between hrun (by simpa using hexchange) hlisten, stopReported_aside h, enterStopped_aside h]

theorem faultStop_aside (h : b ≠ c) (p : Part) : (faultStop c p).aside b = p.aside b := by
  unfold faultStop
  extract_lets p1 p2 p3
  have hp2 : p2.aside b = p.aside b := by
    unfold p2
    split <;> rfl
  have hp3 : p3.aside b = p.aside b := by
    unfold p3
    split
    · exact hp2
    · exact (haltEngine_aside h p2).trans hp2
  rw [abandonProbe_aside h, switchFlush_aside h, hp3]

theorem faultLock_aside (h : b ≠ c) (p : Part) : (faultLock c p).aside b = p.aside b := by
  refine Eq.trans ?_ (faultStop_aside h p)
  exact aside_same b (by simp [faultLock]) (by simp [faultLock]) (by simp [faultLock])

theorem assertLine_aside (h : b ≠ c) (p : Part) : (assertLine c p).aside b = p.aside b := by
  unfold assertLine
  extract_lets q
  split
  · rw [faultLock_aside h, modSwitch_aside]
  · rfl

theorem beginEnable_aside (h : b ≠ c) (p : Part) : (beginEnable c p).aside b = p.aside b := by
  rw [beginEnable, assertLine_aside h, setSwitch_aside, modSwitch_aside]

theorem disabledEntry_aside (h : b ≠ c) (p : Part) : (disabledEntry c p).aside b = p.aside b := by
  have hpart : (disabledPart c p).aside b = p.aside b := by
    have hcleared : ∀ q, (releaseCapture c (zeroScore c q)).aside b = q.aside b := fun q =>
      aside_same b (by simp) (by simp) (by simp)
    rw [disabledPart, hcleared, disableStations_aside h, modSwitch_aside, setSwitch_aside]
  rw [disabledEntry_eq]
  split
  · rw [beginEnable_aside h, modSwitch_aside, hpart]
  · exact hpart

theorem enableBranch_aside (h : b ≠ c) (p : Part) : (enableBranch c p).aside b = p.aside b := by
  unfold enableBranch
  extract_lets w
  split
  · exact beginEnable_aside h p
  · split <;> rfl

theorem disableBranch_aside (h : b ≠ c) (p : Part) : (disableBranch c p).aside b = p.aside b := by
  unfold disableBranch
  extract_lets w toDisabled
  split
  · rfl
  · split
    · rw [stopRequest_aside h, setSwitch_aside, modSwitch_aside]
    · rw [stopRequest_aside h, setSwitch_aside, modSwitch_aside]
    · rfl
    · rfl
    · rfl
    · exact disabledEntry_aside h p
    · exact disabledEntry_aside h p
    · split
      · rfl
      · rw [disabledEntry_aside h, abandonProbe_aside h]
    · rfl

theorem applyBranch_aside (h : b ≠ c) (old : BitVec 4) (p : Part) : (applyBranch old c p).aside b = p.aside b := by
  unfold applyBranch
  extract_lets was now
  split
  · exact enableBranch_aside h p
  · split
    · exact disableBranch_aside h p
    · rfl

/-! ## Acts for a printer -/

theorem reportLeft_aside (b : Branch) (o : JobOrigin) (p : Part) : (reportLeft o p).aside b = p.aside b :=
  aside_of (by simp) (fun n => reportLeft_standing ..) (by simp)

theorem finishJob_aside (b : Branch) (j : JobNo) (p : Part) : (finishJob j p).aside b = p.aside b := by
  unfold finishJob
  extract_lets x p1 p2
  rw [reportLeft_aside]
  exact aside_same b (by simp [p2, p1]) (by simp [p2, p1]) (by simp [p2, p1])

theorem detach_aside (b : Branch) (k : Port) (p : Part) : (detach k p).aside b = p.aside b :=
  aside_same b (by simp) (by simp) (by simp)

theorem modPort_aside (b : Branch) (k : Port) (f : PrinterPort → PrinterPort) (p : Part) :
    (modPort k f p).aside b = p.aside b := rfl

theorem enterTrouble_aside (b : Branch) (k : Port) (old new : PortState) (p : Part) :
    (enterTrouble k old new p).aside b = p.aside b := by
  unfold enterTrouble
  extract_lets rs p1 p2
  have hp2 : p2.aside b = p.aside b := by
    unfold p2
    split
    · exact aside_same b (by simp [p1]) (by simp [p1]) (by simp [p1])
    · exact aside_same b (by simp [p1]) (by simp [p1]) (by simp [p1])
  split
  · exact hp2
  · split
    · rw [detach_aside, abortJob_aside, hp2]
    · refine Eq.trans ?_ hp2
      exact aside_same b (by simp) (by simp) (by simp)

theorem enterRunning_aside (b : Branch) (k : Port) (new : PortState) (p : Part) :
    (enterRunning k new p).aside b = p.aside b := by
  unfold enterRunning
  extract_lets ss was p1 p2
  have hp2 : p2.aside b = p.aside b := by
    unfold p2
    split
    · exact aside_same b (by simp [p1]) (by simp [p1]) (by simp [p1])
    · exact aside_same b (by simp [p1]) (by simp [p1]) (by simp [p1])
  split
  · exact hp2
  · refine Eq.trans ?_ hp2
    exact aside_same b (by simp) (by simp) (by simp)

theorem decidePort_aside (b : Branch) (k : Port) (p : Part) : (decidePort k p).aside b = p.aside b := by
  unfold decidePort
  extract_lets old new
  split
  · rfl
  · split
    · exact enterTrouble_aside ..
    · exact enterRunning_aside ..

theorem idleLoad_aside (b : Branch) (k : Port) (p : Part) : (idleLoad k p).aside b = p.aside b :=
  aside_same b (by simp) (by simp) (by simp)

theorem grantJob_aside (b : Branch) (k : Port) (j : JobNo) (p : Part) : (grantJob k j p).aside b = p.aside b := by
  unfold grantJob
  extract_lets p1
  have hp1 : p1.aside b = p.aside b := aside_same b (by simp [p1]) (by simp [p1]) (by simp [p1])
  split
  · rw [finishJob_aside, hp1]
  · rw [decidePort_aside, modPort_aside, hp1]

theorem grantOnce_aside {k : Port} {q : Part} (b : Branch) (h : grantOnce k p = some q) : q.aside b = p.aside b := by
  unfold grantOnce at h
  extract_lets t at h
  split at h
  · split at h
    · exact nomatch h
    · split at h
      · cases h
        rfl
      · cases h
        exact grantJob_aside ..
      · cases h
        rw [grantJob_aside]
        split <;> rfl
  · exact nomatch h

theorem grantLoop_aside (b : Branch) (k : Port) (n : Nat) : ∀ p : Part, (grantLoop k n p).aside b = p.aside b := by
  induction n with
  | zero => exact fun _ => rfl
  | succ n ih =>
    intro p
    unfold grantLoop
    split
    · rfl
    · next q hq => rw [ih q, grantOnce_aside b hq]

theorem servePort_aside (b : Branch) (k : Port) (p : Part) : (servePort k p).aside b = p.aside b := by
  rw [servePort, idleLoad_aside, grantLoop_aside]

theorem redecide_aside (b : Branch) (k : Port) (p : Part) : (redecide k p).aside b = p.aside b := by
  rw [redecide, servePort_aside, decidePort_aside]

theorem moveWaiting_aside (b : Branch) (j : JobNo) (k a : Port) (p : Part) :
    (moveWaiting j k a p).aside b = p.aside b := by
  rw [moveWaiting, joinQueue, servePort_aside]
  exact aside_same b (by simp) (by simp) (by simp)

theorem abortFilling_aside (b : Branch) (j : JobNo) (r : JobResult) (p : Part) :
    (abortFilling j r p).aside b = p.aside b := by
  unfold abortFilling
  split
  · refine Eq.trans ?_ (abortJob_aside b j r p)
    unfold stopSubmitCopy
    split
    · split
      · exact aside_same b (by simp [endCopy]) (by simp [endCopy]) (by simp [endCopy])
      · rfl
    · rfl
  · exact abortJob_aside ..

theorem disablePort_aside (b : Branch) (k : Port) (p : Part) : (disablePort k p).aside b = p.aside b := by
  unfold disablePort
  extract_lets p1 p2 p3 p4 was p5
  have h1 : p1.aside b = p.aside b := by
    unfold p1
    split
    · rw [detach_aside, abortJob_aside]
    · rfl
  have h2 : p2.aside b = p.aside b := by
    refine (each_keeps_view (fun q => q.aside b) _ _ (fun j q => ?_) p1).trans h1
    split
    · exact abortFilling_aside ..
    · rfl
  have h3 : p3.aside b = p.aside b := by
    unfold p3
    split
    · exact h2
    · refine (each_keeps_view (fun q => q.aside b) _ _ (fun j q => ?_) p2).trans h2
      split
      · exact moveWaiting_aside ..
      · rfl
  have h4 : p4.aside b = p.aside b :=
    (each_keeps_view (fun q => q.aside b) _ _ (fun j q => abortJob_aside b j .printerGone q) p3).trans h3
  rw [idleLoad_aside]
  refine Eq.trans ?_ h4
  split
  · exact aside_same b (by simp [p5]) (by simp [p5]) (by simp [p5])
  · exact modPort_aside ..

theorem checkSubmitJob_aside (b : Branch) (p : Part) : (checkSubmitJob p).aside b = p.aside b := by
  unfold checkSubmitJob
  split
  · split
    · rfl
    · exact aside_same b (by simp [subDone]) (by simp [subDone]) (by simp [subDone])
  · rfl

theorem applyPrinter_aside (b : Branch) (old : Vector PrinterSetup 3) (k : Port) (p : Part) :
    (applyPrinter old k p).aside b = p.aside b := by
  unfold applyPrinter
  extract_lets was now
  split
  · exact redecide_aside ..
  · split
    · rw [checkSubmitJob_aside, disablePort_aside]
    · rfl

theorem applyPrinter_supervision (old : Vector PrinterSetup 3) (k : Port) (p : Part) :
    (applyPrinter old k p).supervision = p.supervision := by
  unfold applyPrinter
  extract_lets was now
  split
  · simp [supervision, enablePort]
  · split
    · exact (supervision_checkSubmitJob _).trans (supervision_disablePort k p)
    · rfl

end

end Part

/-! ## The branches of a commit, one after another -/

/-- From `p` to `q` an act has left branch `b`. -/
structure Spared (b : Branch) (p q : Part) : Prop where
  aside : q.aside b = p.aside b
  switch : q.switch b = p.switch b
  sup : q.sup b = p.sup b
  setup : q.setup = p.setup

namespace Spared

variable {b c : Branch} {o p q : Part}

theorem refl (b : Branch) (p : Part) : Spared b p p := ⟨rfl, rfl, rfl, rfl⟩

theorem trans (h : Spared b o p) (k : Spared b p q) : Spared b o q :=
  ⟨k.aside.trans h.aside, k.switch.trans h.switch, k.sup.trans h.sup, k.setup.trans h.setup⟩

theorem engine (h : Spared b p q) : q.engine b = p.engine b := congrArg Prod.fst h.aside

theorem standing (h : Spared b p q) (n : StationNo) : (q.station b n).standing = (p.station b n).standing :=
  congrFun (congrArg (fun x => x.2.1) h.aside) n

theorem probed (h : Spared b p q) : q.probed b = p.probed b := congrArg (fun x => x.2.2) h.aside

theorem applyBranch (h : b ≠ c) (old : BitVec 4) (p : Part) : Spared b p (Part.applyBranch old c p) := by
  have hconfined : Confined c p (Part.applyBranch old c p) := by
    unfold Part.applyBranch
    extract_lets was now
    split
    · exact (Confined.refl c p).enableBranch
    · split
      · exact (Confined.refl c p).disableBranch
      · exact Confined.refl c p
  exact ⟨Part.applyBranch_aside h old p, hconfined.switch b h, hconfined.sup b h, hconfined.setup⟩

theorem same (haside : q.aside b = p.aside b) (hswitches : q.switches = p.switches) (hsups : q.sups = p.sups)
    (hsetup : q.setup = p.setup) : Spared b p q :=
  ⟨haside, by rw [Part.switch_def, hswitches]; rfl, by rw [Part.sup_def, hsups]; rfl, hsetup⟩

theorem supervised (haside : q.aside b = p.aside b) (h : q.supervision = p.supervision) : Spared b p q := by
  simp only [Part.supervision, Prod.mk.injEq] at h
  obtain ⟨hsetup, -, -, -, hsups, hswitches, -⟩ := h
  exact same haside hswitches hsups hsetup

theorem applyPrinter (b : Branch) (old : Vector PrinterSetup 3) (k : Port) (p : Part) :
    Spared b p (Part.applyPrinter old k p) :=
  supervised (Part.applyPrinter_aside b old k p) (Part.applyPrinter_supervision old k p)

theorem each {α : Type} (l : List α) (f : α → Part → Part) (hf : ∀ x ∈ l, ∀ p, Spared b p (f x p)) (p : Part) :
    Spared b p (Machine.each l f p) := by
  induction l generalizing p with
  | nil => exact refl b p
  | cons x r ih =>
    rw [each_cons]
    exact (hf x (by simp) p).trans (ih (fun y hy => hf y (List.mem_cons_of_mem _ hy)) (f x p))

/-- Of the acts for the branches one after another, those for the others leave a branch. -/
theorem branches_turn (f : Branch → Part → Part) (hf : ∀ c p, b ≠ c → Spared b p (f c p)) (l : List Branch)
    (hmem : b ∈ l) (hnodup : l.Nodup) (p : Part) : ∃ q, Spared b p q ∧ Spared b (f b q) (Machine.each l f p) := by
  induction l generalizing p with
  | nil => exact nomatch hmem
  | cons c r ih =>
    obtain ⟨hc, hr⟩ := List.nodup_cons.mp hnodup
    rw [each_cons]
    rcases List.mem_cons.mp hmem with rfl | hlater
    · exact ⟨p, refl b p, each r f (fun d hd q => hf d q (ne_of_mem_of_not_mem hd hc).symm) _⟩
    · have hne : b ≠ c := ne_of_mem_of_not_mem hlater hc
      obtain ⟨q, hq, hrest⟩ := ih hlater hr (f c p)
      exact ⟨q, (hf c p hne).trans hq, hrest⟩

end Spared

end Sys2Proof.Machine
end

section
/-! PROOF. The phases of a commit (O15). -/

namespace Sys2Proof.Machine

/-! ## The taking of COMMIT and the end of the reading (R177, R178) -/

namespace Part

section

variable {p : Part} {next : Setup} {b : Branch}

theorem commit_idle (h : p.loader.task = .idle) :
    commit p = { p with loader := { p.loader with task := .reading [] } } := by
  simp only [commit, h]

theorem commit_busy (h : p.loader.task ≠ .idle) : commit p = p.refusedWith .busy 0x01 := by
  cases htask : p.loader.task with
  | idle => exact absurd htask h
  | initialise soft pos entry => simp only [commit, htask, refuse_eq]
  | reading l => simp only [commit, htask, refuse_eq]
  | writing next pos => simp only [commit, htask, refuse_eq]

theorem commitRead_reading {l : List Byte} (h : p.loader.task = .reading l) : commitRead p =
    if 512 ≤ l.length then { p with loader := { p.loader with
      task := .writing (readSetup p.setup.derivedPrefix p.assignedAddrs l) 0 } } else p := by
  simp only [commitRead, h]
  rfl

/-! ## The application (R180) -/

/-- The part with the clamped values in force and the commit state IDLE. -/
def inForce (next : Setup) (p : Part) : Part := { p with setup := next, loader := { p.loader with task := .idle } }

/-- The part once every enable that has changed has been acted on. -/
def enacted (next : Setup) (p : Part) : Part :=
  each printerPorts (applyPrinter p.setup.printer) (each branches (applyBranch p.setup.branchEnable) (inForce next p))

/-- The end of a commit is reported: READY becomes RUNNING (R180, R186). -/
def reported (p : Part) : Part :=
  notify .readyDone { p with loader := { p.loader with
    startState := if p.loader.startState = .ready then .running else p.loader.startState } }

theorem applyCommit_eq (next : Setup) (p : Part) :
    applyCommit next p = reported (submitEvent (startStoppedTimers (enacted next p))) := by
  unfold applyCommit
  extract_lets old l p1 p2 p3 p4
  exact congrArg reported (rfl : p4 = _)

@[simp] theorem reported_keeps (p : Part) : (reported p).setup = p.setup ∧ (reported p).switches = p.switches
    ∧ (reported p).sups = p.sups ∧ (reported p).engines = p.engines ∧ (reported p).stations = p.stations
    ∧ (reported p).probe = p.probe ∧ (reported p).ports = p.ports ∧ (reported p).queues = p.queues
    ∧ (reported p).jobs = p.jobs ∧ (reported p).hostWait = p.hostWait :=
  ⟨rfl, rfl, rfl, rfl, rfl, rfl, rfl, rfl, rfl, rfl⟩

theorem commitApplication_waits {x : Part × List Host.Cell} {pos : Nat} (hheld : x.1.held = false)
    (htask : x.1.loader.task = .writing next pos) (h : pos < 512) : commitApplication x = x := by
  simp only [commitApplication, hheld, htask]
  exact if_neg (Nat.not_le.mpr h)

theorem commitApplication_ends {x : Part × List Host.Cell} {pos : Nat} (hheld : x.1.held = false)
    (htask : x.1.loader.task = .writing next pos) (h : 512 ≤ pos) :
    commitApplication x = (applyCommit next (releaseHost x).1, (releaseHost x).2) := by
  simp only [commitApplication, hheld, htask]
  exact if_pos h

/-- A branch that is not isolated has no timer started. -/
theorem startStoppedTimers_spares (h : (p.switch b).state ≠ .isolated) : Spared b p (startStoppedTimers p) := by
  unfold startStoppedTimers
  extract_lets p1
  have hp1 : Spared b p p1 := by
    unfold p1
    split <;> exact ⟨rfl, rfl, rfl, rfl⟩
  refine each_keeps_prop (Spared b p) _ _ (fun c q hq => ?_) p1 hp1
  split
  · next hiso =>
    have hne : b ≠ c := by
      rintro rfl
      exact h (hq.switch ▸ hiso.1)
    exact hq.trans ⟨rfl, switch_modSwitch_ne _ _ _ _ hne, rfl, rfl⟩
  · exact hq

theorem applyCommit_spares (h : ((enacted next p).switch b).state ≠ .isolated) :
    Spared b (enacted next p) (applyCommit next p) := by
  refine (startStoppedTimers_spares h).trans ?_
  rw [applyCommit_eq]
  generalize startStoppedTimers (enacted next p) = q
  exact Spared.same (aside_same b (by simp) (by simp) (by simp)) (by simp) (by simp) (by simp)

/-- The turn of a branch in the application: the others' turns and the printers' leave it. -/
theorem enacted_turn (next : Setup) (p : Part) (b : Branch) : ∃ q, Spared b (inForce next p) q
    ∧ Spared b (applyBranch p.setup.branchEnable b q) (enacted next p) := by
  obtain ⟨q, hq, hrest⟩ := Spared.branches_turn (applyBranch p.setup.branchEnable) (fun c p h => Spared.applyBranch h _ p)
    branches (mem_branches b) (by decide) (inForce next p)
  exact ⟨q, hq, hrest.trans (Spared.each _ _ (fun k _ p => Spared.applyPrinter b _ k p) _)⟩

theorem applyBranch_enables {old : BitVec 4} (hold : old.getLsbD b.val = false)
    (hnow : p.setup.branchEnable.getLsbD b.val = true) : applyBranch old b p = enableBranch b p := by
  simp only [applyBranch, hold, hnow, Bool.not_false, Bool.and_self, if_true]

theorem applyBranch_disables {old : BitVec 4} (hold : old.getLsbD b.val = true)
    (hnow : p.setup.branchEnable.getLsbD b.val = false) : applyBranch old b p = disableBranch b p := by
  simp only [applyBranch, hold, hnow, Bool.not_true, Bool.not_false, Bool.and_self, Bool.false_eq_true,
    if_false, if_true]

theorem applyBranch_same {old : BitVec 4} (h : p.setup.branchEnable = old) : applyBranch old b p = p := by
  cases hbit : old.getLsbD b.val <;>
    simp only [applyBranch, h, hbit, Bool.not_true, Bool.not_false, Bool.and_true, Bool.and_false, Bool.false_eq_true,
      if_false]

/-! ## What the application leaves (R180) -/

/-- The setup, the loader and the host's access. -/
def access (p : Part) : Setup × Loader × Option HostAccess := (p.setup, p.loader, p.hostWait)

theorem applyBranch_access (old : BitVec 4) (b : Branch) (p : Part) : (applyBranch old b p).access = p.access := by
  unfold applyBranch
  extract_lets was now
  split
  · simp [access]
  · split
    · simp [access]
    · rfl

theorem disablePort_hostWait (k : Port) (p : Part) : (disablePort k p).hostWait = p.hostWait := by
  unfold disablePort
  extract_lets p1 p2 p3 p4 was p5
  have h1 : p1.hostWait = p.hostWait := by
    unfold p1
    split <;> simp
  have h2 : p2.hostWait = p.hostWait := by
    refine (each_keeps_view Part.hostWait _ _ (fun j q => ?_) p1).trans h1
    split
    · unfold abortFilling stopSubmitCopy
      split
      · split
        · split <;> simp [endCopy]
        · simp
      · simp
    · rfl
  have h3 : p3.hostWait = p.hostWait := by
    unfold p3
    split
    · exact h2
    · refine (each_keeps_view Part.hostWait _ _ (fun j q => ?_) p2).trans h2
      split <;> simp
  have h4 : p4.hostWait = p.hostWait :=
    (each_keeps_view Part.hostWait _ _ (fun j q => by simp) p3).trans h3
  refine Eq.trans ?_ h4
  split <;> simp [p5]

theorem applyPrinter_access (old : Vector PrinterSetup 3) (k : Port) (p : Part) :
    (applyPrinter old k p).access = p.access := by
  have hwait : (applyPrinter old k p).hostWait = p.hostWait := by
    unfold applyPrinter
    extract_lets was now
    split
    · simp [enablePort]
    · split
      · refine Eq.trans ?_ (disablePort_hostWait k p)
        unfold checkSubmitJob
        split
        · split <;> simp [subDone]
        · rfl
      · rfl
  have hsup := applyPrinter_supervision old k p
  simp only [supervision, Prod.mk.injEq] at hsup
  obtain ⟨hsetup, hloader, -⟩ := hsup
  simp only [access, hwait, hsetup, hloader]

theorem enacted_access (next : Setup) (p : Part) : (enacted next p).access = (next, { p.loader with task := .idle }, p.hostWait) :=
  (each_keeps_view access _ _ (fun k q => applyPrinter_access _ k q) _).trans
    (each_keeps_view access _ _ (fun b q => applyBranch_access _ b q) _)

theorem startStoppedTimers_access (p : Part) : (startStoppedTimers p).access = p.access := by
  unfold startStoppedTimers
  extract_lets p1
  have hp1 : p1.access = p.access := by
    unfold p1
    split <;> rfl
  refine (each_keeps_view access _ _ (fun c q => ?_) p1).trans hp1
  split <;> rfl

theorem applyCommit_access (next : Setup) (p : Part) : (applyCommit next p).access =
    (next, { startState := if p.loader.startState = .ready then .running else p.loader.startState, task := .idle },
      p.hostWait) := by
  have htimers := (startStoppedTimers_access (enacted next p)).trans (enacted_access next p)
  rw [applyCommit_eq]
  generalize startStoppedTimers (enacted next p) = q at *
  simp only [access, Prod.mk.injEq] at htimers
  obtain ⟨hsetup, hloader, hwait⟩ := htimers
  have hreported : (reported (submitEvent q)).loader = { q.loader with
      startState := if q.loader.startState = .ready then .running else q.loader.startState } := by
    simp [reported]
  simp [access, hsetup, hreported, hloader, hwait]

theorem applyCommit_ready (next : Setup) (p : Part) : (applyCommit next p).notices.latches.getLsbD 15 = true := by
  rw [applyCommit_eq, reported]
  simpa using .inr (by decide)

end

end Part

/-! ## The access that waited on the setup block (R171, R179) -/

/-- Every record lies behind the setup block. -/
theorem ImgRecord.le_base (r : ImgRecord) : 0x300 ≤ r.base := by
  cases r <;> simp only [ImgRecord.base, stationAddr, Config.stationBase, Config.jobBase, Config.captureBase,
    Config.probeBase, Config.fromTrunkBase, Config.toTrunkBase, Config.submitBase, Config.unitBase, Config.nodeBase] <;> omega

theorem ImgWrite.covers_setup {w : ImgWrite} {a : Nat} (h : a < 0x300) : w.covers a = false := by
  have hbase := w.record.le_base
  unfold ImgWrite.covers
  split
  · next b n hr =>
    rw [hr] at hbase
    simp only [ImgRecord.base] at hbase
    simp
    omega
  · simp
    omega

theorem ImgWrite.coversWatched_setup {w : ImgWrite} {a : Nat} (h : a < 0x300) : w.coversWatched a = false := by
  have hbase := w.record.le_base
  unfold ImgWrite.coversWatched
  split
  · next b n hr =>
    rw [hr] at hbase
    simp only [ImgRecord.base] at hbase
    simp
    omega
  · exact ImgWrite.covers_setup h
  · exact ImgWrite.covers_setup h
  · rfl

theorem RingRead.watches_setup {x : RingRead} {a : Nat} (h : a < 0x300) : x.watches a = false := by
  unfold RingRead.watches
  split
  · exact ImgWrite.coversWatched_setup h
  · rfl
  · rfl
  · rfl

namespace Part

section

variable {p : Part} {next : Setup}

/-- Once the block has been written back no access to it waits. -/
theorem covered_setup {pos a : Nat} (htask : p.loader.task = .writing next pos) (hpos : 512 ≤ pos) (h : a < 0x300) :
    p.covered a = false := by
  have hdone : decide (pos < Config.setupBytes) = false := decide_eq_false (Nat.not_lt.mpr hpos)
  have hread : p.entryRead a = false := List.any_eq_false.mpr fun x _ => by simp [RingRead.watches_setup h]
  have hqueue : (p.writer.queue.any fun w => w.coversWatched a) = false :=
    List.any_eq_false.mpr fun x _ => by simp [ImgWrite.coversWatched_setup h]
  have hwritten : p.imageWritten a = false := by
    unfold imageWritten
    rw [hqueue]
    split
    · rw [ImgWrite.covers_setup h, Bool.and_false, Bool.or_false]
    · rfl
  simp [covered, setupWritten, htask, hdone, hread, hwritten]

theorem writeClass_setup {a : Nat} (hinit : p.loader.startState ≠ .init) (hlo : 0x100 ≤ a) (hhi : a < 0x300) :
    writeClass p a = .passes := by
  have hpage : ¬ a < 0x100 := by omega
  have hpart : partImage a = false := by simp [partImage, within]; omega
  have hstation : stationFields a = false := by simp [stationFields, within]; omega
  have hpool : ¬ Config.poolBase ≤ a := by simp only [Config.poolBase]; omega
  simp [writeClass, hpage, hpart, hstation, hinit, hpool]

theorem trigger_setup (m : List Host.Cell) (p : Part) {a : Nat} (h : a < 0x300) : trigger m a p = p := by
  have hstation : isStationTrigger a = false := by simp [isStationTrigger]; omega
  have hunit : isUnitTrigger a = false := by simp [isUnitTrigger]; omega
  have hnode : isNodeTrigger a = false := by simp [isNodeTrigger]; omega
  simp [trigger, hstation, hunit, hnode]

/-- The write that waited on the block is stored over the byte written back. -/
theorem releaseHost_setup {x : Part × List Host.Cell} {pos : Nat} {a : Addr} {v : Byte}
    (htask : x.1.loader.task = .writing next pos) (hpos : 512 ≤ pos) (hwait : x.1.hostWait = some (.write a v))
    (hinit : x.1.loader.startState ≠ .init) (hlo : 0x100 ≤ a.toNat) (hhi : a.toNat < 0x300) :
    releaseHost x = ({ x.1 with hostWait := none }, Mem.write x.2 a.toNat v) := by
  have hfree : x.1.covered a.toNat = false := covered_setup htask hpos hhi
  have hmade : releaseHost x = makeWrite a v ({ x.1 with hostWait := none }, x.2) := by
    simp only [releaseHost, hwait, accessAddr, hfree, Bool.false_eq_true, if_false]
    rfl
  have hpasses : writeClass { x.1 with hostWait := none } a.toNat = .passes := writeClass_setup hinit hlo hhi
  rw [hmade, makeWrite_passes (x := ({ x.1 with hostWait := none }, x.2)) hpasses, trigger_setup _ _ hhi]

end

end Part

theorem exec_commitApplication (s : State) : exec .commitApplication s = onBoth Part.commitApplication s := rfl

/-- Settles O15: the phases by the task of the loader, and the enable of a branch in its turn. -/
theorem commitRunsItsPhases : Obligations.CommitRunsItsPhases := by
  refine ⟨fun s v hs => ⟨fun h => onPart_command_eq hs (Part.commit_idle h), fun h => onPart_command_eq hs (Part.commit_busy h)⟩,
    fun s l hheld htask => ⟨fun h => ?_, fun h => ?read⟩, fun s next pos hheld htask => ⟨fun h => ?_, fun h => ?applied⟩⟩
  · exact onPart_awake_eq hheld ((Part.commitRead_reading htask).trans (if_neg (Nat.not_le.mpr h)))
  case read =>
    have hread := (Part.commitRead_reading htask).trans (if_pos h)
    obtain ⟨henable, hnotice, hsense, hreserve, hbuffers, hjobs, hshort, hopen⟩ :=
      readSetup_fields s.part.setup.derivedPrefix s.part.assignedAddrs l
    have hbyte : ∀ k : Fin 4, (Vector.ofFn fun k : Fin 4 => byteAt l (1 + k.val)).get k = l.getD (1 + k.val) 0 :=
      fun k => get_ofFn ..
    refine ⟨_, _, onPart_awake_eq hheld hread, rfl, henable, hnotice, hsense, hreserve, hbuffers, hjobs, hshort, hopen,
      fun ⟨a, ha, hk⟩ => ?_, fun hall k => ?_⟩
    · exact acceptPrefix_taken ⟨a, ha, fun k => (hk k).trans (hbyte k).symm⟩
    · have hfree : acceptPrefix s.part.setup.derivedPrefix (Vector.ofFn fun k => byteAt l (1 + k.val)) s.part.assignedAddrs = _ :=
        acceptPrefix_free fun a ha => by
          obtain ⟨k, hk⟩ := hall a ha
          exact ⟨k, by rw [hbyte]; exact hk⟩
      exact (congrArg (Vector.get · k) hfree).trans (hbyte k)
  · rw [exec_commitApplication, onBoth, Part.commitApplication_waits hheld htask h]
  case applied =>
    have hnext := exec_commitApplication s
    rw [onBoth, Part.commitApplication_ends hheld htask h] at hnext
    have hcontrol := Part.control_releaseHost (s.part, s.mem)
    have hwrite := fun (a : Addr) (v : Byte) hwait hlo hhi hinit =>
      Part.releaseHost_setup (x := (s.part, s.mem)) (a := a) (v := v) htask h hwait hinit hlo hhi
    have hstays : s.part.hostWait = none → Part.releaseHost (s.part, s.mem) = (s.part, s.mem) := fun h => Part.releaseHost_none h
    generalize Part.releaseHost (s.part, s.mem) = y at *
    simp only [Part.control, Prod.mk.injEq] at hcontrol
    obtain ⟨hset, hloader, hsups, hswitches⟩ := hcontrol
    have haccess := Part.applyCommit_access next y.1
    simp only [Part.access, Prod.mk.injEq, hloader] at haccess
    obtain ⟨hsetup', hloader', hwait'⟩ := haccess
    refine ⟨_, hnext, hsetup', congrArg Loader.task hloader', fun hnone => ?_, fun a v hwait hlo hhi hinit => ?_,
      congrArg Loader.startState hloader', Part.applyCommit_ready .., fun b hdisabled hfault hnow hwas => ?_⟩
    · rw [hstays hnone]
    · rw [hwrite a v hwait hlo hhi hinit] at hwait' ⊢
      exact ⟨rfl, hwait'⟩
    · obtain ⟨q, hq, hrest⟩ := Part.enacted_turn next y.1 b
      have hw : q.switch b = s.part.switch b := hq.switch.trans (by rw [Part.switch, Part.inForce, hswitches]; rfl)
      have hsetq : q.setup = next := hq.setup
      have henable : Part.applyBranch y.1.setup.branchEnable b q = Part.beginEnable b q := by
        rw [Part.applyBranch_enables (by rw [hset]; exact hwas) (by rw [hsetq]; exact hnow), Part.enableBranch]
        simp only [hw, hdisabled, if_true]
      rw [henable] at hrest
      have hswitch : ((Part.enacted next y.1).switch b) = _ := hrest.switch
      rw [Part.beginEnable_high (by rw [hw]; exact hfault)] at hswitch
      have hbranch : q.branchSetup b = next.branch.get b := by rw [Part.branchSetup, hsetq]
      simp only [Part.switch_modSwitch_self, Part.setSwitch_switch, hw, hbranch] at hswitch
      have hfinal := (Part.applyCommit_spares (b := b) (next := next) (p := y.1)
        (by rw [hswitch]; exact nofun)).switch.trans hswitch
      generalize Part.applyCommit next y.1 = t at *
      exact ⟨congrArg Switch.state hfinal, congrArg Switch.rline hfinal, congrArg Switch.rprobe hfinal,
        congrArg Switch.relay hfinal, congrArg Switch.isolations hfinal, congrArg Switch.verdict hfinal⟩

end Sys2Proof.Machine
end

section
/-! PROOF. The enables that a commit changes: a branch disabled in each state of its switch, a printer enabled or disabled
(O16). -/

namespace Sys2Proof.Machine

/-- A job that has gone with its printer. -/
def Job.gone (x : Job) : Prop := x.state = .aborted ∧ x.result = some .printerGone ∧ x.chain = []

namespace Part

section

variable {p : Part} {b : Branch}

/-! ## The disable of a branch (R148) -/

theorem disableBranch_enters (hdest : (p.switch b).dest ≠ some .disabled)
    (hstate : (p.switch b).state = .isolated ∨ (p.switch b).state = .lockedOut) : disableBranch b p = disabledEntry b p := by
  rcases hstate with hstate | hstate <;> simp only [disableBranch, hdest, if_false, hstate]

theorem disableBranch_abandons (hdest : (p.switch b).dest ≠ some .disabled) (hstate : (p.switch b).state = .probing)
    (hserved : p.probed b = false) : disableBranch b p = disabledEntry b (abandonProbe b p) := by
  simp only [disableBranch, hdest, if_false, hstate, hserved, Bool.false_eq_true]

/-- The switch as a disable takes it out of service. -/
def drainingPart (b : Branch) (p : Part) : Part :=
  setSwitch b .draining (modSwitch b (fun w => { w with dest := some .disabled, verdict := .none, trial := 0 }) p)

theorem disableBranch_stops (hdest : (p.switch b).dest ≠ some .disabled)
    (hstate : (p.switch b).state = .inService ∨ (p.switch b).state = .onTrial) :
    disableBranch b p = stopRequest b (drainingPart b p) := by
  rcases hstate with hstate | hstate <;> simp only [disableBranch, hdest, if_false, hstate, drainingPart]

theorem disableBranch_redirects (hdest : (p.switch b).dest ≠ some .disabled)
    (hstate : (p.switch b).state = .draining ∨ (p.switch b).state = .opening ∨ (p.switch b).state = .closing
      ∨ ((p.switch b).state = .probing ∧ p.probed b = true)) :
    disableBranch b p = modSwitch b (fun w => { w with dest := some .disabled }) p := by
  rcases hstate with hstate | hstate | hstate | ⟨hstate, hserved⟩
  · simp only [disableBranch, hdest, if_false, hstate]
  · simp only [disableBranch, hdest, if_false, hstate]
  · simp only [disableBranch, hdest, if_false, hstate]
  · simp only [disableBranch, hdest, if_false, hstate, hserved, if_true]

end

/-! ## The printers of a commit -/

theorem each_none {α : Type} (l : List α) (f : α → Part → Part) {p : Part} (h : ∀ x ∈ l, f x p = p) : each l f p = p := by
  induction l with
  | nil => rfl
  | cons x r ih => rw [each_cons, h x (by simp), ih fun y hy => h y (List.mem_cons_of_mem _ hy)]

/-- Of acts of which only one does anything, that one stands. -/
theorem each_one {f : Port → Part → Part} {k : Port} {x : Setup}
    (hother : ∀ i, i ≠ k → ∀ q : Part, q.setup = x → f i q = q) (hself : ∀ q : Part, q.setup = x → (f k q).setup = x)
    (l : List Port) (hmem : k ∈ l) (hnodup : l.Nodup) : ∀ p : Part, p.setup = x → each l f p = f k p := by
  induction l with
  | nil => exact nomatch hmem
  | cons i r ih =>
    intro p hp
    obtain ⟨hi, hr⟩ := List.nodup_cons.mp hnodup
    rw [each_cons]
    rcases List.mem_cons.mp hmem with rfl | hlater
    · exact each_none r f fun y hy => hother y (ne_of_mem_of_not_mem hy hi) _ (hself p hp)
    · rw [hother i (ne_of_mem_of_not_mem hlater hi).symm p hp]
      exact ih hlater hr p hp

theorem applyPrinter_same {old : Vector PrinterSetup 3} {k : Port} {p : Part}
    (h : (p.printerSetup k).enable = (old.get k).enable) : applyPrinter old k p = p := by
  cases hold : (old.get k).enable <;>
    simp only [applyPrinter, h, hold, Bool.not_true, Bool.not_false, Bool.and_true, Bool.and_false, Bool.false_eq_true,
      if_false]

theorem applyPrinter_enables {old : Vector PrinterSetup 3} {k : Port} {p : Part} (hold : (old.get k).enable = false)
    (hnow : (p.printerSetup k).enable = true) : applyPrinter old k p = redecide k p := by
  simp only [applyPrinter, hold, hnow, Bool.not_false, Bool.and_self, if_true, enablePort]

theorem applyPrinter_disables {old : Vector PrinterSetup 3} {k : Port} {p : Part} (hold : (old.get k).enable = true)
    (hnow : (p.printerSetup k).enable = false) : applyPrinter old k p = checkSubmitJob (disablePort k p) := by
  simp only [applyPrinter, hold, hnow, Bool.not_true, Bool.not_false, Bool.and_self, Bool.false_eq_true, if_false, if_true]

/-- With one enable changed, a printer's, the application acts on it alone. -/
theorem enacted_printer {next : Setup} {p : Part} {k : Port} (hbranches : next.branchEnable = p.setup.branchEnable)
    (hothers : ∀ i : Port, i ≠ k → (p.printerSetup i).enable = (next.printer.get i).enable) :
    enacted next p = applyPrinter p.setup.printer k (inForce next p) := by
  have hbranch : each branches (applyBranch p.setup.branchEnable) (inForce next p) = inForce next p :=
    each_none _ _ fun b _ => applyBranch_same hbranches
  rw [enacted, hbranch]
  refine each_one (x := next) (fun i hi q hq => applyPrinter_same ?_) (fun q hq => ?_) printerPorts ?_ (by decide) _ rfl
  · rw [printerSetup, hq]
    exact (hothers i hi).symm
  · have h := applyPrinter_supervision p.setup.printer k q
    simp only [supervision, Prod.mk.injEq] at h
    exact h.1.trans hq
  · obtain rfl | rfl | rfl : k = 0 ∨ k = 1 ∨ k = 2 := port_cases k <;> decide

/-- The end of the application leaves the ports, the queues and the jobs. -/
theorem applyCommit_printers (next : Setup) (p : Part) : (applyCommit next p).ports = (enacted next p).ports
    ∧ (applyCommit next p).queues = (enacted next p).queues ∧ (applyCommit next p).jobs = (enacted next p).jobs
    ∧ (enacted next p).KeepsLatches (applyCommit next p) := by
  have htimers : ∀ q : Part, (startStoppedTimers q).ports = q.ports ∧ (startStoppedTimers q).queues = q.queues
      ∧ (startStoppedTimers q).jobs = q.jobs ∧ (startStoppedTimers q).notices = q.notices := by
    intro q
    unfold startStoppedTimers
    extract_lets q1
    have h1 : q1.ports = q.ports ∧ q1.queues = q.queues ∧ q1.jobs = q.jobs ∧ q1.notices = q.notices := by
      unfold q1
      split <;> exact ⟨rfl, rfl, rfl, rfl⟩
    refine each_keeps_prop (fun r : Part => r.ports = q.ports ∧ r.queues = q.queues ∧ r.jobs = q.jobs
      ∧ r.notices = q.notices) _ _ (fun c r hr => ?_) q1 h1
    split <;> exact hr
  rw [applyCommit_eq]
  obtain ⟨hports, hqueues, hjobs, hnotices⟩ := htimers (enacted next p)
  generalize startStoppedTimers (enacted next p) = q at *
  refine ⟨by simp [hports], by simp [hqueues], by simp [hjobs], ?_⟩
  exact KeepsLatches.notify .readyDone ((KeepsLatches.refl (enacted next p)).same
    (q := { submitEvent q with loader := { (submitEvent q).loader with
      startState := if (submitEvent q).loader.startState = .ready then .running else (submitEvent q).loader.startState } })
    (by simp [hnotices]))

/-! ## The disable of a printer (R109) -/

section

variable {p : Part} {k : Port}

theorem abortJob_gone {j : JobNo} (h : (p.job j).state.live = true) : ((abortJob j .printerGone p).job j).gone := by
  rw [abortJob_job_self _ h]
  exact ⟨rfl, rfl, rfl⟩

theorem abortJob_over {j : JobNo} (r : JobResult) (h : (p.job j).state.live = false) : abortJob j r p = p := by
  simp only [abortJob, h, Bool.false_eq_true, if_false]

/-- What the abort of a job at a printer leaves: the ports, the setup and every other job. -/
structure AbortKeeps (j : JobNo) (k : Port) (p q : Part) : Prop where
  ports : q.ports = p.ports
  setup : q.setup = p.setup
  submit : q.submit.job = p.submit.job
  jobs : ∀ i, i ≠ j → q.job i = p.job i
  queue : ∀ i ∈ q.queue k, i ∈ p.queue k

theorem abortJob_keepsOthers (j : JobNo) (r : JobResult) (k : Port) (p : Part) : AbortKeeps j k p (abortJob j r p) := by
  refine ⟨by simp, by simp, by simp, fun i hi => abortJob_job_ne r hi, fun i hi => ?_⟩
  cases hlive : (p.job j).state.live
  · rwa [abortJob_over r hlive] at hi
  · by_cases hwaiting : (p.job j).state = .waiting
    · by_cases hk : (p.job j).printer = k
      · have hq := abortJob_queue r hwaiting
        rw [hk] at hq
        rw [hq] at hi
        exact (List.mem_filter.mp hi).1
      · have hq : (abortJob j r p).queue k = p.queue k := by
          rw [abortJob_live r hlive, if_pos hwaiting]
          simp [queue_leaveQueue_ne j p (Ne.symm hk)]
        rwa [hq] at hi
    · rw [queue, abortJob_queues r hwaiting] at hi
      exact hi

/-- The jobs of a queue are aborted one after another: each leaves the queue, and each has gone. -/
theorem abortAll_gone (l : List JobNo) : ∀ p : Part,
    (∀ i ∈ l, ((p.job i).state = .waiting ∧ (p.job i).printer = k) ∨ ((p.job i).gone ∧ i ∉ p.queue k)) →
    let q := each l (fun j q => abortJob j .printerGone q) p
    (∀ i ∈ l, (q.job i).gone ∧ i ∉ q.queue k) ∧ (∀ i ∉ l, q.job i = p.job i) ∧ (∀ i ∈ q.queue k, i ∈ p.queue k)
      ∧ q.ports = p.ports ∧ q.setup = p.setup ∧ q.submit.job = p.submit.job := by
  induction l with
  | nil =>
    intro p _ q
    exact ⟨fun i hi => (nomatch hi), fun _ _ => rfl, fun _ hi => hi, rfl, rfl, rfl⟩
  | cons j r ih =>
    intro p h
    have hkeeps := abortJob_keepsOthers j .printerGone k p
    have hj : ((abortJob j .printerGone p).job j).gone ∧ j ∉ (abortJob j .printerGone p).queue k := by
      rcases h j (by simp) with ⟨hwaiting, hprinter⟩ | ⟨hgone, hout⟩
      · have hq := abortJob_queue (p := p) .printerGone hwaiting
        rw [hprinter] at hq
        exact ⟨abortJob_gone (live_of_waiting hwaiting), by simp [hq]⟩
      · obtain ⟨hstate, _, _⟩ := id hgone
        rw [abortJob_over _ (by rw [hstate]; rfl)]
        exact ⟨hgone, hout⟩
    have hnext := ih (abortJob j .printerGone p) fun i hi => by
      by_cases hij : i = j
      · rw [hij]
        exact .inr hj
      · rw [hkeeps.jobs i hij]
        rcases h i (List.mem_cons_of_mem _ hi) with hw | ⟨hgone, hout⟩
        · exact .inl hw
        · exact .inr ⟨hgone, fun hmem => hout (hkeeps.queue i hmem)⟩
    rw [each_cons]
    obtain ⟨hgone, hothers, hqueue, hports, hsetup, hsubmit⟩ := hnext
    generalize each r (fun j q => abortJob j .printerGone q) (abortJob j .printerGone p) = q at *
    refine ⟨fun i hi => ?_, fun i hi => ?_, fun i hi => hkeeps.queue i (hqueue i hi), hports.trans hkeeps.ports,
      hsetup.trans hkeeps.setup, hsubmit.trans hkeeps.submit⟩
    · by_cases hir : i ∈ r
      · exact hgone i hir
      · rcases List.mem_cons.mp hi with rfl | hmem
        · exact ⟨by rw [hothers _ hir]; exact hj.1, fun hmem => hj.2 (hqueue _ hmem)⟩
        · exact absurd hmem hir
    · obtain ⟨hne, hir⟩ := not_or.mp (mt List.mem_cons.mpr hi)
      exact (hothers i hir).trans (hkeeps.jobs i hne)

/-- The ASSEMBLING jobs of a printer are aborted, whatever the walk does with none of them (R97, R109). -/
def abortAssemblingAt (k : Port) (j : JobNo) (q : Part) : Part :=
  if (q.job j).state = .assembling ∧ (q.job j).printer = k then abortFilling j .printerGone q else q

theorem abortFilling_unwalked {j : JobNo} (r : JobResult) (h : p.submit.job = none) :
    abortFilling j r p = abortJob j r p := by
  simp only [abortFilling, h, reduceCtorEq, if_false]

theorem abortAssembling_gone (l : List JobNo) : ∀ p : Part, p.submit.job = none →
    let q := each l (abortAssemblingAt k) p
    (∀ i, (p.job i).state = .assembling → (p.job i).printer = k → i ∈ l → (q.job i).gone)
      ∧ (∀ i, ¬ ((p.job i).state = .assembling ∧ (p.job i).printer = k) → q.job i = p.job i)
      ∧ q.queues = p.queues ∧ q.ports = p.ports ∧ q.setup = p.setup ∧ q.submit.job = none := by
  induction l with
  | nil =>
    intro p h q
    exact ⟨fun i _ _ hi => (nomatch hi), fun _ _ => rfl, rfl, rfl, rfl, h⟩
  | cons j r ih =>
    intro p hsubmit
    rw [each_cons]
    by_cases hj : (p.job j).state = .assembling ∧ (p.job j).printer = k
    · have hstep : abortAssemblingAt k j p = abortJob j .printerGone p := by
        rw [abortAssemblingAt, if_pos hj, abortFilling_unwalked _ hsubmit]
      have hkeeps := abortJob_keepsOthers j .printerGone k p
      have hgoneJ := abortJob_gone (p := p) (live_of_assembling hj.1)
      have hqueues := abortJob_queues (p := p) .printerGone (by rw [hj.1]; decide)
      rw [hstep]
      obtain ⟨hgone, hothers, hqueue, hports, hsetup, hsub⟩ := ih (abortJob j .printerGone p) (hkeeps.submit.trans hsubmit)
      generalize each r (abortAssemblingAt k) (abortJob j .printerGone p) = q at *
      refine ⟨fun i hstate hprinter hi => ?_, fun i hi => ?_, hqueue.trans hqueues, hports.trans hkeeps.ports,
        hsetup.trans hkeeps.setup, hsub⟩
      · by_cases hij : i = j
        · subst hij
          rw [hothers i fun ⟨hstate', _⟩ => by rw [hgoneJ.1] at hstate'; exact nomatch hstate']
          exact hgoneJ
        · have hmem : i ∈ r := (List.mem_cons.mp hi).resolve_left hij
          exact hgone i (by rw [hkeeps.jobs i hij]; exact hstate) (by rw [hkeeps.jobs i hij]; exact hprinter) hmem
      · have hij : i ≠ j := fun e => hi (e ▸ hj)
        rw [hothers i (by rw [hkeeps.jobs i hij]; exact hi), hkeeps.jobs i hij]
    · rw [abortAssemblingAt, if_neg hj]
      obtain ⟨hgone, hothers, hrest⟩ := ih p hsubmit
      refine ⟨fun i hstate hprinter hi => ?_, hothers, hrest⟩
      have hij : i ≠ j := fun e => hj (e ▸ ⟨hstate, hprinter⟩)
      exact hgone i hstate hprinter ((List.mem_cons.mp hi).resolve_left hij)

/-- A waiting job moves to the alternate, where it has room. -/
def moveRoomy (k a : Port) (j : JobNo) (q : Part) : Part := if q.hasRoom a then moveWaiting j k a q else q

/-- With room for all, the jobs of a queue move in order to the tail of a queue whose port is not IDLE. -/
theorem moveAll_moves {a : Port} (hak : a ≠ k) (l : List JobNo) : ∀ p : Part, l.Nodup → (p.port a).state ≠ .idle →
    (p.queue a).length + l.length ≤ 16 →
    let q := each l (moveRoomy k a) p
    q.queue a = p.queue a ++ l ∧ q.queue k = (p.queue k).filter (fun i => l.all fun j => i != j)
      ∧ (∀ i ∈ l, q.job i = { p.job i with printer := a, moved := true }) ∧ (∀ i ∉ l, q.job i = p.job i)
      ∧ q.ports = p.ports ∧ q.submit.job = p.submit.job := by
  induction l with
  | nil =>
    intro p _ _ _
    exact ⟨by simp [each], (List.filter_eq_self.mpr fun _ _ => rfl).symm, fun i hi => (nomatch hi), fun _ _ => rfl, rfl, rfl⟩
  | cons j r ih =>
    intro p hnodup hstate hlen
    obtain ⟨hj, hr⟩ := List.nodup_cons.mp hnodup
    rw [List.length_cons] at hlen
    have hroom : p.hasRoom a = true := decide_eq_true (by simp only [Config.queueCapacity]; omega)
    have hstep : moveRoomy k a j p = modQueue a (fun l => l ++ [j])
        (updJob j (fun x => { x with printer := a, moved := true }) 0 (leaveQueue j k p)) := by
      rw [moveRoomy, if_pos hroom, moveWaiting_notIdle hstate]
    have hqa : (moveRoomy k a j p).queue a = p.queue a ++ [j] := by
      rw [hstep, queue_modQueue_self]
      simp [queue_leaveQueue_ne j p hak]
    have hqk : (moveRoomy k a j p).queue k = (p.queue k).filter fun i => i != j := by
      rw [hstep, queue_modQueue_ne _ _ _ _ hak.symm]
      simp
    have hself : (moveRoomy k a j p).job j = { p.job j with printer := a, moved := true } := by
      rw [hstep]
      simp
    have hothers : ∀ i, i ≠ j → (moveRoomy k a j p).job i = p.job i := fun i hi => by
      rw [hstep]
      simp [job_updJob_ne _ _ _ _ _ hi]
    have hports : (moveRoomy k a j p).ports = p.ports ∧ (moveRoomy k a j p).submit.job = p.submit.job := by
      rw [hstep]
      exact ⟨by simp, by simp⟩
    obtain ⟨hports, hsubmit⟩ := hports
    rw [each_cons]
    generalize moveRoomy k a j p = p' at *
    obtain ⟨ha, hk, hmoved, hkept, hports', hsubmit'⟩ := ih p' hr (by rw [port, hports]; exact hstate)
      (by rw [hqa, List.length_append, List.length_singleton]; omega)
    generalize each r (moveRoomy k a) p' = q at *
    refine ⟨?_, ?_, fun i hi => ?_, fun i hi => ?_, hports'.trans hports, hsubmit'.trans hsubmit⟩
    · rw [ha, hqa, List.append_assoc]
      rfl
    · rw [hk, hqk, List.filter_filter]
      exact List.filter_congr fun i _ => by simp [Bool.and_comm]
    · by_cases hij : i = j
      · rw [hij, hkept j hj, hself]
      · rw [hmoved i ((List.mem_cons.mp hi).resolve_left hij), hothers i hij]
    · obtain ⟨hne, hir⟩ := not_or.mp (mt List.mem_cons.mpr hi)
      rw [hkept i hir, hothers i hne]

end

end Part

end Sys2Proof.Machine
end

section
/-! PROOF. A branch that a commit disables (O16). -/

namespace Sys2Proof.Machine

namespace Part

section

variable {p : Part} {b : Branch} {next : Setup}

/-- A branch at rest, or waiting for the probe unit, is disabled at once. -/
theorem disableBranch_atOnce (hdest : (p.switch b).dest ≠ some .disabled) (hpending : (p.switch b).enablePending = false)
    (hstate : (p.switch b).state = .isolated ∨ (p.switch b).state = .lockedOut
      ∨ ((p.switch b).state = .probing ∧ p.probed b = false)) :
    (disableBranch b p).switch b = (p.switch b).disabling
      ∧ (disableBranch b p).sup b = { p.sup b with score := 0, warn := false, capture := Capture.blank }
      ∧ ∀ n : StationNo, n ≠ 0 → n ≠ 63 → ((disableBranch b p).station b n).state ≠ .present := by
  have henters : ∃ q : Part, disableBranch b p = disabledEntry b q ∧ q.switch b = p.switch b ∧ q.sup b = p.sup b := by
    rcases hstate with hstate | hstate | ⟨hstate, hserved⟩
    · exact ⟨p, disableBranch_enters hdest (.inl hstate), rfl, rfl⟩
    · exact ⟨p, disableBranch_enters hdest (.inr hstate), rfl, rfl⟩
    · exact ⟨_, disableBranch_abandons hdest hstate hserved, by simp, by simp⟩
  obtain ⟨q, hq, hw, hx⟩ := henters
  rw [hq, disabledEntry_stays (by rw [hw]; exact hpending)]
  exact ⟨by rw [disabledPart_switch, hw], by rw [disabledPart_sup, hx], fun n h0 h63 => disabledPart_present q h0 h63⟩

/-- A branch in an exchange drains: its engine stops after the exchange. -/
theorem disableBranch_drains (hdest : (p.switch b).dest ≠ some .disabled)
    (hstate : (p.switch b).state = .inService ∨ (p.switch b).state = .onTrial)
    (hrun : (p.engine b).state = .initialSweep ∨ (p.engine b).state = .rounds)
    (hphase : (p.engine b).phase.inExchange = true) :
    (disableBranch b p).switch b = ({ p.switch b with dest := some .disabled, verdict := .none, trial := 0 } : Switch).entering
        .draining
      ∧ ((disableBranch b p).engine b).state = .stopping := by
  have hengine : (drainingPart b p).engine b = p.engine b := by simp [drainingPart]
  have hswitch : (drainingPart b p).switch b = _ := setSwitch_switch ..
  rw [disableBranch_stops hdest hstate, stopRequest_exchange (by rcases hrun with h | h <;> rw [hengine, h] <;> rfl)
    (by rw [hengine]; exact hphase)]
  exact ⟨by simp [hswitch], by simp⟩

/-- A branch is disabled from `o` to `t` in the turn of its own, in which it stands as in `o`. -/
def DisabledTo (b : Branch) (o t : Part) : Prop :=
  ∃ q, Spared b o q ∧ (((disableBranch b q).switch b).state ≠ .isolated → Spared b (disableBranch b q) t)

/-- The turn of a branch that a commit disables: what the disable leaves of the branch stands at its end. -/
theorem applyCommit_disables (hwas : p.setup.branchEnable.getLsbD b.val = true)
    (hnow : next.branchEnable.getLsbD b.val = false) : DisabledTo b (inForce next p) (applyCommit next p) := by
  obtain ⟨q, hq, hrest⟩ := enacted_turn next p b
  rw [applyBranch_disables hwas (by rw [hq.setup]; exact hnow)] at hrest
  exact ⟨q, hq, fun h => hrest.trans (applyCommit_spares (by rw [hrest.switch]; exact h))⟩

namespace DisabledTo

variable {o t : Part} (h : DisabledTo b o t)

include h

theorem atOnce (hstate : (o.switch b).state = .isolated ∨ (o.switch b).state = .lockedOut
      ∨ ((o.switch b).state = .probing ∧ o.probed b = false))
    (hdest : (o.switch b).dest ≠ some .disabled) (hpending : (o.switch b).enablePending = false) :
    t.switch b = (o.switch b).disabling
      ∧ t.sup b = { o.sup b with score := 0, warn := false, capture := Capture.blank }
      ∧ ∀ n : StationNo, n ≠ 0 → n ≠ 63 → (t.station b n).state ≠ .present := by
  obtain ⟨q, hq, hrest⟩ := h
  rw [← hq.switch] at hdest hpending hstate ⊢
  rw [← hq.probed] at hstate
  obtain ⟨hswitch, hsup, hpresent⟩ := disableBranch_atOnce hdest hpending hstate
  have hspared := hrest (by rw [hswitch]; exact nofun)
  refine ⟨hspared.switch.trans hswitch, by rw [hspared.sup, hsup, hq.sup], fun n h0 h63 => ?_⟩
  have hstands := congrArg Prod.fst (hspared.standing n)
  simp only [Station.standing] at hstands
  rw [hstands]
  exact hpresent n h0 h63

theorem drains (hstate : (o.switch b).state = .inService ∨ (o.switch b).state = .onTrial)
    (hdest : (o.switch b).dest ≠ some .disabled)
    (hrun : (o.engine b).state = .initialSweep ∨ (o.engine b).state = .rounds)
    (hphase : (o.engine b).phase.inExchange = true) :
    t.switch b = ({ o.switch b with dest := some .disabled, verdict := .none, trial := 0 } : Switch).entering .draining
      ∧ (t.engine b).state = .stopping := by
  obtain ⟨q, hq, hrest⟩ := h
  rw [← hq.switch] at hdest hstate ⊢
  rw [← hq.engine] at hrun hphase
  obtain ⟨hswitch, hengine⟩ := disableBranch_drains hdest hstate hrun hphase
  have hspared := hrest (by rw [hswitch]; exact nofun)
  exact ⟨hspared.switch.trans hswitch, by rw [hspared.engine]; exact hengine⟩

theorem redirects (hstate : (o.switch b).state = .draining ∨ (o.switch b).state = .opening
      ∨ (o.switch b).state = .closing ∨ ((o.switch b).state = .probing ∧ o.probed b = true))
    (hdest : (o.switch b).dest ≠ some .disabled) : t.switch b = { o.switch b with dest := some .disabled } := by
  obtain ⟨q, hq, hrest⟩ := h
  rw [← hq.switch] at hdest hstate ⊢
  rw [← hq.probed] at hstate
  have hswitch : (disableBranch b q).switch b = { q.switch b with dest := some .disabled } := by
    rw [disableBranch_redirects hdest hstate, switch_modSwitch_self]
  refine (hrest ?_).switch.trans hswitch
  rw [hswitch]
  rcases hstate with h | h | h | ⟨h, _⟩ <;> simp [h]

end DisabledTo

end

end Part

end Sys2Proof.Machine
end

section
/-! PROOF. A printer that a commit enables or disables (O16). -/

namespace Sys2Proof.Machine

/-- A port as it is disabled: its lines at rest (R109). -/
def PrinterPort.shut (t : PrinterPort) : PrinterPort :=
  { t with state := .disabled, job := none, handshake := none, fetched := none, stall := none, redirect := none
           redirected := false, stalled := false, data := 0, strobe := false }

namespace Part

section

variable {p : Part} {k : Port}

/-! ## The enable of a printer (R109) -/

/-- A printer newly enabled, without a condition, is IDLE. -/
theorem redecide_ready (henable : (p.printerSetup k).enable = true) (hstate : (p.port k).state = .disabled)
    (hjob : (p.port k).job = none) (hstalled : (p.port k).stalled = false) (hqueue : p.queue k = [])
    (hcalm : (p.port k).conditions = (false, false, false)) : ((redecide k p).port k).state = .idle := by
  obtain ⟨hdeselected, hpaper, hfault⟩ : _ ∧ _ ∧ _ := ⟨congrArg (·.1) hcalm, congrArg (·.2.1) hcalm, congrArg (·.2.2) hcalm⟩
  have hdecide : (p.port k).decide (p.printerSetup k).enable = .idle := by
    simp [PrinterPort.decide, henable, show (p.port k).deselected = _ from hdeselected, show (p.port k).paperOut = _ from hpaper,
      show (p.port k).fault = _ from hfault, hstalled, hjob]
  rw [redecide_rests hdecide (by rw [hstate]; decide) hjob hqueue]
  obtain ⟨l, hl⟩ := idleLoad_port k (runningPort k .idle p)
  simp [hl]

/-- A printer newly enabled takes the trouble that its conditions give. -/
theorem redecide_unready (henable : (p.printerSetup k).enable = true) (hstate : (p.port k).state = .disabled)
    (hjob : (p.port k).job = none) (hload : (p.port k).loadPending = false)
    (h : (p.port k).fault = true ∨ (p.port k).paperOut = true ∨ (p.port k).deselected = true) :
    ((redecide k p).port k).state =
        (if (p.port k).fault then .fault else if (p.port k).paperOut then .paperOut else .offline)
      ∧ (redecide k p).notices.latches.getLsbD 7 = true
      ∧ ((redecide k p).port k).redirect =
        (if (p.printerSetup k).redirectS = 0 then none else some (p.printerSetup k).redirectS) := by
  let new : PortState := if (p.port k).fault then .fault else if (p.port k).paperOut then .paperOut else .offline
  have hdecide : (p.port k).decide (p.printerSetup k).enable = new := by
    cases hfault : (p.port k).fault <;> cases hpaper : (p.port k).paperOut <;>
      simp [PrinterPort.decide, henable, hfault, hpaper, new]
    exact fun hd => absurd ((h.resolve_left (by simp [hfault])).resolve_left (by simp [hpaper])) (by simp [hd])
  have hnew : new.trouble = true ∧ new ≠ .stalled := by
    unfold new
    split
    · exact ⟨rfl, nofun⟩
    · split <;> exact ⟨rfl, nofun⟩
  obtain ⟨htrouble, hnot⟩ := hnew
  have hne : (p.port k).state ≠ new := fun e => by rw [← e, hstate] at htrouble; exact nomatch htrouble
  rw [redecide_troubles hdecide htrouble hne hjob hload, troubledPort_port hnot]
  refine ⟨rfl, ?_, ?_⟩
  · simpa using .inr (by decide)
  · simp [PrinterPort.abandoning, PrinterPort.entering, hstate, PortState.trouble]

/-! ## The disable of a printer, step by step (R109) -/

/-- The current job is aborted and leaves the port. -/
def vacated (k : Port) (p : Part) : Part :=
  match (p.port k).job with
  | some j => detach k (abortJob j .printerGone p)
  | none => p

/-- The ASSEMBLING jobs are aborted too. -/
def unmanned (k : Port) (p : Part) : Part := each (List.finRange 32) (abortAssemblingAt k) (vacated k p)

/-- The waiting jobs move to the alternate. -/
def spilled (k : Port) (p : Part) : Part :=
  match p.alternateOf k with
  | none => p
  | some a => each (p.queue k) (moveRoomy k a) p

/-- Those that are left are aborted. -/
def emptied (k : Port) (p : Part) : Part :=
  each ((spilled k (unmanned k p)).queue k) (fun j q => abortJob j .printerGone q) (spilled k (unmanned k p))

theorem disablePort_eq (k : Port) (p : Part) : disablePort k p =
    idleLoad k (if ((emptied k p).port k).redirected then submitEvent (modPort k PrinterPort.shut (emptied k p))
      else modPort k PrinterPort.shut (emptied k p)) := by
  unfold disablePort
  extract_lets p1 p2 p3 p4 was p5
  have h1 : p1 = vacated k p := by
    unfold p1 vacated
    cases (p.port k).job <;> rfl
  have h2 : p2 = unmanned k p := congrArg (each (List.finRange 32) (abortAssemblingAt k)) h1
  have h3 : p3 = spilled k p2 := by
    unfold p3 spilled
    cases p2.alternateOf k <;> rfl
  have h4 : p4 = each (p3.queue k) (fun j q => abortJob j .printerGone q) p3 := rfl
  have h : p4 = emptied k p := by rw [h4, h3, h2, emptied]
  rw [← h]
  rfl

/-- What the last step makes of the port, and what it leaves. -/
theorem disablePort_shuts (k : Port) (p : Part) :
    (∃ l, (disablePort k p).port k = { ((emptied k p).port k).shut with loading := l })
      ∧ (disablePort k p).queues = (emptied k p).queues ∧ (disablePort k p).jobs = (emptied k p).jobs
      ∧ (disablePort k p).submit.job = (emptied k p).submit.job := by
  rw [disablePort_eq]
  generalize emptied k p = q
  obtain ⟨r, hr, hport, hqueues, hjobs, hsubmit⟩ : ∃ r : Part, (if (q.port k).redirected then
      submitEvent (modPort k PrinterPort.shut q) else modPort k PrinterPort.shut q) = r ∧ r.port k = (q.port k).shut
      ∧ r.queues = q.queues ∧ r.jobs = q.jobs ∧ r.submit.job = q.submit.job := by
    refine ⟨_, rfl, ?_⟩
    split <;> simp
  rw [hr]
  obtain ⟨l, hl⟩ := idleLoad_port k r
  exact ⟨⟨l, by rw [hl, hport]⟩, by simp [hqueues], by simp [hjobs], by simp [hsubmit]⟩

/-- A printer without its current job and its ASSEMBLING jobs. -/
structure Unmanned (k : Port) (p q : Part) : Prop where
  gone : ∀ j, (p.port k).job = some j ∨ ((p.job j).state = .assembling ∧ (p.job j).printer = k) → (q.job j).gone
  waiting : ∀ i, (p.job i).state = .waiting → q.job i = p.job i
  abandoned : (p.port k).handshake.isSome = true → (p.port k).job.isSome = true → (q.port k).abandoned = true
  ports : ∀ i, i ≠ k → q.port i = p.port i
  queues : q.queues = p.queues
  setup : q.setup = p.setup
  submit : q.submit.job = none

theorem vacated_spec (hsubmit : p.submit.job = none)
    (hjob : ∀ j, (p.port k).job = some j → (p.job j).state = .printing ∨ (p.job j).state = .held) :
    (∀ j, (p.port k).job = some j → ((vacated k p).job j).gone)
      ∧ (∀ i, (p.port k).job ≠ some i → (vacated k p).job i = p.job i)
      ∧ ((p.port k).handshake.isSome = true → (p.port k).job.isSome = true → ((vacated k p).port k).abandoned = true)
      ∧ (∀ i, i ≠ k → (vacated k p).port i = p.port i) ∧ (vacated k p).queues = p.queues
      ∧ (vacated k p).setup = p.setup ∧ (vacated k p).submit.job = none := by
  unfold vacated
  cases hcurrent : (p.port k).job with
  | none => exact ⟨nofun, fun _ _ => rfl, nofun, fun _ _ => rfl, rfl, rfl, hsubmit⟩
  | some j =>
    have hstate := hjob j hcurrent
    have hlive : (p.job j).state.live = true := by rcases hstate with h | h <;> rw [h] <;> rfl
    have hgone := abortJob_gone hlive
    have hkeeps := abortJob_keepsOthers j .printerGone k p
    have hqueues := abortJob_queues (p := p) .printerGone (by rcases hstate with h | h <;> rw [h] <;> decide)
    simp only
    generalize abortJob j .printerGone p = q at *
    have hports := hkeeps.ports
    refine ⟨fun i hi => ?_, fun i hi => ?_, fun hhandshake _ => ?_, fun i hi => ?_, ?_, ?_, ?_⟩
    · cases hi
      simpa [detach, giveUp] using hgone
    · simpa [detach, giveUp] using hkeeps.jobs i fun e => hi (by rw [e])
    · have hport : (q.port k).handshake.isSome = true := by rw [port, hports]; exact hhandshake
      simp [detach, giveUp_self, PrinterPort.abandoning, hport]
    · simp only [detach, giveUp, port_modPort_ne _ _ _ _ hi]
      rw [port, hports]
      rfl
    · simp [detach, giveUp, hqueues]
    · simp [detach, giveUp, hkeeps.setup]
    · simp [detach, giveUp, hkeeps.submit, hsubmit]

theorem unmanned_spec (hsubmit : p.submit.job = none)
    (hjob : ∀ j, (p.port k).job = some j → (p.job j).state = .printing ∨ (p.job j).state = .held) :
    Unmanned k p (unmanned k p) := by
  obtain ⟨hgone, hothers, habandoned, hports, hqueues, hsetup, hsubmit'⟩ := vacated_spec hsubmit hjob
  have hcurrent : ∀ i, (p.job i).state ≠ .printing → (p.job i).state ≠ .held → (p.port k).job ≠ some i :=
    fun i hp hh hi => (hjob i hi).elim hp hh
  unfold unmanned
  generalize vacated k p = q at *
  obtain ⟨hassembling, hkept, hqueues', hports', hsetup', hsubmit''⟩ := abortAssembling_gone (k := k) (List.finRange 32) q hsubmit'
  generalize each (List.finRange 32) (abortAssemblingAt k) q = r at *
  refine ⟨fun j hj => ?_, fun i hi => ?_, fun hh hj => ?_, fun i hi => ?_, hqueues'.trans hqueues, hsetup'.trans hsetup,
    hsubmit''⟩
  · rcases hj with hj | ⟨hstate, hprinter⟩
    · have hg := hgone j hj
      rw [hkept j fun ⟨hs, _⟩ => by rw [hg.1] at hs; exact nomatch hs]
      exact hg
    · have hsame := hothers j (hcurrent j (by rw [hstate]; decide) (by rw [hstate]; decide))
      exact hassembling j (by rw [hsame]; exact hstate) (by rw [hsame]; exact hprinter) (by simp)
  · have hsame := hothers i (hcurrent i (by rw [hi]; decide) (by rw [hi]; decide))
    rw [hkept i (by rw [hsame, hi]; exact nofun), hsame]
  · rw [port, hports']
    exact habandoned hh hj
  · rw [port, hports']
    exact hports i hi

/-- Without an alternate every job of the printer goes. -/
theorem emptied_gone (hsubmit : p.submit.job = none)
    (hjob : ∀ j, (p.port k).job = some j → (p.job j).state = .printing ∨ (p.job j).state = .held)
    (hqueue : ∀ i ∈ p.queue k, (p.job i).state = .waiting ∧ (p.job i).printer = k) (halt : 3 ≤ (p.printerSetup k).alternate) :
    ((p.port k).handshake.isSome = true → (p.port k).job.isSome = true → ((emptied k p).port k).abandoned = true)
      ∧ (emptied k p).queue k = [] ∧ (emptied k p).submit.job = none
      ∧ ∀ j, (p.port k).job = some j ∨ j ∈ p.queue k ∨ ((p.job j).state = .assembling ∧ (p.job j).printer = k) →
        ((emptied k p).job j).gone := by
  have h := unmanned_spec hsubmit hjob
  unfold emptied
  generalize unmanned k p = q at *
  have hspilled : spilled k q = q := by
    rw [spilled, alternateOf_none (.inl (by rw [printerSetup, h.setup]; exact halt))]
  have hq : q.queue k = p.queue k := by rw [queue, h.queues]; rfl
  obtain ⟨hgone, hothers, hsub, hports, _, hsubmit'⟩ := abortAll_gone (k := k) (q.queue k) q fun i hi => by
    have hi := hqueue i (hq ▸ hi)
    rw [h.waiting i hi.1]
    exact .inl hi
  rw [hspilled]
  generalize each (q.queue k) (fun j q => abortJob j .printerGone q) q = r at *
  refine ⟨fun hh hj => ?_, List.eq_nil_iff_forall_not_mem.mpr fun i hi => (hgone i (hsub i hi)).2 hi, hsubmit'.trans h.submit,
    fun j hj => ?_⟩
  · rw [port, hports]
    exact h.abandoned hh hj
  · by_cases hmem : j ∈ q.queue k
    · exact (hgone j hmem).1
    · rw [hothers j hmem]
      exact h.gone j (hj.imp_right fun h => h.resolve_left fun hm => hmem (hq ▸ hm))

/-- An alternate with room takes the waiting jobs in order. -/
theorem emptied_moves {a : Port} (hsubmit : p.submit.job = none)
    (hjob : ∀ j, (p.port k).job = some j → (p.job j).state = .printing ∨ (p.job j).state = .held)
    (hqueue : ∀ i ∈ p.queue k, (p.job i).state = .waiting ∧ (p.job i).printer = k) (hnodup : (p.queue k).Nodup)
    (halt : (p.printerSetup k).alternate = a.val) (hne : a ≠ k) (hon : (p.printerSetup a).enable = true)
    (hstate : (p.port a).state ≠ .idle) (hroom : (p.queue a).length + (p.queue k).length ≤ 16) :
    (emptied k p).queue k = [] ∧ (emptied k p).queue a = p.queue a ++ p.queue k ∧ (emptied k p).submit.job = none
      ∧ ∀ i ∈ p.queue k, (emptied k p).job i = { p.job i with printer := a, moved := true } := by
  have h := unmanned_spec hsubmit hjob
  unfold emptied
  generalize unmanned k p = q at *
  have hset : ∀ i, q.printerSetup i = p.printerSetup i := fun i => by rw [printerSetup, h.setup]; rfl
  have hqueues : ∀ i, q.queue i = p.queue i := fun i => by rw [queue, h.queues]; rfl
  have hspilled : spilled k q = each (q.queue k) (moveRoomy k a) q := by
    rw [spilled, alternateOf_eq (by rw [hset]; exact halt) hne (by rw [hset]; exact hon)]
  obtain ⟨ha, hk, hmoved, _, _, hsubmit'⟩ := moveAll_moves (k := k) hne (q.queue k) q (by rw [hqueues]; exact hnodup)
    (by rw [h.ports a hne]; exact hstate) (by rw [hqueues, hqueues]; exact hroom)
  rw [hspilled]
  generalize each (q.queue k) (moveRoomy k a) q = r at *
  have hempty : r.queue k = [] := by
    rw [hk]
    exact List.filter_eq_nil_iff.mpr fun i hi => by simpa using hi
  have hend : each (r.queue k) (fun j q => abortJob j .printerGone q) r = r := by rw [hempty]; rfl
  rw [hend]
  refine ⟨hempty, by rw [ha, hqueues, hqueues], hsubmit'.trans h.submit, fun i hi => ?_⟩
  rw [hmoved i (by rw [hqueues]; exact hi), h.waiting i (hqueue i hi).1]

end

end Part

end Sys2Proof.Machine
end

section
/-! PROOF. The fields of a commit, and the enables it changes (O16). -/

namespace Sys2Proof.Machine

namespace Part

section

variable {p : Part} {k : Port} {next : Setup}

theorem port_applyCommit (next : Setup) (p : Part) (i : Port) : (applyCommit next p).port i = (enacted next p).port i := by
  rw [port, (applyCommit_printers next p).1]
  rfl

theorem queue_applyCommit (next : Setup) (p : Part) (i : Port) : (applyCommit next p).queue i = (enacted next p).queue i := by
  rw [queue, (applyCommit_printers next p).2.1]
  rfl

theorem job_applyCommit (next : Setup) (p : Part) (j : JobNo) : (applyCommit next p).job j = (enacted next p).job j := by
  rw [job, (applyCommit_printers next p).2.2.1]
  rfl

/-- A printer that a commit enables, with nothing else changed. -/
theorem enacted_enables (hbranches : next.branchEnable = p.setup.branchEnable)
    (hothers : ∀ i : Port, i ≠ k → (p.printerSetup i).enable = (next.printer.get i).enable)
    (hwas : (p.printerSetup k).enable = false) (hnow : (next.printer.get k).enable = true) :
    enacted next p = redecide k (inForce next p) := by
  rw [enacted_printer hbranches hothers]
  exact applyPrinter_enables (p := inForce next p) hwas hnow

/-- A printer that a commit disables, with nothing else changed: the walk that fills no job has nothing to check. -/
theorem enacted_disables (hbranches : next.branchEnable = p.setup.branchEnable)
    (hothers : ∀ i : Port, i ≠ k → (p.printerSetup i).enable = (next.printer.get i).enable)
    (hwas : (p.printerSetup k).enable = true) (hnow : (next.printer.get k).enable = false)
    (hsubmit : (emptied k (inForce next p)).submit.job = none) :
    enacted next p = disablePort k (inForce next p) := by
  have hidle : (disablePort k (inForce next p)).submit.job = none := by rw [(disablePort_shuts k _).2.2.2, hsubmit]
  rw [enacted_printer hbranches hothers, applyPrinter_disables (p := inForce next p) hwas hnow]
  generalize disablePort k (inForce next p) = q at *
  simp only [checkSubmitJob, hidle]

/-- A printer newly enabled takes the state its conditions give (R109). -/
theorem applyCommit_enabledPrinter (hbranches : next.branchEnable = p.setup.branchEnable)
    (hothers : ∀ i : Port, i ≠ k → (p.printerSetup i).enable = (next.printer.get i).enable)
    (hwas : (p.printerSetup k).enable = false) (hnow : (next.printer.get k).enable = true)
    (hstate : (p.port k).state = .disabled) (hjob : (p.port k).job = none) (hload : (p.port k).loadPending = false)
    (hstalled : (p.port k).stalled = false) (hqueue : p.queue k = []) :
    ((p.port k).conditions = (false, false, false) → ((applyCommit next p).port k).state = .idle)
      ∧ ((p.port k).fault = true ∨ (p.port k).paperOut = true ∨ (p.port k).deselected = true →
        ((applyCommit next p).port k).state =
            (if (p.port k).fault then .fault else if (p.port k).paperOut then .paperOut else .offline)
          ∧ (applyCommit next p).notices.latches.getLsbD 7 = true
          ∧ ((applyCommit next p).port k).redirect =
            (if (next.printer.get k).redirectS = 0 then none else some (next.printer.get k).redirectS)) := by
  obtain ⟨x, hlatches⟩ := (applyCommit_printers next p).2.2.2
  rw [port_applyCommit, hlatches, enacted_enables hbranches hothers hwas hnow]
  refine ⟨fun hcalm => redecide_ready (p := inForce next p) hnow hstate hjob hstalled hqueue hcalm, fun h => ?_⟩
  obtain ⟨hnew, hnotice, hredirect⟩ := redecide_unready (p := inForce next p) hnow hstate hjob hload h
  exact ⟨hnew, by rw [BitVec.getLsbD_or, hnotice, Bool.true_or], hredirect⟩

/-- A printer disabled without an alternate loses its jobs, and its lines come to rest (R109). -/
theorem applyCommit_disabledPrinter (hbranches : next.branchEnable = p.setup.branchEnable)
    (hothers : ∀ i : Port, i ≠ k → (p.printerSetup i).enable = (next.printer.get i).enable)
    (hwas : (p.printerSetup k).enable = true) (hnow : (next.printer.get k).enable = false)
    (halt : 3 ≤ (next.printer.get k).alternate) (hsubmit : p.submit.job = none)
    (hqueue : ∀ i ∈ p.queue k, (p.job i).state = .waiting ∧ (p.job i).printer = k)
    (hjob : ∀ j, (p.port k).job = some j → (p.job j).state = .printing ∨ (p.job j).state = .held) :
    (∃ (x : PrinterPort) (l : Option (List Byte)), (applyCommit next p).port k = { x.shut with loading := l }
        ∧ ((p.port k).handshake.isSome = true → (p.port k).job.isSome = true → x.abandoned = true))
      ∧ (applyCommit next p).queue k = []
      ∧ ∀ j, (p.port k).job = some j ∨ j ∈ p.queue k ∨ ((p.job j).state = .assembling ∧ (p.job j).printer = k) →
        ((applyCommit next p).job j).gone := by
  obtain ⟨habandoned, hempty, hsubmit', hgone⟩ := emptied_gone (p := inForce next p) hsubmit hjob hqueue halt
  obtain ⟨⟨l, hport⟩, hqueues, hjobs, _⟩ := disablePort_shuts k (inForce next p)
  rw [port_applyCommit, queue_applyCommit, enacted_disables hbranches hothers hwas hnow hsubmit']
  refine ⟨⟨_, l, hport, habandoned⟩, by rw [queue, hqueues]; exact hempty, fun j hj => ?_⟩
  rw [job_applyCommit, enacted_disables hbranches hothers hwas hnow hsubmit', job, hjobs]
  exact hgone j hj

/-- An alternate with room takes the waiting jobs of a printer disabled (R109). -/
theorem applyCommit_movesJobs {a : Port} (hbranches : next.branchEnable = p.setup.branchEnable)
    (hothers : ∀ i : Port, i ≠ k → (p.printerSetup i).enable = (next.printer.get i).enable)
    (hwas : (p.printerSetup k).enable = true) (hnow : (next.printer.get k).enable = false)
    (hsubmit : p.submit.job = none) (hnodup : (p.queue k).Nodup)
    (hqueue : ∀ i ∈ p.queue k, (p.job i).state = .waiting ∧ (p.job i).printer = k)
    (hjob : ∀ j, (p.port k).job = some j → (p.job j).state = .printing ∨ (p.job j).state = .held)
    (halt : (next.printer.get k).alternate = a.val) (hne : a ≠ k) (hon : (next.printer.get a).enable = true)
    (hstate : (p.port a).state ≠ .idle) (hroom : (p.queue a).length + (p.queue k).length ≤ 16) :
    (applyCommit next p).queue k = [] ∧ (applyCommit next p).queue a = p.queue a ++ p.queue k
      ∧ ∀ i ∈ p.queue k, (applyCommit next p).job i = { p.job i with printer := a, moved := true } := by
  obtain ⟨hempty, hmoved, hsubmit', hjobs'⟩ :=
    emptied_moves (p := inForce next p) hsubmit hjob hqueue hnodup halt hne hon hstate hroom
  obtain ⟨_, hqueues, hjobs, _⟩ := disablePort_shuts k (inForce next p)
  rw [queue_applyCommit, queue_applyCommit, enacted_disables hbranches hothers hwas hnow hsubmit', queue, queue, hqueues]
  refine ⟨hempty, hmoved, fun i hi => ?_⟩
  rw [job_applyCommit, enacted_disables hbranches hothers hwas hnow hsubmit', job, hjobs]
  exact hjobs' i hi

end

end Part

/-- Settles O16: the fields as they are read, and the application's act on each enable that it changes. -/
theorem commitClampsEveryField : Obligations.CommitClampsEveryField := by
  refine ⟨⟨readBranchSetup_fields, readPrinterSetup_fields⟩, ⟨readBranchSetup_triple, readBranchSetup_rows⟩,
    fun s l hheld htask hlen => ?read, fun s next pos hheld htask hpos hwait => ?applied⟩
  case read =>
    have hread := (Part.commitRead_reading htask).trans (if_pos hlen)
    obtain ⟨hbranches, hprinters⟩ := readSetup_groups s.part.setup.derivedPrefix s.part.assignedAddrs l
    exact ⟨_, _, onPart_awake_eq hheld hread, rfl, hbranches, hprinters⟩
  case applied =>
    have hnext := exec_commitApplication s
    rw [onBoth, Part.commitApplication_ends hheld htask hpos, Part.releaseHost_none hwait] at hnext
    refine ⟨_, hnext, fun b hwas hnow => ?branch, fun k hbranches hothers => ⟨fun hwas hnow hstate hjob hload hstalled hqueue => ?on,
      fun hwas hnow halt hsubmit hqueue hjob => ?off, fun hwas hnow hsubmit hnodup hqueue hjob a halt hne hon hstate hroom => ?move⟩⟩
    case branch =>
      have hdisables := Part.applyCommit_disables (p := s.part) hwas hnow
      have hserved := Part.probed_iff (p := s.part) (b := b)
      generalize Part.applyCommit next s.part = t at *
      refine ⟨fun hstate hdest hpending => ?_, fun hstate hdest hrun hphase => ?_, fun hstate hdest => ?_⟩
      · obtain ⟨hswitch, hsup, hpresent⟩ := hdisables.atOnce (hstate.imp_right fun h => h.imp_right fun h =>
          ⟨h.1, Bool.eq_false_iff.mpr fun hs => h.2 (hserved.mp hs)⟩) hdest hpending
        exact ⟨congrArg Switch.state hswitch, congrArg Switch.dest hswitch, congrArg Switch.restore hswitch,
          congrArg Switch.isolations hswitch, congrArg Switch.verdict hswitch, congrArg Supervisor.score hsup,
          congrArg Supervisor.warn hsup, congrArg (fun x => x.capture.valid) hsup, hpresent⟩
      · obtain ⟨hswitch, hengine⟩ := hdisables.drains hstate hdest hrun hphase
        exact ⟨congrArg Switch.state hswitch, congrArg Switch.dest hswitch, congrArg Switch.verdict hswitch,
          congrArg Switch.trial hswitch, hengine⟩
      · exact hdisables.redirects (hstate.imp_right fun h => h.imp_right fun h => h.imp_right fun h => ⟨h.1, hserved.mpr h.2⟩) hdest
    case on =>
      obtain ⟨hready, hunready⟩ :=
        Part.applyCommit_enabledPrinter hbranches hothers hwas hnow hstate hjob hload hstalled hqueue
      generalize Part.applyCommit next s.part = t at *
      exact ⟨fun hfault hpaper hdeselected => hready (by simp only [PrinterPort.conditions, hfault, hpaper, hdeselected]), hunready⟩
    case off =>
      obtain ⟨⟨x, l, hport, habandoned⟩, hempty, hgone⟩ :=
        Part.applyCommit_disabledPrinter hbranches hothers hwas hnow halt hsubmit hqueue hjob
      generalize Part.applyCommit next s.part = t at *
      rw [hport]
      exact ⟨rfl, rfl, rfl, rfl, rfl, rfl, rfl, rfl, habandoned, hempty, hgone⟩
    case move =>
      have hmoves := Part.applyCommit_movesJobs hbranches hothers hwas hnow hsubmit hnodup hqueue hjob halt hne hon hstate hroom
      generalize Part.applyCommit next s.part = t at *
      exact hmoves

end Sys2Proof.Machine
end

section
/-! PROOF. The verdicts of the router on a frame: whom it refuses, repeats and relays to, and what the print frames do to
the jobs of their station (O38). -/

namespace Sys2Proof.Machine

/-- What a station's record keeps of the frames received from it (R61). -/
def Station.received (x : Station) : Bool × Bool × Nat := (x.rxValid, x.rxLast, x.framesIn)

/-- The record once a frame of it has been accepted (R61). -/
def Station.accepting (seq : Bool) (x : Station) : Station :=
  { x with rxLast := seq, rxValid := true, framesIn := satInc 65535 x.framesIn }

namespace Part

section

variable {p : Part} {o : Offer} {mark : Byte}

/-! ## The checks before the destination (R58, R60) -/

/-- The sender is PRESENT and its frame is not a repeat. -/
def Fresh (o : Offer) (p : Part) : Prop := (p.station o.branch o.station).state = .present
  ∧ ¬ ((p.station o.branch o.station).rxValid = true ∧ (p.station o.branch o.station).rxLast = o.seq)

/-- The unit of the frame is not usable from its branch (R60). -/
def Unusable (o : Offer) (p : Part) : Prop := (p.units.get o.unit.toFin).kind = .unassigned
  ∨ (p.units.get o.unit.toFin).mask.getLsbD o.branch.val = false
  ∨ ∃ i, (p.units.get o.unit.toFin).kind = .node i ∧ (p.nodes.get i).valid = false

theorem Fresh.repeats (h : Fresh o p) :
    ((p.station o.branch o.station).rxValid && (p.station o.branch o.station).rxLast == o.seq) = false := by
  have hnew := h.2
  exact Bool.eq_false_iff.mpr fun he => hnew (by simpa using he)

theorem routable_iff : p.routable o.branch (p.units.get o.unit.toFin) = true ↔ ¬ Unusable o p := by
  unfold routable Unusable
  cases hmask : (p.units.get o.unit.toFin).mask.getLsbD o.branch.val <;>
    cases hkind : (p.units.get o.unit.toFin).kind <;> simp

theorem routable_unusable (h : Unusable o p) : p.routable o.branch (p.units.get o.unit.toFin) = false :=
  Bool.eq_false_iff.mpr fun hr => routable_iff.mp hr h

theorem route_absent (h : (p.station o.branch o.station).state ≠ .present) : route mark o p = (.reject, p) := if_pos h

theorem route_repeat (hstate : (p.station o.branch o.station).state = .present)
    (hvalid : (p.station o.branch o.station).rxValid = true) (hlast : (p.station o.branch o.station).rxLast = o.seq) :
    route mark o p = (.duplicate o.seq, p) := by
  simp only [route, hstate, hvalid, hlast, ne_eq, not_true_eq_false, if_false, beq_self_eq_true, Bool.and_self, if_true]

theorem route_unusable (h : Fresh o p) (hunit : Unusable o p) : route mark o p = (.reject, countUnroutable o.branch p) := by
  simp only [route, h.1, h.repeats, routable_unusable hunit, ne_eq, not_true_eq_false, if_false, Bool.false_eq_true,
    Bool.not_false, if_true]

/-- A frame that passes the checks goes to the destination of its unit. -/
theorem route_station {b2 : Branch} {s2 : StationNo} (h : Fresh o p) (hunit : ¬ Unusable o p)
    (hkind : (p.units.get o.unit.toFin).kind = .station b2 s2) : route mark o p = relay o b2 s2 p := by
  simp only [route, h.1, h.repeats, routable_iff.mpr hunit, hkind, ne_eq, not_true_eq_false, if_false, Bool.false_eq_true,
    Bool.not_true]

theorem route_printer {k : Port} (h : Fresh o p) (hunit : ¬ Unusable o p)
    (hkind : (p.units.get o.unit.toFin).kind = .printer k) : route mark o p = printFrame o k p := by
  simp only [route, h.1, h.repeats, routable_iff.mpr hunit, hkind, ne_eq, not_true_eq_false, if_false, Bool.false_eq_true,
    Bool.not_true]

theorem route_localUnit (h : Fresh o p) (hunit : ¬ Unusable o p) (hkind : (p.units.get o.unit.toFin).kind = .localUnit) :
    route mark o p = deliver mark o false (Vector.replicate 6 0) p := by
  simp only [route, h.1, h.repeats, routable_iff.mpr hunit, hkind, ne_eq, not_true_eq_false, if_false, Bool.false_eq_true,
    Bool.not_true]

theorem route_node {i : Fin 64} (h : Fresh o p) (hunit : ¬ Unusable o p)
    (hkind : (p.units.get o.unit.toFin).kind = .node i) : route mark o p = deliver mark o true (p.nodes.get i).addr p := by
  simp only [route, h.1, h.repeats, routable_iff.mpr hunit, hkind, ne_eq, not_true_eq_false, if_false, Bool.false_eq_true,
    Bool.not_true]

theorem needsMark_absent (h : (p.station o.branch o.station).state ≠ .present) : p.needsMark o = false := by
  simp [needsMark, h]

theorem needsMark_repeat (hvalid : (p.station o.branch o.station).rxValid = true)
    (hlast : (p.station o.branch o.station).rxLast = o.seq) : p.needsMark o = false := by
  simp [needsMark, hvalid, hlast]

theorem needsMark_unusable (hunit : Unusable o p) : p.needsMark o = false := by
  simp [needsMark, routable_unusable hunit]

theorem needsMark_inside (h : (∃ b2 s2, (p.units.get o.unit.toFin).kind = .station b2 s2)
    ∨ ∃ k, (p.units.get o.unit.toFin).kind = .printer k) : p.needsMark o = false := by
  rcases h with ⟨b2, s2, h⟩ | ⟨k, h⟩ <;> simp [needsMark, h]

/-- Only a frame for the host waits for the mark (R62). -/
theorem needsMark_host (h : Fresh o p) (hunit : ¬ Unusable o p) (hkind : (p.units.get o.unit.toFin).kind = .localUnit
    ∨ ∃ i, (p.units.get o.unit.toFin).kind = .node i) : p.needsMark o = true := by
  have hroutable := routable_iff.mpr hunit
  rcases hkind with hkind | ⟨i, hkind⟩ <;> simp [needsMark, h.1, h.repeats, hroutable, hkind]

/-! ## A frame accepted (R61) -/

/-- From `p` to `q` the frame of an offer has been taken: its buffer is no longer reserved, and its station's record
keeps it. -/
structure Takes (o : Offer) (p q : Part) : Prop where
  reservation : (q.engine o.branch).reservation = none
  received : (q.station o.branch o.station).received = ((p.station o.branch o.station).accepting o.seq).received

theorem accept_engine (h : (p.engine o.branch).reservation = some o.buf) :
    (accept o p).engine o.branch = { p.engine o.branch with reservation := none } := by
  simp [accept, takeReservation, h]

theorem accept_engine_ne {c : Branch} (o : Offer) (p : Part) (h : c ≠ o.branch) : (accept o p).engine c = p.engine c := by
  simp [accept, takeReservation, engine_modEngine_ne _ _ _ _ h]

@[simp] theorem accept_station (o : Offer) (p : Part) : (accept o p).station o.branch o.station =
    (p.station o.branch o.station).accepting o.seq := by
  simp [accept, takeReservation]
  rfl

theorem accept_station_ne {c : Branch} {n : StationNo} (o : Offer) (p : Part) (h : (c, n) ≠ (o.branch, o.station)) :
    (accept o p).station c n = p.station c n := by
  rw [accept, station_updStation_ne _ _ _ _ _ _ h]
  simp [takeReservation]

@[simp] theorem accept_keeps (o : Offer) (p : Part) : (accept o p).pool = p.pool ∧ (accept o p).jobs = p.jobs
    ∧ (accept o p).queues = p.queues ∧ (accept o p).ports = p.ports ∧ (accept o p).setup = p.setup
    ∧ (accept o p).stamp = p.stamp ∧ (accept o p).paths = p.paths ∧ (accept o p).router = p.router
    ∧ (accept o p).ring = p.ring ∧ (accept o p).switches = p.switches := by
  simp [accept, takeReservation]

@[simp] theorem accept_views (o : Offer) (p : Part) : (∀ j, (accept o p).job j = p.job j)
    ∧ (∀ k, (accept o p).queue k = p.queue k) ∧ (∀ k, (accept o p).port k = p.port k)
    ∧ (∀ k, (accept o p).printerSetup k = p.printerSetup k) ∧ ∀ c, (accept o p).path c = p.path c := by
  simp [accept, takeReservation]

theorem accept_takes (h : (p.engine o.branch).reservation = some o.buf) : Takes o p (accept o p) :=
  ⟨by rw [accept_engine h], by rw [accept_station]⟩

/-- What leaves the engine and what the record keeps of its frames leaves a frame taken. -/
theorem Takes.keeps {q r : Part} (h : Takes o p q) (hengine : r.engine o.branch = q.engine o.branch)
    (hreceived : (r.station o.branch o.station).received = (q.station o.branch o.station).received) : Takes o p r :=
  ⟨by rw [hengine, h.reservation], by rw [hreceived, h.received]⟩

theorem Takes.before {q r : Part} (h : Takes o q r)
    (hreceived : (q.station o.branch o.station).received = (p.station o.branch o.station).received) : Takes o p r := by
  refine ⟨h.reservation, h.received.trans ?_⟩
  obtain ⟨-, -, hframes⟩ : _ ∧ _ ∧ _ := ⟨congrArg (·.1) hreceived, congrArg (·.2.1) hreceived, congrArg (·.2.2) hreceived⟩
  simp only [Station.received, Station.accepting] at hframes ⊢
  rw [hframes]

/-! ## A relay (R64) -/

/-- The relay reaches its target: not the sender, and a station that a running branch has PRESENT, or all of them. -/
def Reaches (o : Offer) (b2 : Branch) (s2 : StationNo) (p : Part) : Prop := (b2 ≠ o.branch ∨ s2 ≠ o.station)
  ∧ ((p.switch b2).state = .inService ∨ (p.switch b2).state = .onTrial)
  ∧ (s2 = 63 ∨ (p.station b2 s2).state = .present)

theorem running_iff {x : SwitchState} : x.running = true ↔ x = .inService ∨ x = .onTrial := by cases x <;> decide

section

variable {b2 : Branch} {s2 : StationNo}

theorem relay_rejects (h : ¬ Reaches o b2 s2 p) : relay o b2 s2 p = (.reject, p) := by
  unfold relay
  split
  · rfl
  · next hother =>
    split
    · rfl
    · next hrun =>
      refine if_pos (not_or.mp fun hs => h ⟨?_, running_iff.mp (by simpa using hrun), hs⟩)
      exact Decidable.not_and_iff_not_or_not.mp hother

theorem relay_reaches (h : Reaches o b2 s2 p) : relay o b2 s2 p = if !p.txRoom b2 then (.hold, p)
    else (.taken o.seq, appendEntry b2 { target := s2, buf := o.buf, origin := .relay o.branch o.station
                                         hold := 0, first := o.first, last := o.last } (accept o p)) := by
  obtain ⟨hother, hrun, htarget⟩ := h
  have hself : ¬ (b2 = o.branch ∧ s2 = o.station) := fun ⟨hb, hs⟩ => hother.elim (· hb) (· hs)
  have hon := running_iff.mpr hrun
  have hthere : ¬ (s2 ≠ 63 ∧ (p.station b2 s2).state ≠ .present) := fun ⟨hs, hp⟩ => htarget.elim hs hp
  simp only [relay, hself, hon, hthere, if_false, Bool.not_true, Bool.false_eq_true]

theorem relay_holds (h : Reaches o b2 s2 p) (hfull : 32 ≤ (p.engine b2).queue.length) : relay o b2 s2 p = (.hold, p) := by
  have hroom : p.txRoom b2 = false := decide_eq_false (Nat.not_lt.mpr hfull)
  rw [relay_reaches h, hroom]
  rfl

/-- The entry that a relay appends. -/
def relayEntry (o : Offer) (s2 : StationNo) : TxEntry :=
  { target := s2, buf := o.buf, origin := .relay o.branch o.station, hold := 0, first := o.first, last := o.last }

theorem relay_takes (h : Reaches o b2 s2 p) (hroom : (p.engine b2).queue.length < 32) :
    relay o b2 s2 p = (.taken o.seq, appendEntry b2 (relayEntry o s2) (accept o p)) := by
  have hroom : p.txRoom b2 = true := decide_eq_true hroom
  rw [relay_reaches h, hroom]
  rfl

theorem appendEntry_queue (b : Branch) (e : TxEntry) (p : Part) :
    ((appendEntry b e p).engine b).queue = (p.engine b).queue ++ [e] := by
  unfold appendEntry
  extract_lets q
  split <;> simp [q]

theorem appendEntry_reservation (b c : Branch) (e : TxEntry) (p : Part) :
    ((appendEntry b e p).engine c).reservation = (p.engine c).reservation := by
  have hq : ((modEngine b (fun g => { g with queue := g.queue ++ [e] }) p).engine c).reservation =
      (p.engine c).reservation := by
    by_cases h : c = b
    · rw [h, engine_modEngine_self]
    · rw [engine_modEngine_ne _ _ _ _ h]
  unfold appendEntry
  extract_lets q
  split
  · exact hq
  · simpa using hq

/-- A relay taken is in the queue of its branch, and its frame is accepted. -/
theorem relay_taken (h : Reaches o b2 s2 p) (hreserved : (p.engine o.branch).reservation = some o.buf) :
    let q := appendEntry b2 (relayEntry o s2) (accept o p)
    Takes o p q ∧ q.pool = p.pool ∧ (q.engine b2).queue = (p.engine b2).queue ++ [relayEntry o s2] := by
  intro q
  have hne : (o.branch, o.station) ≠ (b2, s2) := fun e => by
    obtain ⟨rfl, rfl⟩ := Prod.mk.inj e
    exact h.1.elim (· rfl) (· rfl)
  have htakes := accept_takes hreserved
  refine ⟨⟨?_, ?_⟩, by simp [q], ?_⟩
  · rw [appendEntry_reservation]
    exact htakes.reservation
  · rw [← htakes.received]
    unfold q appendEntry
    extract_lets r
    split
    · rfl
    · exact congrArg Station.received (station_updStation_ne b2 o.branch s2 o.station _ r hne)
  · have hqueue : ((accept o p).engine b2).queue = (p.engine b2).queue := by
      by_cases hb : b2 = o.branch
      · rw [hb, accept_engine hreserved]
      · rw [accept_engine_ne o p hb]
    rw [appendEntry_queue, hqueue]

end

end

end Part

end Sys2Proof.Machine
end

section
/-! PROOF. The print frames of the router: the jobs they continue, open and close (O38). -/

namespace Sys2Proof.Machine

/-- The entry that a print frame adds to a chain (R81). -/
def frameEntry (o : Offer) : ChainEntry := { buf := o.buf, fill := o.len, shifted := o.len == 0 }

namespace Part

section

variable {p : Part} {o : Offer} {j : JobNo} {k : Port}

/-! ## What the records of stations keep of their frames through the acts of the job manager -/

theorem updStation_received {b : Branch} {n : StationNo} {f : Station → Station} (hf : ∀ x, (f x).received = x.received)
    (c : Branch) (m : StationNo) (p : Part) : ((updStation b n f p).station c m).received = (p.station c m).received := by
  by_cases h : (c, m) = (b, n)
  · obtain ⟨rfl, rfl⟩ := Prod.mk.inj h
    rw [station_updStation_self, hf]
  · rw [station_updStation_ne _ _ _ _ _ _ h]

theorem reportLeft_received (x : JobOrigin) (c : Branch) (m : StationNo) (p : Part) :
    ((reportLeft x p).station c m).received = (p.station c m).received := by
  unfold reportLeft
  split
  · exact updStation_received (by exact fun _ => rfl) c m p
  · rfl

theorem reportOpened_received (x : JobOrigin) (c : Branch) (m : StationNo) (p : Part) :
    ((reportOpened x p).station c m).received = (p.station c m).received := by
  unfold reportOpened
  split
  · exact updStation_received (by exact fun _ => rfl) c m p
  · rfl

theorem abortJob_received (i : JobNo) (r : JobResult) (c : Branch) (m : StationNo) (p : Part) :
    ((abortJob i r p).station c m).received = (p.station c m).received := by
  cases hlive : (p.job i).state.live
  · rw [abortJob_over r hlive]
  · rw [abortJob_live r hlive, reportLeft_received]
    split <;> simp

/-! ## A frame joins a chain (R81) -/

theorem addFrame_eq (o : Offer) (j : JobNo) (p : Part) : addFrame o j p = if o.len = 0 then
    addToChain j (frameEntry o) (accept o p)
    else modPath o.branch (fun l => l ++ [.shift o.buf o.len 0 none]) (addToChain j (frameEntry o) (accept o p)) := rfl

@[simp] theorem addFrame_job_self (o : Offer) (j : JobNo) (p : Part) : (addFrame o j p).job j =
    { p.job j with chain := (p.job j).chain ++ [frameEntry o], queuedBytes := (p.job j).queuedBytes + o.len } := by
  rw [addFrame_eq]
  split <;> simp [addToChain, frameEntry]

theorem addFrame_job_ne {i : JobNo} (o : Offer) (p : Part) (h : i ≠ j) : (addFrame o j p).job i = p.job i := by
  rw [addFrame_eq]
  split <;> simp [addToChain, job_updJob_ne _ _ _ _ _ h]

@[simp] theorem addFrame_keeps (o : Offer) (j : JobNo) (p : Part) : (addFrame o j p).pool = p.pool
    ∧ (addFrame o j p).queues = p.queues ∧ (addFrame o j p).ports = p.ports ∧ (addFrame o j p).setup = p.setup
    ∧ (addFrame o j p).stamp = p.stamp := by
  rw [addFrame_eq]
  split <;> simp

theorem addFrame_path (o : Offer) (j : JobNo) (p : Part) : (addFrame o j p).path o.branch =
    p.path o.branch ++ if o.len = 0 then [] else [.shift o.buf o.len 0 none] := by
  rw [addFrame_eq]
  split <;> simp

theorem addFrame_takes (h : (p.engine o.branch).reservation = some o.buf) : Takes o p (addFrame o j p) := by
  refine (accept_takes h).keeps ?_ ?_ <;> rw [addFrame_eq] <;> split <;> simp

/-- The choice of a target depends on the ports and the setup alone. -/
theorem closeTarget_same {q : Part} (hports : q.ports = p.ports) (hsetup : q.setup = p.setup) (k : Port) :
    q.closeTarget k = p.closeTarget k := by
  simp only [closeTarget, alternateOf, port, printerSetup, hports, hsetup]
  rfl

/-! ## The close of a job that a frame has completed (R85) -/

/-- A job closed as it waits in the queue of its target. -/
def closedJob (k : Port) (p : Part) (x : Job) : Job :=
  { x with printer := p.closeTarget k, stamp := p.stamp, state := .waiting }

theorem jobClosed_keeps (j : JobNo) (p : Part) : (jobClosed j p).stations = p.stations ∧ (jobClosed j p).engines = p.engines
    ∧ (jobClosed j p).stamp = wrapInc p.stamp
    ∧ (jobClosed j p).job j = closedJob (p.job j).printer p (p.job j)
    ∧ (jobClosed j p).queue (p.closeTarget (p.job j).printer) = p.queue (p.closeTarget (p.job j).printer) ++ [j] :=
  ⟨rfl, rfl, rfl, by simp [jobClosed, job, closedJob, asksWrite], by simp [jobClosed, queue, asksWrite]⟩

/-- Closed into the queue of a port that is not IDLE, a job waits there. -/
theorem closeJob_waits (hprinter : (p.job j).printer = k) (h : (p.port (p.closeTarget k)).state ≠ .idle) :
    let t := closeJob j p
    t.stations = p.stations ∧ t.engines = p.engines ∧ t.stamp = wrapInc p.stamp ∧ t.job j = closedJob k p (p.job j)
      ∧ t.queue (p.closeTarget k) = p.queue (p.closeTarget k) ++ [j] := by
  subst hprinter
  intro t
  rw [show t = jobClosed j p from closeJob_notIdle h]
  exact jobClosed_keeps j p

theorem runningPort_apart (k : Port) (new : PortState) (p : Part) :
    (runningPort k new p).stations = p.stations ∧ (runningPort k new p).engines = p.engines := by
  unfold runningPort
  cases (p.port k).redirected <;> simp

/-- Closed into the empty queue of a port that is IDLE, a job is granted at once. -/
theorem closeJob_prints (hprinter : (p.job j).printer = k) (hqueue : p.queue (p.closeTarget k) = [])
    (hstate : (p.port (p.closeTarget k)).state = .idle) (hload : (p.port (p.closeTarget k)).loading = none)
    (hpending : (p.port (p.closeTarget k)).loadPending = false)
    (hdecide : ({ p.port (p.closeTarget k) with job := some j } : PrinterPort).decide
      (p.printerSetup (p.closeTarget k)).enable = .busy)
    (hbytes : (p.job j).queuedBytes ≠ 0) (hchain : ∀ e ∈ (p.job j).chain, e.fill ≠ 0) :
    let t := closeJob j p
    t.stations = p.stations ∧ t.engines = p.engines
      ∧ t.job j = { closedJob k p (p.job j) with state := .printing, hold := none }
      ∧ (t.port (p.closeTarget k)).state = .busy ∧ (t.port (p.closeTarget k)).job = some j
      ∧ (t.port (p.closeTarget k)).stall = some (p.printerSetup (p.closeTarget k)).stallS
      ∧ t.queue (p.closeTarget k) = [] := by
  subst hprinter
  intro t
  have hclosed := jobClosed_keeps j p
  have hserved : t = servePort (p.closeTarget (p.job j).printer) (jobClosed j p) := rfl
  have hports : ∀ i, (jobClosed j p).port i = p.port i := fun _ => rfl
  have hset : ∀ i, (jobClosed j p).printerSetup i = p.printerSetup i := fun _ => rfl
  rw [hserved]
  generalize p.closeTarget (p.job j).printer = a at *
  generalize jobClosed j p = q at *
  obtain ⟨hstations, hengines, -, hself, hq⟩ := hclosed
  rw [hqueue, List.nil_append] at hq
  obtain ⟨i, hgrant⟩ := grantOnce_single (by rw [hports]; exact hstate) (by rw [hports]; exact hload)
    (by rw [hports]; exact hpending) hq
  rw [servePort_grants hgrant (by simp [hports, hstate]) ?decide (by simpa [hself, closedJob] using hbytes)
    (by simpa [hself, closedJob] using hchain) (by simp [hports, hpending])]
  case decide =>
    rw [port_modPort_self, hports, show (modPort a (fun t => { t with pointer := i }) q).printerSetup a = _ from hset a]
    exact hdecide
  refine ⟨?_, ?_, ?_, ?_, ?_, ?_, ?_⟩ <;> simp [runningPort_apart, hstations, hengines, hself, hset, hq]

end

end Part

end Sys2Proof.Machine
end

section
/-! PROOF. The verdicts on a print frame without FIRST and with it (O38). -/

namespace Sys2Proof.Machine

namespace Part

section

variable {p : Part} {o : Offer} {j : JobNo} {k : Port}

/-- A frame that completes its job needs room in the queue of the target (R84). -/
def Closes (o : Offer) (k : Port) (p : Part) : Prop := o.last = false ∨ (p.queue (p.closeTarget k)).length < 16

theorem closes_iff : (!o.last || p.hasRoom (p.closeTarget k)) = true ↔ Closes o k p := by
  have hroom : p.hasRoom (p.closeTarget k) = true ↔ (p.queue (p.closeTarget k)).length < 16 := decide_eq_true_iff
  rw [Bool.or_eq_true, Bool.not_eq_true', hroom, Closes]

/-- The part once a frame has joined its job, and has closed it where it is the last. -/
def framed (o : Offer) (j : JobNo) (p : Part) : Part := if o.last then closeJob j (addFrame o j p) else addFrame o j p

/-! ## Without FIRST (R83) -/

theorem printNext_none (h : p.assemblingOf o.branch o.station = none) : printNext o k p = (.reject, p) := by
  simp only [printNext, h]

theorem printNext_other (h : p.assemblingOf o.branch o.station = some j) (hprinter : (p.job j).printer ≠ k) :
    printNext o k p = (.reject, p) := by
  simp only [printNext, h, hprinter, ne_eq, not_false_eq_true, if_true]

theorem printNext_full (h : p.assemblingOf o.branch o.station = some j) (hprinter : (p.job j).printer = k)
    (hfull : p.setup.jobBufferLimit ≤ (p.job j).chain.length) :
    printNext o k p = (.reject, abortJob j .tooLarge p) := by
  simp only [printNext, h, hprinter, ne_eq, not_true_eq_false, if_false, (chainFull_eq_true p j).mpr hfull, if_true]

theorem printNext_holds (h : p.assemblingOf o.branch o.station = some j) (hprinter : (p.job j).printer = k)
    (hroom : (p.job j).chain.length < p.setup.jobBufferLimit)
    (hwaits : p.pool.free.length < p.setup.reserve ∨ ¬ Closes o k p) : printNext o k p = (.hold, p) := by
  have hclear := (chainFull_eq_false p j).mpr hroom
  simp only [printNext, h, hprinter, ne_eq, not_true_eq_false, if_false, hclear, Bool.false_eq_true]
  by_cases hfree : p.freeCount < p.setup.reserve
  · exact if_pos hfree
  · have hshut : (o.last && !p.hasRoom (p.closeTarget k)) = true := by
      have hnot := mt closes_iff.mp (hwaits.resolve_left hfree)
      cases hlast : o.last <;> cases hhas : p.hasRoom (p.closeTarget k) <;> simp [hlast, hhas] at hnot ⊢
    rw [if_neg hfree, if_pos hshut]

theorem printNext_takes (h : p.assemblingOf o.branch o.station = some j) (hprinter : (p.job j).printer = k)
    (hroom : (p.job j).chain.length < p.setup.jobBufferLimit) (hfree : p.setup.reserve ≤ p.pool.free.length)
    (hcloses : Closes o k p) : printNext o k p = (.taken o.seq, framed o j p) := by
  have hclear := (chainFull_eq_false p j).mpr hroom
  have hopen : (o.last && !p.hasRoom (p.closeTarget k)) = false := by
    have hok := closes_iff.mpr hcloses
    cases hlast : o.last <;> cases hhas : p.hasRoom (p.closeTarget k) <;> simp [hlast, hhas] at hok ⊢
  simp only [printNext, h, hprinter, ne_eq, not_true_eq_false, if_false, hclear, Bool.false_eq_true,
    show ¬ p.freeCount < p.setup.reserve from Nat.not_lt.mpr hfree, hopen, framed]

/-! ## With FIRST (R82) -/

/-- What a job of a station's first frame needs: a FREE record, a count below the limit once the old job is gone, buffers
above the reserve, and room to close. -/
def Opens (o : Offer) (k : Port) (p : Part) : Prop := p.freeRecord.isSome = true
  ∧ (p.station o.branch o.station).openJobs - (if (p.assemblingOf o.branch o.station).isSome then 1 else 0)
    < p.setup.stationJobLimit
  ∧ p.setup.reserve ≤ p.pool.free.length ∧ Closes o k p

/-- The station's old job is aborted. -/
def retired (o : Offer) (p : Part) : Part :=
  match p.assemblingOf o.branch o.station with
  | some i => abortJob i .incomplete p
  | none => p

theorem printFirst_holds (h : ¬ Opens o k p) : printFirst o k p = (.hold, p) := by
  unfold printFirst
  extract_lets old count
  cases hfree : p.freeRecord with
  | none => rfl
  | some j =>
    exact if_neg fun ⟨hcount, hreserve, hcloses⟩ => h ⟨by rw [hfree]; rfl, hcount, hreserve, closes_iff.mp hcloses⟩

theorem printFirst_takes (hfree : p.freeRecord = some j) (h : Opens o k p) : printFirst o k p =
    (.taken o.seq, framed o j (openJob j k (.trunk o.branch o.station) (retired o p))) := by
  obtain ⟨-, hcount, hreserve, hcloses⟩ := h
  simp only [printFirst, hfree]
  rw [if_pos ⟨hcount, hreserve, closes_iff.mpr hcloses⟩]
  cases hold : p.assemblingOf o.branch o.station <;> simp only [retired, hold, framed]

theorem printFrame_off (h : (p.printerSetup k).enable = false) : printFrame o k p = (.reject, p) := by
  simp only [printFrame, h, Bool.not_false, if_true]

theorem printFrame_next (h : (p.printerSetup k).enable = true) (hfirst : o.first = false) :
    printFrame o k p = printNext o k p := by
  simp only [printFrame, h, hfirst, Bool.not_true, Bool.false_eq_true, if_false]

theorem printFrame_first (h : (p.printerSetup k).enable = true) (hfirst : o.first = true) :
    printFrame o k p = printFirst o k p := by
  simp only [printFrame, h, hfirst, Bool.not_true, Bool.false_eq_true, if_false, if_true]

/-! ## What the frame taken leaves -/

theorem framed_more (h : o.last = false) : framed o j p = addFrame o j p := if_neg (by simp [h])

theorem framed_last (h : o.last = true) : framed o j p = closeJob j (addFrame o j p) := if_pos h

theorem addFrame_port (i : Port) : (addFrame o j p).port i = p.port i := by simp [port]

theorem addFrame_printerSetup (i : Port) : (addFrame o j p).printerSetup i = p.printerSetup i := by simp [printerSetup]

theorem addFrame_queue (i : Port) : (addFrame o j p).queue i = p.queue i := by simp [queue]

theorem addFrame_closeTarget (i : Port) : (addFrame o j p).closeTarget i = p.closeTarget i :=
  closeTarget_same (by simp) (by simp) i

/-- A frame that closes its job into the queue of a port that is not IDLE. -/
theorem framed_waits (hlast : o.last = true) (hprinter : (p.job j).printer = k)
    (hstate : (p.port (p.closeTarget k)).state ≠ .idle) (hreserved : (p.engine o.branch).reservation = some o.buf) :
    let t := framed o j p
    Takes o p t ∧ t.stamp = wrapInc p.stamp
      ∧ t.job j = { p.job j with chain := (p.job j).chain ++ [frameEntry o], queuedBytes := (p.job j).queuedBytes + o.len
                                 printer := p.closeTarget k, stamp := p.stamp, state := .waiting }
      ∧ t.queue (p.closeTarget k) = p.queue (p.closeTarget k) ++ [j] := by
  have hclosed := closeJob_waits (p := addFrame o j p) (j := j) (k := k) (by simpa using hprinter)
    (by rw [addFrame_closeTarget, addFrame_port]; exact hstate)
  simp only [addFrame_closeTarget, addFrame_queue, closedJob, addFrame_job_self, addFrame_keeps] at hclosed
  have htakes := addFrame_takes (p := p) (j := j) hreserved
  rw [framed_last hlast]
  generalize closeJob j (addFrame o j p) = t at *
  obtain ⟨hstations, hengines, hstamp, hself, hq⟩ := hclosed
  exact ⟨htakes.keeps (by rw [engine, hengines]; rfl) (by rw [station, hstations]; rfl), hstamp, hself, hq⟩

/-- A frame that closes its job into the empty queue of an IDLE port. -/
theorem framed_prints (hlast : o.last = true) (hprinter : (p.job j).printer = k) (hqueue : p.queue (p.closeTarget k) = [])
    (hstate : (p.port (p.closeTarget k)).state = .idle) (hload : (p.port (p.closeTarget k)).loading = none)
    (hpending : (p.port (p.closeTarget k)).loadPending = false)
    (hdecide : ({ p.port (p.closeTarget k) with job := some j } : PrinterPort).decide
      (p.printerSetup (p.closeTarget k)).enable = .busy)
    (hbytes : (p.job j).queuedBytes + o.len ≠ 0) (hchain : ∀ e ∈ (p.job j).chain ++ [frameEntry o], e.fill ≠ 0)
    (hreserved : (p.engine o.branch).reservation = some o.buf) :
    let t := framed o j p
    Takes o p t ∧ (t.job j).state = .printing ∧ (t.job j).stamp = p.stamp
      ∧ (t.job j).chain = (p.job j).chain ++ [frameEntry o]
      ∧ (t.port (p.closeTarget k)).state = .busy ∧ (t.port (p.closeTarget k)).job = some j
      ∧ (t.port (p.closeTarget k)).stall = some (p.printerSetup (p.closeTarget k)).stallS
      ∧ t.queue (p.closeTarget k) = [] := by
  have hclosed := closeJob_prints (p := addFrame o j p) (j := j) (k := k) (by simpa using hprinter)
    (by rw [addFrame_closeTarget, addFrame_queue]; exact hqueue) (by rw [addFrame_closeTarget, addFrame_port]; exact hstate)
    (by rw [addFrame_closeTarget, addFrame_port]; exact hload) (by rw [addFrame_closeTarget, addFrame_port]; exact hpending)
    (by rw [addFrame_closeTarget, addFrame_port, addFrame_printerSetup]; exact hdecide) (by rw [addFrame_job_self]; exact hbytes)
    (by rw [addFrame_job_self]; exact hchain)
  simp only [addFrame_closeTarget, addFrame_printerSetup, closedJob, addFrame_job_self, addFrame_keeps] at hclosed
  have htakes := addFrame_takes (p := p) (j := j) hreserved
  rw [framed_last hlast]
  generalize closeJob j (addFrame o j p) = t at *
  obtain ⟨hstations, hengines, hself, hrest⟩ := hclosed
  refine ⟨htakes.keeps (by rw [engine, hengines]; rfl) (by rw [station, hstations]; rfl), ?_, ?_, ?_, hrest⟩ <;> rw [hself]

/-! ## The job that a first frame opens -/

/-- A job just opened for a station (R77). -/
def opened (o : Offer) (k : Port) : Job :=
  { Job.blank with state := .assembling, printer := k, origin := .trunk o.branch o.station }

theorem openJob_job_self (j : JobNo) (k : Port) (x : JobOrigin) (p : Part) : (openJob j k x p).job j =
    { Job.blank with state := .assembling, printer := k, origin := x } := by
  simp [openJob]

theorem openJob_job_ne {i : JobNo} (k : Port) (x : JobOrigin) (p : Part) (h : i ≠ j) :
    (openJob j k x p).job i = p.job i := by
  simp [openJob, job_updJob_ne _ _ _ _ _ h]

theorem openJob_received (j : JobNo) (k : Port) (x : JobOrigin) (c : Branch) (m : StationNo) (p : Part) :
    ((openJob j k x p).station c m).received = (p.station c m).received := by
  rw [openJob, reportOpened_received]
  simp

theorem state_assemblingOf {i : JobNo} {b : Branch} {n : StationNo} (h : p.assemblingOf b n = some i) :
    (p.job i).state = .assembling := by
  have hfound := List.find?_some h
  simp only [Bool.and_eq_true] at hfound
  exact of_decide_eq_true hfound.1

theorem state_freeRecord (h : p.freeRecord = some j) : (p.job j).state = .free := by
  have hfound := List.find?_some h
  simpa using hfound

/-- The part as the first frame of a job finds it: the old job gone, the new one opened. -/
def reopened (o : Offer) (j : JobNo) (k : Port) (p : Part) : Part :=
  openJob j k (.trunk o.branch o.station) (retired o p)

theorem retired_keeps (o : Offer) (p : Part) : (retired o p).ports = p.ports ∧ (retired o p).queues = p.queues
    ∧ (retired o p).setup = p.setup ∧ (retired o p).stamp = p.stamp ∧ (retired o p).engines = p.engines
    ∧ ((retired o p).station o.branch o.station).received = (p.station o.branch o.station).received := by
  unfold retired
  cases hold : p.assemblingOf o.branch o.station with
  | none => exact ⟨rfl, rfl, rfl, rfl, rfl, rfl⟩
  | some i =>
    exact ⟨by simp, abortJob_queues _ (by rw [state_assemblingOf hold]; decide), by simp, by simp, by simp,
      abortJob_received ..⟩

theorem reopened_keeps (o : Offer) (j : JobNo) (k : Port) (p : Part) : (reopened o j k p).ports = p.ports
    ∧ (reopened o j k p).queues = p.queues ∧ (reopened o j k p).setup = p.setup ∧ (reopened o j k p).stamp = p.stamp
    ∧ (reopened o j k p).engines = p.engines
    ∧ ((reopened o j k p).station o.branch o.station).received = (p.station o.branch o.station).received
    ∧ (reopened o j k p).job j = opened o k := by
  obtain ⟨hports, hqueues, hsetup, hstamp, hengines, hreceived⟩ := retired_keeps o p
  exact ⟨by simp [reopened, hports], by simp [reopened, hqueues], by simp [reopened, hsetup], by simp [reopened, hstamp],
    by simp [reopened, hengines], (openJob_received ..).trans hreceived, openJob_job_self ..⟩

/-- A first frame that is the last too: its job waits at once. -/
theorem reopened_waits (hlast : o.last = true) (hstate : (p.port (p.closeTarget k)).state ≠ .idle)
    (hreserved : (p.engine o.branch).reservation = some o.buf) :
    let t := framed o j (reopened o j k p)
    Takes o p t ∧ t.stamp = wrapInc p.stamp
      ∧ t.job j = { Job.blank with state := .waiting, printer := p.closeTarget k, origin := .trunk o.branch o.station
                                   chain := [frameEntry o], queuedBytes := o.len, stamp := p.stamp }
      ∧ t.queue (p.closeTarget k) = p.queue (p.closeTarget k) ++ [j] := by
  obtain ⟨hports, hqueues, hsetup, hstamp, hengines, hreceived, hself⟩ := reopened_keeps o j k p
  generalize reopened o j k p = q at *
  have htarget : q.closeTarget k = p.closeTarget k := closeTarget_same hports hsetup k
  have hwaits := framed_waits (p := q) (j := j) (k := k) hlast (by rw [hself]; rfl)
    (by rw [htarget, port, hports]; exact hstate) (by rw [engine, hengines]; exact hreserved)
  rw [htarget, hstamp, hself, queue, hqueues] at hwaits
  generalize framed o j q = t at *
  obtain ⟨htakes, hstamp', hjob, hq⟩ := hwaits
  exact ⟨htakes.before hreceived, hstamp', by rw [hjob]; simp [opened, Job.blank], hq⟩

/-- A first frame with more to come: its job is ASSEMBLING, and the old job of the station is gone. -/
theorem reopened_assembles (hlast : o.last = false) (hfree : p.freeRecord = some j)
    (hreserved : (p.engine o.branch).reservation = some o.buf) :
    let t := framed o j (reopened o j k p)
    Takes o p t ∧ t.job j = { Job.blank with state := .assembling, printer := k, origin := .trunk o.branch o.station
                                             chain := [frameEntry o], queuedBytes := o.len }
      ∧ (p.assemblingOf o.branch o.station = none → t.pool = p.pool
        ∧ t.path o.branch = p.path o.branch ++ if o.len = 0 then [] else [.shift o.buf o.len 0 none])
      ∧ ∀ i, p.assemblingOf o.branch o.station = some i → (t.job i).state = .aborted
        ∧ (t.job i).result = some .incomplete ∧ (t.job i).chain = []
        ∧ t.pool.free = p.pool.free ++ (p.job i).chain.map fun z => z.buf := by
  obtain ⟨-, -, -, -, hengines, hreceived, hself⟩ := reopened_keeps o j k p
  have htakes := addFrame_takes (p := reopened o j k p) (j := j) (o := o) (by rw [engine, hengines]; exact hreserved)
  intro t
  have ht : t = addFrame o j (reopened o j k p) := framed_more hlast
  rw [ht]
  refine ⟨htakes.before hreceived, ?_, fun hold => ⟨?_, ?_⟩, fun i hold => ?_⟩
  · rw [addFrame_job_self, hself]
    simp [opened, Job.blank]
  · simp [reopened, retired, hold]
  · rw [addFrame_path]
    simp [reopened, retired, hold]
  · have hassembling := state_assemblingOf hold
    have hne : i ≠ j := fun e => by
      rw [e, state_freeRecord hfree] at hassembling
      exact nomatch hassembling
    have hlive := live_of_assembling hassembling
    have hjob : (addFrame o j (reopened o j k p)).job i = (abortJob i .incomplete p).job i := by
      rw [addFrame_job_ne _ _ hne, reopened, openJob_job_ne _ _ _ hne, retired, hold]
    rw [hjob, abortJob_job_self _ hlive]
    refine ⟨rfl, rfl, rfl, ?_⟩
    simp [reopened, retired, hold, abortJob_pool _ hlive]

end

end Part

end Sys2Proof.Machine
end

section
/-! PROOF. A good frame reported and offered, and the verdict that the engine sends (O38). -/

namespace Sys2Proof.Machine

/-- A station's record once a clean reply of it has been heard in a round (R33). -/
def Station.heard (round : Nat) (x : Station) : Station := { x with miss := 0, garble := 0, lastHeard := round }

/-- The offer of the frame in a buffer (R58). -/
def Exchange.offer (b : Branch) (x : Exchange) (buf : BufNo) : Offer :=
  { branch := b, station := x.station, buf := buf, unit := x.reply.unit, ctl := x.reply.ctl, len := x.reply.len }

namespace Part

section

variable {p q : Part} {b : Branch} {n : StationNo} {x : Exchange} {c : LineChar} {o : Offer} {v : RouterVerdict}

/-! ## What the report of a good frame leaves (R33) -/

/-- From `p` to `q` nothing has changed but the engine of `b` and the record of its station `n`. -/
structure Heard (b : Branch) (n : StationNo) (p q : Part) : Prop where
  rest : ∃ E S W, q = { p with engines := E, stations := S, writer := W }
  reservation : (q.engine b).reservation = (p.engine b).reservation
  queues : ∀ d, (q.engine d).queue = (p.engine d).queue
  others : ∀ d m, (d, m) ≠ (b, n) → q.station d m = p.station d m

theorem judging_heard (b : Branch) (n : StationNo) (x : Exchange) (c : LineChar) (p : Part) :
    Heard b n p (judging b x c p) := by
  rw [judging_eq]
  refine ⟨⟨_, _, _, rfl⟩, by simp, fun d => ?_, fun d m _ => rfl⟩
  by_cases h : d = b
  · rw [h, engine_modEngine_self]
  · rw [engine_modEngine_ne _ _ _ _ h]

theorem Heard.updStation {f : Station → Station} (h : Heard b n p q) : Heard b n p (Part.updStation b n f q) := by
  obtain ⟨⟨E, S, W, hq⟩, hreservation, hqueues, hothers⟩ := h
  refine ⟨?_, by simpa using hreservation, by simpa using hqueues, fun d m hne => ?_⟩
  · subst hq
    unfold Part.updStation
    split
    · exact ⟨_, _, _, rfl⟩
    · exact ⟨_, _, _, rfl⟩
  · rw [station_updStation_ne _ _ _ _ _ _ hne, hothers d m hne]

/-- A frame from a sender that is not PRESENT in a POLL, or of an exchange made void, is reported to nobody. -/
theorem reportGood_kept (h : x.kind = .poll ∨ x.void = true) (hstate : (p.station b x.station).state ≠ .present) :
    reportGood b x p = p := by
  unfold reportGood
  split
  · next hkind => exact reportDiscovery_kept (.inl (h.resolve_left (by rw [hkind]; decide)))
  · exact reportClean_kept (.inr hstate)

/-- A frame that answers a POLL is a clean reply. -/
theorem reportGood_clean (hkind : x.kind = .poll) (hvoid : x.void = false)
    (hstate : (p.station b x.station).state = .present) :
    reportGood b x p = updStation b x.station (Station.heard (p.engine b).round) p := by
  have hnot : x.kind ≠ .sweep := by rw [hkind]; decide
  rw [reportGood, if_neg hnot, hvoid, reportClean_present hstate]
  rfl

/-- A frame that answers a sweep discovers its station. -/
theorem reportGood_discovers (hkind : x.kind = .sweep) (hvoid : x.void = false)
    (hstate : (p.station b x.station).state = .absent) :
    ((reportGood b x p).station b x.station).state = .present
      ∧ ((reportGood b x p).station b x.station).rxValid = false
      ∧ ((reportGood b x p).engine b).reservation = (p.engine b).reservation
      ∧ (reportGood b x p).units = p.units ∧ (reportGood b x p).nodes = p.nodes ∧ (reportGood b x p).router = p.router := by
  rw [reportGood, if_pos hkind, hvoid, reportDiscovery_absent hstate]
  simp [changeStation, Engine.appendStation]
  split <;> rfl

theorem receiveChar_goodFrame (hstate : (p.engine b).state ≠ .stopped) (hx : (p.engine b).exch = some x)
    (harriving : (p.engine b).arriving = some .elsewhere) (hphase : (p.engine b).phase = .reply) (hstop : c.stop = true)
    (hmark : c.mark = false) (hstage : x.reply.stage = .checkLo) (hcheck : x.reply.crc = x.reply.checkHi ++ c.data) :
    receiveChar b c p = goodFrame b (x.noting c) (judging b x c p) := by
  rw [receiveChar_reply hstate hx harriving (.inr hphase), judgeChar_next hstop (by simp [hstage]) hmark]
  exact nextChar_goodCheck hstage hcheck

theorem goodFrame_offers {buf : BufNo} (h : ((reportGood b x p).engine b).reservation = some buf) :
    goodFrame b x p = offerFrame (x.offer b buf) (reportGood b x p) := by
  simp only [goodFrame, h, Exchange.offer]

/-! ## The verdict as it is sent (R16) -/

theorem offerFrame_decides (hmark : p.needsMark o = false) (hroute : p.route 0 o = (v, q)) :
    offerFrame o p = sendVerdict o v q := by
  rw [offerFrame_now o p hmark, hroute]

theorem sendVerdict_engine (o : Offer) (v : RouterVerdict) (q : Part) : (sendVerdict o v q).engine o.branch =
    { q.engine o.branch with
      phase := .owed, sent := [(BitVec.ofNat 8 (192 + o.station.val), true), (v.status, false)] } :=
  engine_modEngine_self ..

theorem sendVerdict_queue (o : Offer) (v : RouterVerdict) (q : Part) (d : Branch) :
    ((sendVerdict o v q).engine d).queue = (q.engine d).queue := by
  by_cases h : d = o.branch
  · rw [h, sendVerdict_engine]
  · rw [sendVerdict, engine_modEngine_ne _ _ _ _ h]

/-- A frame for the host is offered, and its engine waits for the mark (R62). -/
theorem offerFrame_asks (hmark : p.needsMark o = true) :
    let t := offerFrame o p
    t.engine o.branch = { p.engine o.branch with phase := .verdict }
      ∧ t.router = { p.router with offers := p.router.offers ++ [o] }
      ∧ t.ring = p.ring ++ [{ user := .router, addr := 0x02000 + 32 * p.router.producer.val, left := 1, got := [] }]
      ∧ t.stations = p.stations ∧ t.pool = p.pool ∧ t.jobs = p.jobs := by
  rw [offerFrame_waits o p hmark]
  exact ⟨get_put_self .., rfl, rfl, rfl, rfl, rfl⟩

end

end Part

end Sys2Proof.Machine
end

section
/-! PROOF. What becomes of a good frame once it is offered, by the unit it names (O38). -/

namespace Sys2Proof.Machine

namespace Part

section

variable {p q : Part} {o : Offer} {v : RouterVerdict} {k : Port} {j : JobNo}

/-- The engine of an offer sends a status. -/
structure Answers (o : Offer) (code : Byte) (t : Part) : Prop where
  phase : (t.engine o.branch).phase = .owed
  sent : (t.engine o.branch).sent = [(BitVec.ofNat 8 (192 + o.station.val), true), (code, false)]

/-- The engine of an offer sends a status, and keeps the frame's buffer reserved. -/
structure Refuses (o : Offer) (code : Byte) (p t : Part) : Prop extends Answers o code t where
  reservation : (t.engine o.branch).reservation = some o.buf
  station : t.station o.branch o.station = p.station o.branch o.station
  pool : t.pool = p.pool
  jobs : t.jobs = p.jobs

/-- The engine of an offer acknowledges the frame taken. -/
structure Accepts (o : Offer) (p t : Part) : Prop extends Answers o (if o.seq then 0x11 else 0x10) t, Takes o p t

theorem sendVerdict_answers (o : Offer) (v : RouterVerdict) (q : Part) : Answers o v.status (sendVerdict o v q) := by
  have h := sendVerdict_engine o v q
  exact ⟨congrArg Engine.phase h, congrArg Engine.sent h⟩

theorem sendVerdict_reservation (o : Offer) (v : RouterVerdict) (q : Part) :
    ((sendVerdict o v q).engine o.branch).reservation = (q.engine o.branch).reservation := by
  rw [sendVerdict_engine]

/-- A verdict that changes nothing but the router's counts. -/
theorem sendVerdict_refuses {R : Router} (v : RouterVerdict) (hreserved : (p.engine o.branch).reservation = some o.buf)
    (hq : q = { p with router := R }) : Refuses o v.status p (sendVerdict o v q) := by
  subst hq
  exact ⟨sendVerdict_answers .., (sendVerdict_reservation ..).trans hreserved, rfl, rfl, rfl⟩

theorem sendVerdict_accepts (htakes : Takes o p q) : Accepts o p (sendVerdict o (.taken o.seq) q) :=
  ⟨sendVerdict_answers o (.taken o.seq) q, (sendVerdict_reservation ..).trans htakes.reservation, htakes.received⟩

/-! ## Before the destination (R58, R60, R62) -/

theorem offer_absent (h : (p.station o.branch o.station).state ≠ .present) :
    offerFrame o p = sendVerdict o .reject p := offerFrame_decides (needsMark_absent h) (route_absent h)

theorem offer_repeats (hstate : (p.station o.branch o.station).state = .present)
    (hvalid : (p.station o.branch o.station).rxValid = true) (hlast : (p.station o.branch o.station).rxLast = o.seq) :
    offerFrame o p = sendVerdict o (.duplicate o.seq) p :=
  offerFrame_decides (needsMark_repeat hvalid hlast) (route_repeat hstate hvalid hlast)

theorem offer_unusable (h : Fresh o p) (hunit : Unusable o p) :
    offerFrame o p = sendVerdict o .reject (countUnroutable o.branch p) :=
  offerFrame_decides (needsMark_unusable hunit) (route_unusable h hunit)

/-! ## A station (R64) -/

section

variable {b2 : Branch} {s2 : StationNo} (hfresh : Fresh o p) (hunit : ¬ Unusable o p)
  (hkind : (p.units.get o.unit.toFin).kind = .station b2 s2)

include hfresh hunit hkind

theorem offer_station (h : relay o b2 s2 p = (v, q)) : offerFrame o p = sendVerdict o v q := by
  exact offerFrame_decides (needsMark_inside (.inl ⟨b2, s2, hkind⟩)) ((route_station hfresh hunit hkind).trans h)

theorem offer_relays (hreaches : Reaches o b2 s2 p) (hroom : (p.engine b2).queue.length < 32)
    (hreserved : (p.engine o.branch).reservation = some o.buf) :
    let t := offerFrame o p
    Accepts o p t ∧ t.pool = p.pool ∧ (t.engine b2).queue = (p.engine b2).queue ++ [relayEntry o s2] := by
  obtain ⟨htakes, hpool, hqueue⟩ := relay_taken hreaches hreserved
  rw [offer_station hfresh hunit hkind (relay_takes hreaches hroom)]
  exact ⟨sendVerdict_accepts htakes, hpool, (sendVerdict_queue ..).trans hqueue⟩

end

/-! ## A printer (R65, R82, R83) -/

section

variable (hfresh : Fresh o p) (hunit : ¬ Unusable o p) (hkind : (p.units.get o.unit.toFin).kind = .printer k)

include hfresh hunit hkind

theorem offer_printer (h : printFrame o k p = (v, q)) : offerFrame o p = sendVerdict o v q := by
  exact offerFrame_decides (needsMark_inside (.inr ⟨k, hkind⟩)) ((route_printer hfresh hunit hkind).trans h)

/-- A chain at its limit takes the job with it (R83). -/
theorem offer_tooLarge (hon : (p.printerSetup k).enable = true) (hfirst : o.first = false)
    (hold : p.assemblingOf o.branch o.station = some j) (hprinter : (p.job j).printer = k)
    (hfull : p.setup.jobBufferLimit ≤ (p.job j).chain.length) (hreserved : (p.engine o.branch).reservation = some o.buf) :
    let t := offerFrame o p
    Answers o 0x30 t ∧ (t.engine o.branch).reservation = some o.buf ∧ (t.job j).state = .aborted
      ∧ (t.job j).result = some .tooLarge ∧ t.pool.free = p.pool.free ++ (p.job j).chain.map fun z => z.buf := by
  have hlive := live_of_assembling (state_assemblingOf hold)
  have hself := abortJob_job_self (p := p) .tooLarge hlive
  have hpool := abortJob_pool (p := p) .tooLarge hlive
  have hengines : (abortJob j .tooLarge p).engines = p.engines := by simp
  rw [offer_printer hfresh hunit hkind ((printFrame_next hon hfirst).trans (printNext_full hold hprinter hfull))]
  generalize abortJob j .tooLarge p = q at *
  refine ⟨sendVerdict_answers o .reject q, (sendVerdict_reservation ..).trans (by rw [engine, hengines]; exact hreserved), ?_, ?_, ?_⟩
  · exact congrArg Job.state hself
  · exact congrArg Job.result hself
  · exact congrArg Pool.free hpool

/-- A frame with more to come joins the chain of its job (R83). -/
theorem offer_joins (hon : (p.printerSetup k).enable = true) (hfirst : o.first = false)
    (hold : p.assemblingOf o.branch o.station = some j) (hprinter : (p.job j).printer = k)
    (hroom : (p.job j).chain.length < p.setup.jobBufferLimit) (hfree : p.setup.reserve ≤ p.pool.free.length)
    (hlast : o.last = false) (hreserved : (p.engine o.branch).reservation = some o.buf) :
    let t := offerFrame o p
    Accepts o p t ∧ t.pool = p.pool
      ∧ t.job j = { p.job j with
          chain := (p.job j).chain ++ [frameEntry o], queuedBytes := (p.job j).queuedBytes + o.len }
      ∧ t.path o.branch = p.path o.branch ++ if o.len = 0 then [] else [.shift o.buf o.len 0 none] := by
  have hself := addFrame_job_self o j p
  have hpath := addFrame_path o j p
  have hpool : (addFrame o j p).pool = p.pool := by simp
  have htakes := addFrame_takes (j := j) hreserved
  rw [offer_printer hfresh hunit hkind ((printFrame_next hon hfirst).trans (printNext_takes hold hprinter hroom hfree (.inl hlast))),
    framed_more hlast]
  generalize addFrame o j p = q at *
  exact ⟨sendVerdict_accepts htakes, hpool, hself, hpath⟩

/-- The last frame of a job closes it into the queue of its target (R83, R85). -/
theorem offer_waits (hon : (p.printerSetup k).enable = true) (hfirst : o.first = false)
    (hold : p.assemblingOf o.branch o.station = some j) (hprinter : (p.job j).printer = k)
    (hroom : (p.job j).chain.length < p.setup.jobBufferLimit) (hfree : p.setup.reserve ≤ p.pool.free.length)
    (hlast : o.last = true) (hcloses : Closes o k p) (hstate : (p.port (p.closeTarget k)).state ≠ .idle)
    (hreserved : (p.engine o.branch).reservation = some o.buf) :
    let t := offerFrame o p
    Accepts o p t
      ∧ t.job j = { p.job j with
          chain := (p.job j).chain ++ [frameEntry o], queuedBytes := (p.job j).queuedBytes + o.len
          printer := p.closeTarget k, stamp := p.stamp, state := .waiting }
      ∧ t.queue (p.closeTarget k) = p.queue (p.closeTarget k) ++ [j] := by
  obtain ⟨htakes, -, hself, hqueue⟩ := framed_waits (p := p) hlast hprinter hstate hreserved
  rw [offer_printer hfresh hunit hkind ((printFrame_next hon hfirst).trans (printNext_takes hold hprinter hroom hfree hcloses))]
  generalize framed o j p = q at *
  exact ⟨sendVerdict_accepts htakes, hself, hqueue⟩

/-- Closed into the empty queue of an IDLE port, the job is granted at once (R83, R112). -/
theorem offer_prints (hon : (p.printerSetup k).enable = true) (hfirst : o.first = false)
    (hold : p.assemblingOf o.branch o.station = some j) (hprinter : (p.job j).printer = k)
    (hroom : (p.job j).chain.length < p.setup.jobBufferLimit) (hfree : p.setup.reserve ≤ p.pool.free.length)
    (hlast : o.last = true) (hqueue : p.queue (p.closeTarget k) = [])
    (hstate : (p.port (p.closeTarget k)).state = .idle) (hload : (p.port (p.closeTarget k)).loading = none)
    (hpending : (p.port (p.closeTarget k)).loadPending = false)
    (hdecide : ({ p.port (p.closeTarget k) with job := some j } : PrinterPort).decide
      (p.printerSetup (p.closeTarget k)).enable = .busy)
    (hchain : ∀ e ∈ (p.job j).chain ++ [frameEntry o], e.fill ≠ 0) (hbytes : (p.job j).queuedBytes + o.len ≠ 0)
    (hreserved : (p.engine o.branch).reservation = some o.buf) :
    let t := offerFrame o p
    Accepts o p t ∧ (t.job j).state = .printing ∧ (t.job j).stamp = p.stamp
      ∧ (t.job j).chain = (p.job j).chain ++ [frameEntry o]
      ∧ (t.port (p.closeTarget k)).state = .busy ∧ (t.port (p.closeTarget k)).job = some j
      ∧ (t.port (p.closeTarget k)).stall = some (p.printerSetup (p.closeTarget k)).stallS
      ∧ t.queue (p.closeTarget k) = [] := by
  obtain ⟨htakes, hrest⟩ :=
    framed_prints (p := p) hlast hprinter hqueue hstate hload hpending hdecide hbytes hchain hreserved
  have hcloses : Closes o k p := .inr (by rw [hqueue]; decide)
  rw [offer_printer hfresh hunit hkind ((printFrame_next hon hfirst).trans (printNext_takes hold hprinter hroom hfree hcloses))]
  generalize framed o j p = q at *
  exact ⟨sendVerdict_accepts htakes, hrest⟩

/-- A first frame that is the last too (R82, R85). -/
theorem offer_opensLast (hon : (p.printerSetup k).enable = true) (hfirst : o.first = true)
    (hfree : p.freeRecord = some j) (hopens : Opens o k p) (hlast : o.last = true)
    (hstate : (p.port (p.closeTarget k)).state ≠ .idle) (hreserved : (p.engine o.branch).reservation = some o.buf) :
    let t := offerFrame o p
    Accepts o p t
      ∧ t.job j = { Job.blank with state := .waiting, printer := p.closeTarget k, origin := .trunk o.branch o.station
                                   chain := [frameEntry o], queuedBytes := o.len, stamp := p.stamp }
      ∧ t.stamp = wrapInc p.stamp ∧ t.queue (p.closeTarget k) = p.queue (p.closeTarget k) ++ [j] := by
  obtain ⟨htakes, hstamp, hself, hqueue⟩ := reopened_waits (p := p) (j := j) hlast hstate hreserved
  rw [offer_printer hfresh hunit hkind ((printFrame_first hon hfirst).trans (printFirst_takes hfree hopens)), ← reopened]
  generalize framed o j (reopened o j k p) = q at *
  exact ⟨sendVerdict_accepts htakes, hself, hstamp, hqueue⟩

/-- A first frame with more to come (R82). -/
theorem offer_opens (hon : (p.printerSetup k).enable = true) (hfirst : o.first = true)
    (hfree : p.freeRecord = some j) (hopens : Opens o k p) (hlast : o.last = false)
    (hreserved : (p.engine o.branch).reservation = some o.buf) :
    let t := offerFrame o p
    Accepts o p t
      ∧ t.job j = { Job.blank with state := .assembling, printer := k, origin := .trunk o.branch o.station
                                   chain := [frameEntry o], queuedBytes := o.len }
      ∧ (p.assemblingOf o.branch o.station = none → t.pool = p.pool
        ∧ t.path o.branch = p.path o.branch ++ if o.len = 0 then [] else [.shift o.buf o.len 0 none])
      ∧ ∀ i, p.assemblingOf o.branch o.station = some i → (t.job i).state = .aborted
        ∧ (t.job i).result = some .incomplete ∧ (t.job i).chain = []
        ∧ t.pool.free = p.pool.free ++ (p.job i).chain.map fun z => z.buf := by
  obtain ⟨htakes, hrest⟩ := reopened_assembles (p := p) (k := k) hlast hfree hreserved
  rw [offer_printer hfresh hunit hkind ((printFrame_first hon hfirst).trans (printFirst_takes hfree hopens)), ← reopened]
  generalize framed o j (reopened o j k p) = q at *
  exact ⟨sendVerdict_accepts htakes, hrest⟩

end

end

end Part

end Sys2Proof.Machine
end

section
/-! PROOF. The mark of the producer slot is read, and the oldest offer decided (O38). -/

namespace Sys2Proof.Machine

/-- An engine that sends the status of an offer as the mark has been read (R16, R62). -/
def Engine.answering (o : Offer) (code : Byte) (g : Engine) : Engine :=
  { g with phase := .owed, arriving := none
           sent := [(BitVec.ofNat 8 (192 + o.station.val), true), (code, false)] }

/-- An engine whose stray run has ended. -/
def Engine.unstrayed (g : Engine) : Engine := { g with strayRun := none }

namespace Part

section

variable {p q : Part} {o : Offer} {os : List Offer} {v : RouterVerdict} {mark : Byte} {dst : NodeAddr} {bridge : Bool}

/-! ## A delivery to the host (R62, R63) -/

/-- The frame is for the host: its unit is usable, and is the host itself or a NODE, whose address is known. -/
def ForHost (o : Offer) (bridge : Bool) (dst : NodeAddr) (p : Part) : Prop := ¬ Unusable o p
  ∧ ((bridge = false ∧ (p.units.get o.unit.toFin).kind = .localUnit ∧ dst = Vector.replicate 6 0)
    ∨ (bridge = true ∧ ∃ i, (p.units.get o.unit.toFin).kind = .node i ∧ dst = (p.nodes.get i).addr))

theorem ForHost.kind (h : ForHost o bridge dst p) (k : Port) : (p.units.get o.unit.toFin).kind ≠ .printer k := by
  obtain ⟨-, ⟨-, hkind, -⟩ | ⟨-, i, hkind, -⟩⟩ := h <;> rw [hkind] <;> exact nofun

theorem route_host (h : Fresh o p) (hhost : ForHost o bridge dst p) : route mark o p = deliver mark o bridge dst p := by
  obtain ⟨hunit, ⟨hbridge, hkind, hdst⟩ | ⟨hbridge, i, hkind, hdst⟩⟩ := hhost
  · rw [route_localUnit h hunit hkind, hbridge, hdst]
  · rw [route_node h hunit hkind, hbridge, hdst]

/-- The part with the frame in the slot at the producer index. -/
def slotted (o : Offer) (bridge : Bool) (dst : NodeAddr) (p : Part) : Part :=
  modRouter (fun r => { r with producer := p.router.producer + 1 })
    (writeWhole (.fromTrunk p.router.producer) (fromTrunkSlotBytes (!bridge) o.branch o.station
        (p.newSideAddr o.branch o.station) dst o.unit o.ctl (BitVec.ofNat 8 o.len) o.buf) Notice.fromTrunk.bit
      (accept o (modPool (fun l => { l with hostHeld := l.hostHeld ++ [o.buf] }) p)))

theorem deliver_takes (o : Offer) (bridge : Bool) (dst : NodeAddr) (p : Part) :
    deliver 0 o bridge dst p = (.taken o.seq, slotted o bridge dst p) := rfl

theorem deliver_full (h : mark ≠ 0) : deliver mark o bridge dst p = (.hold, p) := if_neg h

/-- What the delivery leaves: the buffer with the host, the slot and the station's record asked to be written. -/
theorem slotted_fields (hfresh : Fresh o p) (hreserved : (p.engine o.branch).reservation = some o.buf) :
    let t := slotted o bridge dst p
    t.pool = { p.pool with hostHeld := p.pool.hostHeld ++ [o.buf] }
      ∧ t.router = { p.router with producer := p.router.producer + 1 } ∧ t.ring = p.ring
      ∧ t.station o.branch o.station = (p.station o.branch o.station).accepting o.seq
      ∧ t.writer.queue = enqueueWrite (slotWrite (.fromTrunk p.router.producer)
          (fromTrunkSlotBytes (!bridge) o.branch o.station (p.newSideAddr o.branch o.station) dst o.unit o.ctl
            (BitVec.ofNat 8 o.len) o.buf) Notice.fromTrunk.bit)
          (enqueueWrite { recordWrite (.station o.branch o.station) 0 with high := true } p.writer.queue)
      ∧ t.engines = put p.engines o.branch { p.engine o.branch with reservation := none } ∧ t.units = p.units := by
  have hchanges : (p.station o.branch o.station).accepting o.seq ≠ p.station o.branch o.station := fun e => hfresh.2
    ⟨(congrArg Station.rxValid e).symm, (congrArg Station.rxLast e).symm⟩
  let p1 : Part := modPool (fun l => { l with hostHeld := l.hostHeld ++ [o.buf] }) p
  have hwriter : (accept o p1).writer = { p.writer with
      queue := enqueueWrite { recordWrite (.station o.branch o.station) 0 with high := true } p.writer.queue } := by
    exact (updStation_writer ..).trans (if_neg hchanges)
  have hengines : (accept o p1).engines = put p.engines o.branch { p.engine o.branch with reservation := none } := by
    simp [accept, takeReservation, modEngine, hreserved, p1]
  have hstation : (accept o p1).station o.branch o.station = _ := accept_station o p1
  have hkept : (accept o p1).pool = p1.pool ∧ (accept o p1).router = p1.router ∧ (accept o p1).ring = p1.ring
      ∧ (accept o p1).units = p1.units := by simp [accept, takeReservation]
  obtain ⟨hpool, hrouter, hring, hunits⟩ := hkept
  intro t
  have ht : t = modRouter (fun r => { r with producer := p.router.producer + 1 })
    (writeWhole (.fromTrunk p.router.producer) (fromTrunkSlotBytes (!bridge) o.branch o.station
        (p.newSideAddr o.branch o.station) dst o.unit o.ctl (BitVec.ofNat 8 o.len) o.buf) Notice.fromTrunk.bit
      (accept o p1)) := rfl
  clear_value t
  generalize accept o p1 = r at *
  subst ht
  refine ⟨hpool, ?_, hring, hstation, ?_, hengines, hunits⟩
  · exact congrArg (fun x : Router => { x with producer := p.router.producer + 1 }) hrouter
  · exact congrArg (fun x => enqueueWrite _ x.queue) hwriter

/-! ## No verdict touches a stray run (R21) -/

theorem modEngine_strayRun {f : Engine → Engine} (hf : ∀ g, (f g).strayRun = g.strayRun) (b c : Branch) (p : Part) :
    ((modEngine b f p).engine c).strayRun = (p.engine c).strayRun := by
  by_cases h : c = b
  · rw [h, engine_modEngine_self, hf]
  · rw [engine_modEngine_ne _ _ _ _ h]

theorem accept_strayRun (c : Branch) (o : Offer) (p : Part) : ((accept o p).engine c).strayRun = (p.engine c).strayRun := by
  rw [accept, (updStation_views ..).1, takeReservation]
  exact modEngine_strayRun (by exact fun _ => rfl) ..

theorem appendEntry_strayRun (b c : Branch) (e : TxEntry) (p : Part) :
    ((appendEntry b e p).engine c).strayRun = (p.engine c).strayRun := by
  unfold appendEntry
  extract_lets q
  have hq : (q.engine c).strayRun = (p.engine c).strayRun := modEngine_strayRun (by exact fun _ => rfl) ..
  split
  · exact hq
  · rw [(updStation_views ..).1, hq]

theorem framed_strayRun (c : Branch) (o : Offer) (j : JobNo) (p : Part) :
    ((framed o j p).engine c).strayRun = (p.engine c).strayRun := by
  have hadd : ((addFrame o j p).engine c).strayRun = (p.engine c).strayRun := by
    rw [← accept_strayRun c o p, addFrame_eq]
    split <;> simp
  unfold framed
  split
  · rw [(closeJob_views ..).1, hadd]
  · exact hadd

theorem printNext_strayRun (c : Branch) (o : Offer) (k : Port) (p : Part) :
    ((printNext o k p).2.engine c).strayRun = (p.engine c).strayRun := by
  unfold printNext
  split
  · split
    · rfl
    · split
      · simp
      · split
        · rfl
        · split
          · rfl
          · exact framed_strayRun ..
  · rfl

theorem printFirst_strayRun (c : Branch) (o : Offer) (k : Port) (p : Part) :
    ((printFirst o k p).2.engine c).strayRun = (p.engine c).strayRun := by
  by_cases h : Opens o k p
  · obtain ⟨j, hj⟩ := Option.isSome_iff_exists.mp h.1
    obtain ⟨-, -, -, -, hengines, -⟩ := reopened_keeps o j k p
    rw [printFirst_takes hj h, framed_strayRun, engine, ← reopened, hengines]
    rfl
  · rw [printFirst_holds h]

theorem route_strayRun (mark : Byte) (o : Offer) (c : Branch) (p : Part) :
    ((route mark o p).2.engine c).strayRun = (p.engine c).strayRun := by
  have hdeliver : ∀ bridge dst, ((deliver mark o bridge dst p).2.engine c).strayRun = (p.engine c).strayRun := by
    intro bridge dst
    by_cases h : mark = 0
    · rw [h, deliver_takes, slotted, (modRouter_views ..).1, (writeWhole_views ..).1, accept_strayRun]
      rfl
    · rw [deliver_full h]
  unfold route
  extract_lets st e
  split
  · rfl
  · split
    · rfl
    · split
      · rfl
      · split
        · exact hdeliver ..
        · exact hdeliver ..
        · next b2 s2 _ =>
          by_cases h : Reaches o b2 s2 p
          · rw [relay_reaches h]
            split
            · rfl
            · exact (appendEntry_strayRun ..).trans (accept_strayRun ..)
          · rw [relay_rejects h]
        · unfold printFrame
          split
          · rfl
          · split
            · exact printFirst_strayRun ..
            · exact printNext_strayRun ..
        · rfl

/-! ## The decision of the oldest offer (R16, R26, R58) -/

/-- The part as the oldest offer leaves the router. -/
def unoffered (os : List Offer) (p : Part) : Part := { p with router := { p.router with offers := os } }

theorem awaits_iff : p.awaits o = true ↔ (p.engine o.branch).phase = .verdict ∧ (p.engine o.branch).reservation = some o.buf := by
  simp [awaits]

theorem decideOffer_awaited (ho : p.router.offers = o :: os) (ha : p.awaits o = true)
    (hv : (unoffered os p).route mark o = (v, q)) : decideOffer mark p = handleAll o.branch (q.endedStray o.branch)
      (modEngine o.branch (fun g => { g with arriving := none, strayRun := none }) (sendVerdict o v q)) := by
  have hv' : (modRouter (fun x => { x with offers := os }) p).route mark o = (v, q) := hv
  simp only [decideOffer, ho, hv', ha, if_true]

theorem sendVerdict_quiet (o : Offer) (v : RouterVerdict) (q : Part) :
    modEngine o.branch (fun g => { g with arriving := none, strayRun := none }) (sendVerdict o v q) =
      { q with engines := put q.engines o.branch ((q.engine o.branch).answering o v.status).unstrayed } := by
  simp only [sendVerdict, modEngine, put_put, engine, get_put_self]
  rfl

/-- A wait without a stray run ends with the status. -/
theorem decideOffer_sends (ho : p.router.offers = o :: os) (ha : p.awaits o = true)
    (hv : (unoffered os p).route mark o = (v, q)) (hstray : (q.engine o.branch).strayRun = none) :
    decideOffer mark p = { q with engines := put q.engines o.branch ((q.engine o.branch).answering o v.status) } := by
  have hsame : ((q.engine o.branch).answering o v.status).unstrayed = (q.engine o.branch).answering o v.status := by
    rw [Engine.unstrayed, ← hstray]
    rfl
  rw [decideOffer_awaited ho ha hv, endedStray_none hstray, sendVerdict_quiet, hsame]
  rfl

/-- A stray run of the wait is reported as the status goes out (R21). -/
theorem decideOffer_ends {cs : List (Byte × Bool)} (ho : p.router.offers = o :: os) (ha : p.awaits o = true)
    (hv : (unoffered os p).route mark o = (v, q)) (hstray : (q.engine o.branch).strayRun = some cs) :
    ((decideOffer mark p).engine o.branch).strayRun = none
      ∧ ((decideOffer mark p).sup o.branch).kinds.get 4 = satInc 65535 ((q.sup o.branch).kinds.get 4) := by
  have hended : q.endedStray o.branch = [strayReport cs (q.engine o.branch).round] := by simp only [endedStray, hstray]
  rw [decideOffer_awaited ho ha hv, hended, sendVerdict_quiet]
  let r : Part := { q with engines := put q.engines o.branch ((q.engine o.branch).answering o v.status).unstrayed }
  have hr : r.engine o.branch = ((q.engine o.branch).answering o v.status).unstrayed := get_put_self ..
  have hnone : (r.engine o.branch).strayRun = none := by rw [hr, Engine.unstrayed]
  obtain ⟨w, hw⟩ := handleError_sup (p := r) (strayReport cs (q.engine o.branch).round)
    (by rw [hr]; simp [Engine.unstrayed, Engine.answering]) hnone
  refine ⟨handleError_strayRun (p := r) _ hnone, ?_⟩
  exact (congrArg (fun u : Supervisor => u.kinds.get 4) hw).trans (get_put_self ..)

/-! ## An offer whose engine has been aborted (R26) -/

theorem returnOffered_returns (hreserved : (q.engine o.branch).reservation = some o.buf) :
    (returnOffered o q).pool = { q.pool with free := q.pool.free ++ [o.buf] } ∧ (returnOffered o q).router = q.router
      ∧ (returnOffered o q).engines = put q.engines o.branch { q.engine o.branch with reservation := none } := by
  have h : returnOffered o q = freeBuffer o.buf (takeReservation o q) := if_pos hreserved
  rw [h]
  refine ⟨by simp [freeBuffer, takeReservation], by simp [freeBuffer, takeReservation], ?_⟩
  simp [freeBuffer, takeReservation, modEngine, hreserved]

theorem decideOffer_kept (ho : p.router.offers = o :: os) (ha : p.awaits o = false)
    (hv : (unoffered os p).route mark o = (.taken o.seq, q))
    (hkind : ∀ k, (q.units.get o.unit.toFin).kind ≠ .printer k) : decideOffer mark p = q := by
  have hv' : (modRouter (fun x => { x with offers := os }) p).route mark o = (.taken o.seq, q) := hv
  simp only [decideOffer, ho, hv', ha, Bool.false_eq_true, if_false]
  exact abandonJob_other o q hkind

end

end Part

end Sys2Proof.Machine
end

section
/-! PROOF. The router (O38). -/

namespace Sys2Proof.Machine

namespace Part

section

variable {p : Part} {o : Offer} {round : Nat} {b2 : Branch} {s2 : StationNo} {k : Port} {p1 : Part}

/-- A sender that has been heard is a fresh one. -/
theorem fresh_heard (hself : p1.station o.branch o.station = (p.station o.branch o.station).heard round) (h : Fresh o p) :
    Fresh o p1 := by
  rw [Fresh, hself]
  exact h

theorem unusable_heard (h : Heard o.branch o.station p p1) : Unusable o p1 ↔ Unusable o p := by
  obtain ⟨⟨E, S, W, rfl⟩, -⟩ := h
  exact Iff.rfl

theorem reaches_heard (h : Heard o.branch o.station p p1) : Reaches o b2 s2 p1 ↔ Reaches o b2 s2 p := by
  have hswitch : p1.switch b2 = p.switch b2 := by
    obtain ⟨⟨E, S, W, rfl⟩, -⟩ := h
    rfl
  refine and_congr_right fun hne => ?_
  rw [hswitch, h.others b2 s2 fun e => ?_]
  obtain ⟨rfl, rfl⟩ := Prod.mk.inj e
  exact hne.elim (· rfl) (· rfl)

/-- Whatever the report has not touched, read of either part. -/
theorem Heard.same {b : Branch} {n : StationNo} (h : Heard b n p p1) : p.units = p1.units ∧ p.pool = p1.pool
    ∧ p.jobs = p1.jobs ∧ p.router = p1.router ∧ p.ring = p1.ring ∧ p.setup = p1.setup ∧ p.stamp = p1.stamp
    ∧ (∀ j, p.job j = p1.job j) ∧ (∀ i, p.queue i = p1.queue i) ∧ (∀ i, p.port i = p1.port i)
    ∧ (∀ i, p.printerSetup i = p1.printerSetup i) ∧ (∀ d, p.path d = p1.path d)
    ∧ (∀ i, p.closeTarget i = p1.closeTarget i) ∧ p.freeRecord = p1.freeRecord
    ∧ ∀ d m, p.assemblingOf d m = p1.assemblingOf d m := by
  obtain ⟨⟨E, S, W, rfl⟩, -⟩ := h
  exact ⟨rfl, rfl, rfl, rfl, rfl, rfl, rfl, fun _ => rfl, fun _ => rfl, fun _ => rfl, fun _ => rfl, fun _ => rfl,
    fun _ => rfl, rfl, fun _ _ => rfl⟩

/-! ## What a verdict refuses -/

section

variable (hfresh : Fresh o p) (hunit : ¬ Unusable o p) (hreserved : (p.engine o.branch).reservation = some o.buf)

include hfresh hunit hreserved

theorem offer_refusesRelay {v : RouterVerdict} (hkind : (p.units.get o.unit.toFin).kind = .station b2 s2)
    (h : relay o b2 s2 p = (v, p)) : Refuses o v.status p (offerFrame o p) := by
  rw [offer_station hfresh hunit hkind h]
  exact sendVerdict_refuses v hreserved rfl

theorem offer_refusesPrint {v : RouterVerdict} (hkind : (p.units.get o.unit.toFin).kind = .printer k)
    (h : printFrame o k p = (v, p)) : Refuses o v.status p (offerFrame o p) := by
  rw [offer_printer hfresh hunit hkind h]
  exact sendVerdict_refuses v hreserved rfl

end

end

end Part

/-- Settles O38: the frame is reported and offered, and decided by its unit, at once or with the mark of the producer
slot. -/
theorem goodFramesAreOfferedToTheRouter : Obligations.GoodFramesAreOfferedToTheRouter := by
  refine ⟨fun s b v x buf hheld => ?offered, fun p m o os r rest hwait hring huser hleft hgot hoffers => ?decided⟩
  case offered =>
    intro g r c n st e i seq last answered heard kept taken unusable hstate hx harriving hphase hstage hcheck hreserved
    let ch : LineChar := { data := v, mark := false, stop := true }
    let o : Offer := x.offer b buf
    have hjudged : Part.Heard b n s.part (Part.judging b x ch s.part) := Part.judging_heard ..
    have hsame : (Part.judging b x ch s.part).stations = s.part.stations := by rw [Part.judging_eq]; rfl
    have hround : ((Part.judging b x ch s.part).engine b).round = g.round := by rw [Part.judging_eq]; simp [g]
    have hexec : ∀ {q}, Part.goodFrame b (x.noting ch) (Part.judging b x ch s.part) = q →
        exec c s = .next (s.withPart q) := fun h =>
      onPart_awake_eq hheld ((Part.receiveChar_goodFrame hstate hx harriving hphase rfl rfl hstage hcheck).trans h)
    generalize Part.judging b x ch s.part = p0 at *
    have hst : p0.station b n = st := by rw [Part.station, hsame]; rfl
    have hstands : (p0.station b n).state = st.state := congrArg Station.state hst
    have hnext : ∀ {p1}, Part.reportGood b (x.noting ch) p0 = p1 → (p1.engine b).reservation = some buf →
        exec c s = .next (s.withPart (Part.offerFrame o p1)) := fun {p1} hp1 h => by
      subst hp1
      exact hexec (Part.goodFrame_offers h)
    have hanswered : ∀ {code q}, exec c s = .next (s.withPart q) → Part.Answers o code q → answered code (s.withPart q) :=
      fun hn h => ⟨hn, h.phase, h.sent, rfl⟩
    refine ⟨fun hkind habsent => ?absent, fun hvoid hkind habsent hunit => ?discovers,
      fun hvoid hkind hpresent hvalid hlast => ?repeats, fun hvoid hkind hpresent hnew => ?fresh⟩
    case absent =>
      have hr : (p0.engine b).reservation = some buf := hjudged.reservation.trans hreserved
      have hn := hnext (Part.reportGood_kept hkind (fun e => habsent (hstands.symm.trans e))) hr
      rw [Part.offer_absent (o := o) (p := p0) (by rw [show p0.station o.branch o.station = st from hst]; exact habsent)] at hn
      have hrefuses := Part.sendVerdict_refuses (o := o) (p := p0) (q := p0) (R := p0.router) .reject hr rfl
      obtain ⟨⟨E, S, W, rfl⟩, -⟩ := hjudged
      exact ⟨_, hanswered hn hrefuses.toAnswers, hrefuses.reservation, hsame, rfl, rfl, rfl⟩
    case discovers =>
      obtain ⟨hpresent, hvalid, hreservation, hunits, hnodes, hrouter⟩ := Part.reportGood_discovers (b := b)
        (x := x.noting ch) (p := p0) hkind hvoid (hstands.trans habsent)
      generalize hp1 : Part.reportGood b (x.noting ch) p0 = p1 at *
      have hr : (p1.engine b).reservation = some buf := hreservation.trans (hjudged.reservation.trans hreserved)
      have hn := hnext rfl hr
      have hnodes' : s.part.nodes = p0.nodes := by
        obtain ⟨⟨E, S, W, rfl⟩, -⟩ := hjudged
        rfl
      obtain ⟨hunits', -, -, hrouter', -⟩ := hjudged.same
      have hunit' : Part.Unusable o p1 := by
        rw [Part.Unusable, hunits, ← hunits', hnodes, ← hnodes']
        exact hunit
      have hfresh : Part.Fresh o p1 := ⟨hpresent, fun ⟨h, _⟩ => nomatch h.symm.trans hvalid⟩
      rw [Part.offer_unusable hfresh hunit'] at hn
      refine ⟨_, hanswered hn (Part.sendVerdict_answers o .reject _), (Part.sendVerdict_reservation ..).trans hr, hpresent, ?_⟩
      rw [hrouter', ← hrouter]
      exact get_put_self ..
    all_goals
      have hclean := Part.reportGood_clean (b := b) (x := x.noting ch) (p := p0) hkind hvoid (hstands.trans hpresent)
      have hheard : Part.Heard b n s.part (Part.reportGood b (x.noting ch) p0) := hclean ▸ hjudged.updStation
      have hself : (Part.reportGood b (x.noting ch) p0).station b n = st.heard g.round := by
        rw [hclean, ← hround, ← hst]
        exact Part.station_updStation_self ..
      generalize Part.reportGood b (x.noting ch) p0 = p1 at *
      have hr : (p1.engine b).reservation = some buf := hheard.reservation.trans hreserved
      have hn := hnext rfl hr
      obtain ⟨hunits, hpool, hjobs, hrouter, hring, hsetup, hstamp, hjob, hqueue, hport, hprinter, hpath, htarget, hfreeRecord,
        hassembling⟩ := hheard.same
      have hkept : ∀ {code t}, exec c s = .next (s.withPart t) → Part.Refuses o code p1 t → kept code (s.withPart t) :=
        fun hn h => ⟨hanswered hn h.toAnswers, h.reservation, h.station.trans hself, h.pool.trans hpool.symm, h.jobs.trans hjobs.symm⟩
    case repeats =>
      rw [Part.offer_repeats (o := o) (p := p1) ((congrArg Station.state hself).trans hpresent)
        ((congrArg Station.rxValid hself).trans hvalid) ((congrArg Station.rxLast hself).trans hlast)] at hn
      exact ⟨_, hkept hn (Part.sendVerdict_refuses (.duplicate seq) hr rfl), hrouter.symm⟩
    case fresh =>
      have hfresh : Part.Fresh o p1 := Part.fresh_heard (o := o) (p := s.part) hself ⟨hpresent, hnew⟩
      have hunit : Part.Unusable o p1 ↔ unusable := Part.unusable_heard (o := o) hheard
      have htaken : Part.Accepts o p1 (Part.offerFrame o p1) → taken (s.withPart (Part.offerFrame o p1)) := fun h => by
        have hreceived := h.received
        rw [show p1.station o.branch o.station = _ from hself] at hreceived
        exact ⟨hanswered hn h.toAnswers, h.reservation, congrArg (·.1) hreceived, congrArg (·.2.1) hreceived,
          congrArg (·.2.2) hreceived⟩
      refine ⟨fun hbad => ?unusable, fun husable => ?usable⟩
      case unusable =>
        rw [Part.offer_unusable hfresh (hunit.mpr hbad)] at hn
        refine ⟨_, hkept hn (Part.sendVerdict_refuses .reject hr rfl), ?_⟩
        rw [hrouter]
        exact get_put_self ..
      case usable =>
        have hok : ¬ Part.Unusable o p1 := mt hunit.mp husable
        have hreaches : ∀ b2 s2, Part.Reaches o b2 s2 p1 ↔ Part.Reaches o b2 s2 s.part := fun _ _ =>
          Part.reaches_heard (o := o) hheard
        have hqueues : ∀ d, (s.part.engine d).queue = (p1.engine d).queue := fun d => (hheard.queues d).symm
        have hcount : st.openJobs = (p1.station o.branch o.station).openJobs := (congrArg Station.openJobs hself).symm
        simp only [hpool, hjobs, hrouter, hring, hsetup, hstamp, hjob, hqueue, hport, hprinter, hpath, htarget, hfreeRecord,
          hassembling, hqueues, hcount]
        refine ⟨fun hkind => ?host, fun b2 s2 hkind => ⟨fun hnot => ?unreached, fun hyes hfull => ?full, fun hyes hroom => ?relayed⟩,
          fun k hkind => ⟨fun hoff => ?off, fun hon hfirst => ?next, fun hon hfirst => ?first⟩⟩
        case host =>
          obtain ⟨hengine, hrouter', hring', hstations, hpool', hjobs'⟩ :=
            Part.offerFrame_asks (o := o) (Part.needsMark_host hfresh hok (by rw [← hunits]; exact hkind))
          generalize Part.offerFrame o p1 = t at *
          exact ⟨_, hn, congrArg Engine.phase hengine, (congrArg Engine.reservation hengine).trans hr, hrouter',
            hring'.trans (by rw [← hrouter]), (congrArg (fun v => v.get (stationIx b n)) hstations).trans hself, hpool', hjobs', rfl⟩
        all_goals have hkind' : (p1.units.get o.unit.toFin).kind = _ := (congrArg (fun u => (u.get o.unit.toFin).kind) hunits).symm.trans hkind
        case unreached =>
          exact ⟨_, hkept hn (Part.offer_refusesRelay hfresh hok hr hkind' (Part.relay_rejects (mt (hreaches b2 s2).mp hnot)))⟩
        case full =>
          exact ⟨_, hkept hn (Part.offer_refusesRelay hfresh hok hr hkind'
            (Part.relay_holds ((hreaches b2 s2).mpr hyes) hfull))⟩
        case relayed =>
          obtain ⟨haccepts, hpool', hqueue'⟩ := Part.offer_relays hfresh hok hkind' ((hreaches b2 s2).mpr hyes)
            hroom hr
          exact ⟨_, htaken haccepts, hpool', hqueue'⟩
        case off =>
          exact ⟨_, hkept hn (Part.offer_refusesPrint hfresh hok hr hkind' (Part.printFrame_off hoff))⟩
        all_goals
          have hrefused : ∀ {w : RouterVerdict} {code : Byte}, w.status = code → Part.printFrame o k p1 = (w, p1) →
              kept code (s.withPart (Part.offerFrame o p1)) := fun hcode h =>
            hcode ▸ hkept hn (Part.offer_refusesPrint hfresh hok hr hkind' h)
        case next =>
          have hnext' := Part.printFrame_next (o := o) hon hfirst
          refine ⟨fun hnone => ⟨_, hrefused rfl (hnext'.trans (Part.printNext_none hnone))⟩, fun j hold =>
            ⟨fun hother => ⟨_, hrefused rfl (hnext'.trans (Part.printNext_other hold hother))⟩, fun hprinter hfull => ?tooLarge,
              fun hprinter hroom => ⟨fun hwaits => ⟨_, hrefused rfl (hnext'.trans (Part.printNext_holds hold hprinter hroom hwaits))⟩,
                fun hfree => ⟨fun hlast => ?joins, fun hlast hcloses hport => ?waits,
                  fun hlast hqueue hidle hload hpending hhandshake hdecide hchain hbytes habort => ?prints⟩⟩⟩⟩
          case tooLarge =>
            obtain ⟨hanswers, hrest⟩ := Part.offer_tooLarge hfresh hok hkind' hon hfirst hold hprinter hfull hr
            exact ⟨_, hanswered hn hanswers, hrest⟩
          case joins =>
            obtain ⟨haccepts, hrest⟩ := Part.offer_joins hfresh hok hkind' hon hfirst hold hprinter hroom hfree hlast hr
            exact ⟨_, htaken haccepts, hrest⟩
          case waits =>
            obtain ⟨haccepts, hjob, hqueue⟩ :=
              Part.offer_waits hfresh hok hkind' hon hfirst hold hprinter hroom hfree hlast hcloses hport hr
            exact ⟨_, htaken haccepts, congrArg Job.state hjob, congrArg Job.stamp hjob, congrArg Job.chain hjob,
              congrArg Job.printer hjob, hqueue⟩
          case prints =>
            obtain ⟨haccepts, hrest⟩ := Part.offer_prints hfresh hok hkind' hon hfirst hold hprinter hroom hfree hlast hqueue hidle
              hload hpending hdecide hchain hbytes hr
            exact ⟨_, htaken haccepts, hrest⟩
        case first =>
          have hfirst' := Part.printFrame_first (o := o) hon hfirst
          refine ⟨fun hnot => ⟨_, hrefused rfl (hfirst'.trans (Part.printFirst_holds hnot))⟩,
            fun j hfree hyes hlast hport => ?last, fun j hfree hyes hlast => ?more⟩
          case last =>
            obtain ⟨haccepts, hrest⟩ :=
              Part.offer_opensLast hfresh hok hkind' hon hfirst hfree hyes hlast hport hr
            exact ⟨_, htaken haccepts, hrest⟩
          case more =>
            obtain ⟨haccepts, hrest⟩ := Part.offer_opens hfresh hok hkind' hon hfirst hfree hyes hlast hr
            exact ⟨_, htaken haccepts, hrest⟩
  case decided =>
    intro i st e seq mark g status q waits forHost taken returned
    let p1 : Part := { p with ring := q.ring }
    have hcycle : Part.cycle .ring (p, m) = (Part.decideOffer mark p1, m) := by
      have haddr : Part.readAddr r p = 0x02000 + 32 * i.val := (Part.readAddr_eq r p).trans (if_pos huser)
      rw [Part.cycle_ring_eq m hring hwait, if_pos hleft, huser, hgot, haddr]
      simp only [Part.readsAfter, List.erase_cons_head, if_pos hleft, List.append_nil]
      rfl
    have hoffers' : p1.router.offers = o :: os := hoffers
    have hawaits : waits → p1.awaits o = true := fun h => Part.awaits_iff.mpr h
    have haborted : g.phase ≠ .verdict → p1.awaits o = false := fun h =>
      Bool.eq_false_iff.mpr fun ha => h (Part.awaits_iff.mp ha).1
    have hreturned : ∀ {w}, g.phase ≠ .verdict → g.reservation = some o.buf → (∀ s, w ≠ .taken s) → q.route mark o = (w, q) →
        ∃ t, returned t ∧ t.pool.hostHeld = p.pool.hostHeld := fun hphase hreserved hw hroute => by
      have hdecided := Part.decideOffer_aborted mark o os p1 hoffers' (haborted hphase) _ q hroute hw
      obtain ⟨hpool, hrouter, hengines⟩ := Part.returnOffered_returns (o := o) (q := q) hreserved
      rw [hdecided] at hcycle
      generalize Part.returnOffered o q = t at *
      exact ⟨t, ⟨hcycle, congrArg Pool.free hpool, hrouter, hengines⟩, (congrArg Pool.hostHeld hpool :)⟩
    have hanswers : ∀ {w}, waits → g.strayRun = none → q.route mark o = (w, q) → Part.cycle .ring (p, m) =
        ({ q with engines := put p.engines o.branch (status w.status g) }, m) := fun hwaits hstray hroute =>
      hcycle.trans (congrArg (·, m) (Part.decideOffer_sends (p := p1) hoffers' (hawaits hwaits) hroute hstray))
    refine ⟨fun hpresent hnew host dst hhost => ?host, fun habsent => ⟨fun hwaits hstray => ?_, fun hphase hreserved => ?_⟩,
      fun hwaits cs hstray => ?stray⟩
    case host =>
      have hfresh : Part.Fresh o q := ⟨hpresent, hnew⟩
      have hfor : Part.ForHost o (!host) dst q := by
        obtain ⟨hmask, hto⟩ := hhost
        refine ⟨?_, hto.imp (fun ⟨hhost, hkind, hdst⟩ => ⟨by rw [hhost]; rfl, hkind, hdst⟩)
          fun ⟨hhost, k, hkind, _, hdst⟩ => ⟨by rw [hhost]; rfl, k, hkind, hdst⟩⟩
        rintro (hkind' | hmask' | ⟨k', hkind', hinvalid⟩)
        · rcases hto with ⟨-, hkind, -⟩ | ⟨-, k, hkind, -⟩ <;> exact nomatch hkind.symm.trans hkind'
        · exact nomatch hmask.symm.trans hmask'
        · rcases hto with ⟨-, hkind, -⟩ | ⟨-, k, hkind, hvalid, -⟩
          · exact nomatch hkind.symm.trans hkind'
          · cases hkind.symm.trans hkind'
            exact nomatch hvalid.symm.trans hinvalid
      have hroute : q.route mark o = Part.deliver mark o (!host) dst q := Part.route_host hfresh hfor
      have hfull : mark ≠ 0 → q.route mark o = (.hold, q) := fun hmark => hroute.trans (Part.deliver_full hmark)
      have hfits : mark = 0 → q.route mark o = (.taken seq, Part.slotted o (!host) dst q) := fun hmark => by
        rw [hroute, hmark]
        rfl
      have hslot := Part.slotted_fields (o := o) (p := q) (bridge := !host) (dst := dst) hfresh
      rw [Bool.not_not] at hslot
      refine ⟨fun hwaits hstray => ⟨fun hmark => ?_, fun hmark => hanswers hwaits hstray (hfull hmark)⟩,
        fun hphase hreserved => ⟨fun hmark => ?_, fun hmark => hreturned (w := .hold) hphase hreserved (fun _ => nofun) (hfull hmark)⟩⟩
      · obtain ⟨hpool, hrouter, hring', hstation, hwriter, hengines, -⟩ := hslot hwaits.2
        have hengine : (Part.slotted o (!host) dst q).engine o.branch = { g with reservation := none } := by
          rw [Part.engine, hengines]
          exact get_put_self ..
        have hsent := Part.decideOffer_sends (p := p1) hoffers' (hawaits hwaits) (hfits hmark) (by rw [hengine]; exact hstray)
        rw [hengine] at hsent
        generalize Part.slotted o (!host) dst q = u at *
        refine ⟨_, hcycle.trans (congrArg (·, m) hsent), ⟨hpool, hrouter, hring', hstation, hwriter⟩, ?_⟩
        exact get_put_self ..
      · obtain ⟨hpool, hrouter, hring', hstation, hwriter, hengines, hunits⟩ := hslot hreserved
        have hkept := Part.decideOffer_kept (p := p1) hoffers' (haborted hphase) (hfits hmark)
          (fun k => by rw [hunits]; exact hfor.kind k)
        generalize Part.slotted o (!host) dst q = u at *
        exact ⟨_, hcycle.trans (congrArg (·, m) hkept), ⟨hpool, hrouter, hring', hstation, hwriter⟩, hengines⟩
    · exact hanswers hwaits hstray (Part.route_absent habsent)
    · obtain ⟨t, ht, _⟩ := hreturned (w := .reject) hphase hreserved (fun _ => nofun) (Part.route_absent habsent)
      exact ⟨t, ht⟩
    case stray =>
      have hkept := Part.route_strayRun mark o o.branch q
      have hsups := Part.supervision_route mark o q
      simp only [Part.supervision, Prod.mk.injEq] at hsups
      obtain ⟨-, -, -, -, hsups, -⟩ := hsups
      obtain ⟨hnone, hkinds⟩ := Part.decideOffer_ends (p := p1) hoffers' (hawaits hwaits) (mark := mark) (v := (q.route mark o).1)
        (q := (q.route mark o).2) rfl (hkept.trans hstray)
      refine ⟨_, hcycle, hnone, hkinds.trans ?_⟩
      rw [Part.sup, hsups]
      rfl

end Sys2Proof.Machine
end
